-- ==== Sys2Proof/Word.lean ====
section
/-! DEFINITION. The word types of the device and the description of a register field (chapter 0, Registers, fields and signals). -/

namespace Sys2Proof

/-- A 32-bit word: every register, and a general register of Kiln or of a Kindling thread (R9, R214). -/
abbrev Word := BitVec 32

/-- A byte of memory. -/
abbrev Byte := BitVec 8

/-- A 64-bit value: the timebase, a floor sequence, a product of MUL64. -/
abbrev DWord := BitVec 64

/-- A bit range `[hi:lo]` of a 32-bit register, as a register map gives it. -/
structure Fld where
  hi : Nat
  lo : Nat
deriving DecidableEq, Repr

end Sys2Proof
end

