-- ==== Sys2Proof/Operand.lean ====
section
/-! DEFINITION. The structured operands that commands carry: a processor, an instruction's form, a TE sample and its origin, a money event's kind, an edge, a
serial frame, a link's report, and a boot flash with its
images and profile records. -/

namespace Sys2Proof

/-- Which processor executes an instruction: Kiln, or a Kindling thread (R216). -/
inductive Agent where
  | kiln
  | thread (t : Fin 64)
deriving DecidableEq, Repr

/-- The two lengths of an instruction (R217) with the bits beside its opcode: cc2 and bits [8:0], or cond and bits [19:0]. -/
inductive Form where
  | short (cc : BitVec 2) (arg : BitVec 9)
  | long (cc : BitVec 4) (arg : BitVec 20)
deriving DecidableEq, Repr

/-- How a TE sample comes (R145): an edge of the pin, falling or rising, or a trigger message after a turnaround. -/
inductive TeFrom where
  | edge (falling : Bool)
  | trigger
deriving DecidableEq, Repr

/-- A TE sample at a head (R145, R146). -/
structure TeSample where
  n : Fin 4
  te : TeFrom
deriving DecidableEq, Repr

/-- The kind of a money event (R389): its record type and, for a reversal, the TXID that it undoes. -/
structure MoneyKind where
  type : BitVec 16
  undone : Option (BitVec 64)
deriving DecidableEq, Repr

/-- A change at a timer's capture input (R316, R333): the levels that it leaves at the timer's own pin and at the alternate pin, and the nanoseconds for which
these then stand. -/
structure Edge where
  own : Bool
  other : Bool
  held : Nat
deriving DecidableEq, Repr

/-- The words of a serial frame, slot by slot, at a port's own pin and at the alternate pin of its input (R211, R316). -/
structure SlotWords where
  own : List Word
  alt : List Word
deriving DecidableEq, Repr

/-- What a floor port reports of its link (R406): up, 10 Gbit/s, auto-negotiation done, trained, block lock. -/
structure LinkReport where
  up : Bool
  tenG : Bool
  anDone : Bool
  trained : Bool
  lock : Bool
deriving DecidableEq, Repr

/-- A profile record (Table 22-6): block enables and reset modes, the register settings of the clock plan, the partition, the ledger sizes and
the pins in the order in which they are applied, the guard and actuator settings (port and value), the power limits at Noon and Dusk, and the registers of
the video-mode heads' Dusk timing (R490). -/
structure Profile where
  blocks : Nat
  modes : Nat
  settings : List (Nat × Word)
  guard : Word
  acts : List (Nat × Word)
  noon : Nat
  dusk : Nat
  duskHeads : List (Nat × Word)
deriving DecidableEq, Repr

/-- An image as its slot holds it (R461): the bytes of header and body, and what the body's profile records say, by profile number. The manual
gives the records' contents and not their bytes. -/
structure FlashImage where
  bytes : List Byte
  records : List (Nat × Profile)
deriving DecidableEq, Repr

/-- A boot flash with a valid SFDP table (Table 22-4): its size, the two slots and the certificate area. -/
structure Flash where
  size : Nat
  slotA : FlashImage
  slotB : FlashImage
  cert : List Byte
deriving DecidableEq, Repr

end Sys2Proof
end

