-- ==== Sys2Proof/Syntax.lean ====
section
/-! DEFINITION. The commands of the XF960 as a block: one constructor per row of the table of operations and events (spec/opcode_table.json), in the table's
order. A unit's number is a `Fin`; the other operands are what the outside world, or an analogue part of the device, decides. -/

namespace Sys2Proof

/-- The commands. Each constructor's docstring gives its row's mnemonic and the rule that governs it. -/
inductive Instr where
  /-- REGISTER_WRITE (R7). -/
  | registerWrite (port : Fin 12) (sup : Bool) (a w : Word) (size : Fin 3)
  /-- READ_CLEAR (R7). -/
  | readClear (port : Fin 12) (sup : Bool) (a : Word) (size : Fin 3)
  /-- BLOCK_ENABLE_WRITE (R33). -/
  | blockEnableWrite (n : Fin 40) (on : Bool)
  /-- START_SEQUENCE_DONE (R35). -/
  | startSequenceDone (n : Fin 40)
  /-- STOP_SEQUENCE_DONE (R36). -/
  | stopSequenceDone (n : Fin 40)
  /-- DRAIN_TIMEOUT (R36). -/
  | drainTimeout (n : Fin 40)
  /-- BLOCK_RESET (R37). -/
  | blockReset (n : Fin 40)
  /-- BLOCK_RESET_RELEASE (R39). -/
  | blockResetRelease (n : Fin 40)
  /-- QDR_READ (R55). -/
  | qdrRead (port : Fin 12) (a : Word) (len : Nat) (seen : List Nat)
  /-- QDR_WRITE (R53). -/
  | qdrWrite (port : Fin 12) (a : Word) (bytes : List Byte) (seen : List Nat)
  /-- CORRECTIVE_WRITE_BACK (R56). -/
  | correctiveWriteBack (home : Nat)
  /-- ADDRESS_PARITY_ERROR (R57). -/
  | addressParityError (k : Fin 6)
  /-- SCRUB_GRANULE (R59). -/
  | scrubGranule (k : Fin 6) (seen : List Nat)
  /-- TRAIN_CHANNEL (R63). -/
  | trainChannel (k : Fin 6)
  /-- TRAIN_DONE (R63). -/
  | trainDone (k : Fin 6) (fail : Fin 8) (eye : Byte)
  /-- ZQ_RECALIBRATE (R64). -/
  | zqRecalibrate (k : Fin 6) (failed : Bool)
  /-- EYE_TRACK_WINDOW (R65). -/
  | eyeTrackWindow (k : Fin 6) (group : Fin 64) (early late : Nat)
  /-- TRACKING_INJECT (R65). -/
  | trackingInject (k : Fin 6)
  /-- DOZE_ENTER (R66). -/
  | dozeEnter
  /-- DOZE_EXIT (R67). -/
  | dozeExit
  /-- MIRROR_CONFIG_WRITE (R62). -/
  | mirrorConfigWrite (j : Fin 3) (w : Word)
  /-- INTLV_WRITE (R49). -/
  | intlvWrite (w : Word)
  /-- CSRAM_ACCESS (R69). -/
  | csramAccess (port : Fin 12) (a : Word) (wr : Option (List Byte)) (len : Nat) (seen : List Nat)
  /-- FRAME_BOUNDARY (R100). -/
  | frameBoundary (n : Fin 4)
  /-- COMPOSE_LINE (R154). -/
  | composeLine (n : Fin 4)
  /-- SPRITE_LINE_EVAL (R83). -/
  | spriteLineEval (n : Fin 4)
  /-- LAST_LINE_COMPOSED (R90). -/
  | lastLineComposed (n : Fin 4)
  /-- PAL_DATA_ACCESS (R93). -/
  | palDataAccess (n : Fin 4) (wr : Option Word)
  /-- PALETTE_LOAD (R94). -/
  | paletteLoad (n : Fin 4) (w : Word)
  /-- PALETTE_LOAD_DONE (R94). -/
  | paletteLoadDone (n : Fin 4)
  /-- SPR_RELOAD_REQUEST (R88). -/
  | sprReloadRequest (n : Fin 4)
  /-- UPDATE_HOLD_WRITE (R98). -/
  | updateHoldWrite (n : Fin 4) (hold : Bool)
  /-- BEAM_PREFETCH_FILL (R102). -/
  | beamPrefetchFill (n : Fin 4) (waited : Nat)
  /-- BEAM_END (R104). -/
  | beamEnd (n : Fin 4)
  /-- BEAM_WAITL (R104). -/
  | beamWaitl (n : Fin 4)
  /-- BEAM_WAITL_RELEASE (R112). -/
  | beamWaitlRelease (n : Fin 4)
  /-- BEAM_WAITX (R104). -/
  | beamWaitx (n : Fin 4)
  /-- BEAM_WAITX_RELEASE (R111). -/
  | beamWaitxRelease (n : Fin 4)
  /-- BEAM_WR (R109). -/
  | beamWr (n : Fin 4)
  /-- BEAM_BWR (R104). -/
  | beamBwr (n : Fin 4)
  /-- BEAM_SKIP (R106). -/
  | beamSkip (n : Fin 4)
  /-- BEAM_LOOP (R105). -/
  | beamLoop (n : Fin 4)
  /-- BEAM_SIG (R118). -/
  | beamSig (n : Fin 4)
  /-- BEAM_TOUCH (R104). -/
  | beamTouch (n : Fin 4)
  /-- PIPE_ASSIGN (R139). -/
  | pipeAssign (p : Fin 40) (w : Word)
  /-- VIDEO_BASE_WRITE (R136). -/
  | videoBaseWrite (n : Fin 4) (v : Fin 2) (chroma : Bool) (w : Word)
  /-- VID_COEF_DATA_ACCESS (R131). -/
  | vidCoefDataAccess (n : Fin 4) (wr : Option Word)
  /-- GAMMA_DATA_ACCESS (R133). -/
  | gammaDataAccess (n : Fin 4) (wr : Option Word)
  /-- TE_SAMPLE (R146). -/
  | teSample (te : TeSample)
  /-- TE_MISSING (R147). -/
  | teMissing (n : Fin 4)
  /-- BTA_TE_REQUEST (R145). -/
  | btaTeRequest (n : Fin 4) (due : Bool)
  /-- BTA_TIMEOUT (R145). -/
  | btaTimeout (n : Fin 4)
  /-- LINE_PACKET_START (R150). -/
  | linePacketStart (n : Fin 4) (k : Nat)
  /-- LINE_PACKET_END (R154). -/
  | linePacketEnd (n : Fin 4)
  /-- VIDEO_LINE_START (R157). -/
  | videoLineStart (n : Fin 4) (k : Nat)
  /-- HEAD_PACKET_SEND (R143). -/
  | headPacketSend (n : Fin 4) (w : Word)
  /-- HEAD_PACKET_DONE (R143). -/
  | headPacketDone (n : Fin 4) (resp : List Byte) (err : Bool)
  /-- HEAD_MARK_WRITE (R152). -/
  | headMarkWrite (n : Fin 4) (w : Word)
  /-- FLIP_RECORD_READ (R159). -/
  | flipRecordRead (n : Fin 4)
  /-- HEAD_CTRL_WRITE (R161). -/
  | headCtrlWrite (n : Fin 4) (w : Word)
  /-- DESKEW_DONE (R160). -/
  | deskewDone (n : Fin 4)
  /-- ROW_CHECK_DONE (R165). -/
  | rowCheckDone (n : Fin 4) (burst : List Byte)
  /-- DIGEST_COMPLETE (R171). -/
  | digestComplete (n : Fin 4)
  /-- WITNESS_CTRL_WRITE (R166). -/
  | witnessCtrlWrite (n : Fin 4) (w : Word)
  /-- WITNESS_LOG_CONFIG_WRITE (R175). -/
  | witnessLogConfigWrite (n : Fin 4) (size : Bool) (w : Word)
  /-- WITNESS_STATUS (R176). -/
  | witnessStatus (mbx : Fin 4)
  /-- WITNESS_BIND (R176). -/
  | witnessBind (mbx : Fin 4)
  /-- WITNESS_ENABLE (R173). -/
  | witnessEnable (mbx : Fin 4)
  /-- WITNESS_LOG_ACK (R176). -/
  | witnessLogAck (mbx : Fin 4)
  /-- BLIT_GO (R181). -/
  | blitGo
  /-- BLIT_ABORT (R181). -/
  | blitAbort
  /-- BLK_END (R178). -/
  | blkEnd
  /-- BLK_COPY (R182). -/
  | blkCopy
  /-- BLK_FILL (R178). -/
  | blkFill
  /-- BLK_BLEND (R179). -/
  | blkBlend
  /-- BLK_CONVERT (R178). -/
  | blkConvert
  /-- BLK_EXPAND (R178). -/
  | blkExpand
  /-- BLK_WAIT (R178). -/
  | blkWait
  /-- BLK_WAITLINE (R185). -/
  | blkWaitline
  /-- BLK_WAIT_RELEASE (R185). -/
  | blkWaitRelease
  /-- BLK_SIG (R178). -/
  | blkSig
  /-- BLK_BURST (R183). -/
  | blkBurst
  /-- DMA_GO (R191). -/
  | dmaGo (k : Fin 16)
  /-- DMA_ABORT (R192). -/
  | dmaAbort (k : Fin 16)
  /-- DMA_PAUSE (R191). -/
  | dmaPause (k : Fin 16)
  /-- DMA_RESUME (R191). -/
  | dmaResume (k : Fin 16)
  /-- DMA_TRIG_SW (R190). -/
  | dmaTrigSw (k : Fin 16)
  /-- DMA_TRIGGER (R190). -/
  | dmaTrigger (trigger : Fin 64)
  /-- DMA_DESC_LOAD (R187). -/
  | dmaDescLoad (k : Fin 16) (seen : List Nat)
  /-- DMA_BURST (R189). -/
  | dmaBurst
  /-- DMA_BURST_DONE (R192). -/
  | dmaBurstDone (k : Fin 16) (seen : List Nat)
  /-- DMA_DESC_END (R187). -/
  | dmaDescEnd (k : Fin 16)
  /-- AUDIO_BLOCK_BOUNDARY (R194). -/
  | audioBlockBoundary (m : Nat)
  /-- AUDIO_RENDER_DONE (R195). -/
  | audioRenderDone
  /-- VOICE_KEY_ON (R200). -/
  | voiceKeyOn (v : Fin 128)
  /-- VOICE_KEY_OFF (R200). -/
  | voiceKeyOff (v : Fin 128)
  /-- FX_END (R207). -/
  | fxEnd (b : Fin 16)
  /-- FX_MULK (R207). -/
  | fxMulk (b : Fin 16) (d a : Fin 32) (imm : BitVec 16)
  /-- FX_MACK (R207). -/
  | fxMack (b : Fin 16) (d a : Fin 32) (imm : BitVec 16)
  /-- FX_MUL (R207). -/
  | fxMul (b : Fin 16) (d a c : Fin 32)
  /-- FX_ADD (R207). -/
  | fxAdd (b : Fin 16) (d a c : Fin 32)
  /-- FX_SUB (R207). -/
  | fxSub (b : Fin 16) (d a c : Fin 32)
  /-- FX_DRD (R208). -/
  | fxDrd (b : Fin 16) (d : Fin 32) (imm : BitVec 16)
  /-- FX_DWR (R208). -/
  | fxDwr (b : Fin 16) (a : Fin 32)
  /-- FX_SAT (R207). -/
  | fxSat (b : Fin 16) (d a : Fin 32)
  /-- FX_LDK (R207). -/
  | fxLdk (b : Fin 16) (d : Fin 32) (imm : BitVec 16)
  /-- AUDIO_PORT_LOCK (R210). -/
  | audioPortLock (k : Fin 4) (ppm : Word)
  /-- AUDIO_PORT_LOCK_LOSS (R210). -/
  | audioPortLockLoss (k : Fin 4)
  /-- AUDIO_FIFO_ACCESS (R211). -/
  | audioFifoAccess (k : Fin 4) (wr : Option Word)
  /-- MOV (R220). -/
  | mov (a : Agent) (f : Form)
  /-- ADD (R222). -/
  | add (a : Agent) (f : Form)
  /-- SUB (R222). -/
  | sub (a : Agent) (f : Form)
  /-- AND (R222). -/
  | and (a : Agent) (f : Form)
  /-- OR (R222). -/
  | or (a : Agent) (f : Form)
  /-- XOR (R222). -/
  | xor (a : Agent) (f : Form)
  /-- CMP (R223). -/
  | cmp (a : Agent) (f : Form)
  /-- TST (R223). -/
  | tst (a : Agent) (f : Form)
  /-- MOVI (R220). -/
  | movi (a : Agent) (cc : BitVec 2) (arg : BitVec 9)
  /-- ADDI (R222). -/
  | addi (a : Agent) (f : Form)
  /-- CMPI (R222). -/
  | cmpi (a : Agent) (f : Form)
  /-- LSL (R220). -/
  | lsl (a : Agent) (cc : BitVec 2) (arg : BitVec 9)
  /-- LSR (R220). -/
  | lsr (a : Agent) (cc : BitVec 2) (arg : BitVec 9)
  /-- ASR (R220). -/
  | asr (a : Agent) (cc : BitVec 2) (arg : BitVec 9)
  /-- LD (R220). -/
  | ld (a : Agent) (cc : BitVec 2) (arg : BitVec 9)
  /-- ST (R220). -/
  | st (a : Agent) (cc : BitVec 2) (arg : BitVec 9)
  /-- LDSP (R220). -/
  | ldsp (a : Agent) (cc : BitVec 2) (arg : BitVec 9)
  /-- STSP (R220). -/
  | stsp (a : Agent) (cc : BitVec 2) (arg : BitVec 9)
  /-- B (R222). -/
  | branch (a : Agent) (f : Form)
  /-- CALL (R227). -/
  | call (a : Agent) (f : Form)
  /-- JR (R227). -/
  | jr (a : Agent) (f : Form)
  /-- NOT (R220). -/
  | not (a : Agent) (cc : BitVec 2) (regs : BitVec 8)
  /-- NEG (R220). -/
  | neg (a : Agent) (cc : BitVec 2) (regs : BitVec 8)
  /-- ADC (R222). -/
  | adc (a : Agent) (cc : BitVec 4) (arg : BitVec 20)
  /-- SBC (R222). -/
  | sbc (a : Agent) (cc : BitVec 4) (arg : BitVec 20)
  /-- RSB (R222). -/
  | rsb (a : Agent) (cc : BitVec 4) (arg : BitVec 20)
  /-- BIC (R222). -/
  | bic (a : Agent) (cc : BitVec 4) (arg : BitVec 20)
  /-- MVN (R222). -/
  | mvn (a : Agent) (cc : BitVec 4) (arg : BitVec 20)
  /-- MUL (R222). -/
  | mul (a : Agent) (cc : BitVec 4) (arg : BitVec 20)
  /-- SHV (R222). -/
  | shv (a : Agent) (cc : BitVec 4) (arg : BitVec 20)
  /-- CLZ (R222). -/
  | clz (a : Agent) (cc : BitVec 4) (arg : BitVec 20)
  /-- SUBI (R222). -/
  | subi (a : Agent) (cc : BitVec 4) (arg : BitVec 20)
  /-- ANDI (R222). -/
  | andi (a : Agent) (cc : BitVec 4) (arg : BitVec 20)
  /-- ORI (R222). -/
  | ori (a : Agent) (cc : BitVec 4) (arg : BitVec 20)
  /-- XORI (R222). -/
  | xori (a : Agent) (cc : BitVec 4) (arg : BitVec 20)
  /-- MOVW (R222). -/
  | movw (a : Agent) (cc : BitVec 4) (arg : BitVec 20)
  /-- MOVT (R222). -/
  | movt (a : Agent) (cc : BitVec 4) (arg : BitVec 20)
  /-- LDW (R224). -/
  | ldw (a : Agent) (cc : BitVec 4) (arg : BitVec 20)
  /-- LDH (R224). -/
  | ldh (a : Agent) (cc : BitVec 4) (arg : BitVec 20)
  /-- LDHS (R224). -/
  | ldhs (a : Agent) (cc : BitVec 4) (arg : BitVec 20)
  /-- LDB (R224). -/
  | ldb (a : Agent) (cc : BitVec 4) (arg : BitVec 20)
  /-- LDBS (R224). -/
  | ldbs (a : Agent) (cc : BitVec 4) (arg : BitVec 20)
  /-- STW (R224). -/
  | stw (a : Agent) (cc : BitVec 4) (arg : BitVec 20)
  /-- STH (R224). -/
  | sth (a : Agent) (cc : BitVec 4) (arg : BitVec 20)
  /-- STB (R224). -/
  | stb (a : Agent) (cc : BitVec 4) (arg : BitVec 20)
  /-- LEA (R222). -/
  | lea (a : Agent) (cc : BitVec 4) (arg : BitVec 20)
  /-- LDM (R230). -/
  | ldm (a : Agent) (cc : BitVec 4) (arg : BitVec 20) (limit : Nat)
  /-- STM (R230). -/
  | stm (a : Agent) (cc : BitVec 4) (arg : BitVec 20) (limit : Nat)
  /-- BMOV (R231). -/
  | bmov (a : Agent) (cc : BitVec 4) (arg : BitVec 20) (limit : Nat)
  /-- BFILL (R231). -/
  | bfill (a : Agent) (cc : BitVec 4) (arg : BitVec 20) (limit : Nat)
  /-- BCRC (R232). -/
  | bcrc (a : Agent) (cc : BitVec 4) (arg : BitVec 20) (limit : Nat)
  /-- DIV (R233). -/
  | div (a : Agent) (cc : BitVec 4) (arg : BitVec 20)
  /-- MODR (R233). -/
  | modr (a : Agent) (cc : BitVec 4) (arg : BitVec 20)
  /-- MUL64 (R233). -/
  | mul64 (a : Agent) (cc : BitVec 4) (arg : BitVec 20)
  /-- SIDE_UNIT_COMPLETE (R250). -/
  | sideUnitComplete
  /-- ADR (R222). -/
  | adr (a : Agent) (cc : BitVec 4) (arg : BitVec 20)
  /-- SVC (R260). -/
  | svc (a : Agent) (cc : BitVec 4) (arg : BitVec 20)
  /-- MRS (R238). -/
  | mrs (a : Agent) (cc : BitVec 4) (arg : BitVec 20)
  /-- MSR (R238). -/
  | msr (a : Agent) (cc : BitVec 4) (arg : BitVec 20)
  /-- NOP (R234). -/
  | nop (a : Agent) (f : Form)
  /-- BARRIER (R235). -/
  | barrier (a : Agent) (f : Form)
  /-- IFLUSH (R248). -/
  | iflush (a : Agent) (f : Form)
  /-- WAIT (R237). -/
  | wait (a : Agent) (f : Form)
  /-- ERET (R261). -/
  | eret (a : Agent) (f : Form)
  /-- BRK (R528). -/
  | brk (a : Agent) (f : Form)
  /-- IN (R299). -/
  | portIn (a : Agent) (cc : BitVec 4) (arg : BitVec 20)
  /-- OUT (R301). -/
  | portOut (a : Agent) (cc : BitVec 4) (arg : BitVec 20)
  /-- PCFG_MODE (R294). -/
  | pcfgMode (a : Agent) (cc : BitVec 4) (arg : BitVec 20)
  /-- PCFG_CONDITION (R300). -/
  | pcfgCondition (a : Agent) (cc : BitVec 4) (arg : BitVec 20)
  /-- PCFG_COMPARE (R300). -/
  | pcfgCompare (a : Agent) (cc : BitVec 4) (arg : BitVec 20)
  /-- PCFG_OUTPUT_TIME (R302). -/
  | pcfgOutputTime (a : Agent) (cc : BitVec 4) (arg : BitVec 20)
  /-- PCFG_CLOCK (R294). -/
  | pcfgClock (a : Agent) (cc : BitVec 4) (arg : BitVec 20)
  /-- PCFG_WIDTH (R294). -/
  | pcfgWidth (a : Agent) (cc : BitVec 4) (arg : BitVec 20)
  /-- PCFG_CB_SOURCE (R295). -/
  | pcfgCbSource (a : Agent) (cc : BitVec 4) (arg : BitVec 20)
  /-- PCFG_CB_GATE (R295). -/
  | pcfgCbGate (a : Agent) (cc : BitVec 4) (arg : BitVec 20)
  /-- PCFG_CB_HIGH (R295). -/
  | pcfgCbHigh (a : Agent) (cc : BitVec 4) (arg : BitVec 20)
  /-- PCFG_CB_LOW (R295). -/
  | pcfgCbLow (a : Agent) (cc : BitVec 4) (arg : BitVec 20)
  /-- PTS (R305). -/
  | pts (a : Agent) (cc : BitVec 4) (arg : BitVec 20)
  /-- CIN_DATA (R282). -/
  | cinData (a : Agent) (cc : BitVec 4) (arg : BitVec 20)
  /-- CIN_CONTROL (R282). -/
  | cinControl (a : Agent) (cc : BitVec 4) (arg : BitVec 20)
  /-- COUT_DATA (R278). -/
  | coutData (a : Agent) (cc : BitVec 4) (arg : BitVec 20)
  /-- COUT_CONTROL (R278). -/
  | coutControl (a : Agent) (cc : BitVec 4) (arg : BitVec 20)
  /-- COUT_END (R279). -/
  | coutEnd (a : Agent) (cc : BitVec 4) (arg : BitVec 20)
  /-- FORK (R273). -/
  | fork (a : Agent) (cc : BitVec 4) (arg : BitVec 20)
  /-- JOIN (R274). -/
  | join (a : Agent) (cc : BitVec 4) (arg : BitVec 20)
  /-- LOCK (R284). -/
  | lock (a : Agent) (cc : BitVec 4) (arg : BitVec 20)
  /-- UNLOCK (R284). -/
  | unlock (a : Agent) (cc : BitVec 4) (arg : BitVec 20)
  /-- TEXIT (R275). -/
  | texit (a : Agent) (cc : BitVec 4) (arg : BitVec 20)
  /-- TID (R239). -/
  | tid (a : Agent) (cc : BitVec 4) (arg : BitVec 20)
  /-- GETCH (R277). -/
  | getch (a : Agent) (cc : BitVec 4) (arg : BitVec 20)
  /-- FREECH (R277). -/
  | freech (a : Agent) (cc : BitVec 4) (arg : BitVec 20)
  /-- ROUTE (R279). -/
  | route (a : Agent) (cc : BitVec 4) (arg : BitVec 20)
  /-- EWAIT (R285). -/
  | ewait (a : Agent) (cc : BitVec 4) (arg : BitVec 20)
  /-- EARM (R285). -/
  | earm (a : Agent) (cc : BitVec 4) (arg : BitVec 20)
  /-- EDIS (R285). -/
  | edis (a : Agent) (cc : BitVec 4) (arg : BitVec 20)
  /-- ECLR (R285). -/
  | eclr (a : Agent) (cc : BitVec 4) (arg : BitVec 20)
  /-- EXCEPTION_ENTRY (R254). -/
  | exceptionEntry
  /-- STORE_BUFFER_ISSUE (R244). -/
  | storeBufferIssue (seen : List Nat)
  /-- LOAD_DATA_RETURN (R243). -/
  | loadDataReturn (seen : List Nat)
  /-- SLOT_ISSUE (R269). -/
  | slotIssue
  /-- SLOT_TABLE_SWITCH (R268). -/
  | slotTableSwitch
  /-- THREAD_START (R276). -/
  | threadStart (t : Fin 64)
  /-- THREAD_FREE (R276). -/
  | threadFree (t : Fin 64)
  /-- TOKEN_DELIVER (R281). -/
  | tokenDeliver (d : Fin 272)
  /-- KEND_RX_READ (R283). -/
  | kendRxRead (k : Fin 16)
  /-- KEND_TX_WRITE (R283). -/
  | kendTxWrite (k : Fin 16) (token : BitVec 10)
  /-- KEND_TX_SEND (R283). -/
  | kendTxSend (k : Fin 16)
  /-- CHANNEL_ABANDON (R290). -/
  | channelAbandon (e : Fin 128)
  /-- STALL_DETECT (R287). -/
  | stallDetect
  /-- PORT_CONDITION_MET (R300). -/
  | portConditionMet (n : Fin 96) (timer : BitVec 16) (level : Bool)
  /-- PORT_WORD_IN (R299). -/
  | portWordIn (n : Fin 96) (timer : BitVec 16) (bits : List Bool)
  /-- PORT_WORD_BOUNDARY (R301). -/
  | portWordBoundary (n : Fin 96) (timer : BitVec 16)
  /-- PORT_TIMED_OUTPUT (R302). -/
  | portTimedOutput (n : Fin 96)
  /-- FILTER_PULSE_LOST (R298). -/
  | filterPulseLost (n : Fin 96)
  /-- PORT_CONTENTION (R304). -/
  | portContention (n : Fin 96) (level : Bool)
  /-- ACTUATOR_TRIP (R309). -/
  | actuatorTrip (n : Fin 96)
  /-- KPORT_LOCK_SET (R310). -/
  | kportLockSet
  /-- PIN_FUNCTION_SWITCH (R317). -/
  | pinFunctionSwitch (n : Fin 96)
  /-- EXTL_LEVEL_CHANGE (R320). -/
  | extlLevelChange (n : Fin 16) (level lost : Bool)
  /-- GUARD_TRIP (R321). -/
  | guardTrip (g : Fin 4)
  /-- GUARD_CLEAR (R322). -/
  | guardClear (g : Fin 4)
  /-- GUARD_LOCK (R323). -/
  | guardLock
  /-- SAFE_RELEASE_WRITE (R324). -/
  | safeReleaseWrite (release : Bool)
  /-- BANK_SUPPLY_CHANGE (R318). -/
  | bankSupplyChange (b : Fin 6) (v : Fin 4)
  /-- TIMEBASE_STEP (R328). -/
  | timebaseStep (w : Word)
  /-- TIMEBASE_PAIR_READ (R329). -/
  | timebasePairRead (k : Fin 4)
  /-- TIMER_MATCH (R331). -/
  | timerMatch (k : Fin 16)
  /-- TIMER_WRAP (R331). -/
  | timerWrap (k : Fin 16)
  /-- TIMER_CMP_WRITE (R331), `after` pin-control cycles after the command before it. -/
  | timerCmpWrite (k : Fin 16) (w : Word) (after : Nat)
  /-- TIMER_CAPTURE (R334). -/
  | timerCapture (k : Fin 16) (edge : Edge)
  /-- EDGE_OVERRUN (R333). -/
  | edgeOverrun (k : Fin 16)
  /-- TIMER_CAP_READ (R334). -/
  | timerCapRead (k : Fin 16)
  /-- TIMER_CNT_READ (R335), `after` pin-control cycles after the command before it. -/
  | timerCntRead (k : Fin 16) (after : Nat)
  /-- ADC_START (R337). -/
  | adcStart
  /-- ADC_CONVERSION_DONE (R338). -/
  | adcConversionDone (code : BitVec 12)
  /-- INTERRUPT_SOURCE_FIRE (R341). -/
  | interruptSourceFire (n : Fin 256)
  /-- INTC_EOI (R341). -/
  | intcEoi (n : Fin 256)
  /-- HOLDOFF_EXPIRE (R343). -/
  | holdoffExpire (g : Fin 16)
  /-- STORM_WINDOW_EXPIRE (R344). -/
  | stormWindowExpire (n : Fin 256)
  /-- STORM_CLEAR (R344). -/
  | stormClear (n : Fin 256)
  /-- MBX_LOCK_READ (R348). -/
  | mbxLockRead (host : Bool) (n : Fin 8)
  /-- MBX_LOCK_WRITE (R348). -/
  | mbxLockWrite (host : Bool) (n : Fin 8) (w : Word)
  /-- MBX_DATA_WRITE (R349). -/
  | mbxDataWrite (host : Bool) (n : Fin 8) (k : Fin 16) (w : Word)
  /-- MBX_GO (R349). -/
  | mbxGo (host : Bool) (n : Fin 8) (len : Fin 32)
  /-- MBX_ACK (R349). -/
  | mbxAck (host : Bool) (n : Fin 8)
  /-- AGENT_LOCK (R350). -/
  | agentLock (b : Fin 2)
  /-- AGENT_UNLOCK (R350). -/
  | agentUnlock (b : Fin 2)
  /-- AGENT_WRITE (R350). -/
  | agentWrite (b : Fin 2)
  /-- AGENT_READ (R350). -/
  | agentRead (b : Fin 2)
  /-- AGENT_GO (R350). -/
  | agentGo (b : Fin 2)
  /-- AGENT_ACK (R350). -/
  | agentAck (b : Fin 2)
  /-- AGENT_RING (R350). -/
  | agentRing (b : Fin 2)
  /-- DOORBELL_SET (R351). -/
  | doorbellSet (host : Bool) (bank : Fin 3) (w : Word)
  /-- DOORBELL_CLEAR (R351). -/
  | doorbellClear (host : Bool) (bank : Fin 3) (w : Word)
  /-- DOORBELL_MASK_WRITE (R352). -/
  | doorbellMaskWrite (host : Bool) (w : Word)
  /-- MSIX_UNMASK (R352). -/
  | msixUnmask (v : Fin 32)
  /-- LEDGER_SQ_TAIL_WRITE (R353). -/
  | ledgerSqTailWrite (index : BitVec 16)
  /-- LEDGER_NOP (R354). -/
  | ledgerNop (k : Nat)
  /-- VERIFY (R361). -/
  | ledgerVerify (k : Nat)
  /-- SEAL (R364). -/
  | ledgerSeal (k : Nat)
  /-- ADMIT (R366). -/
  | ledgerAdmit (k : Nat)
  /-- BATCH (R367). -/
  | ledgerBatch (k : Nat)
  /-- SEEN_CHECK (R380). -/
  | seenCheck (k : Nat)
  /-- SEEN_INSERT (R380). -/
  | seenInsert (k : Nat)
  /-- HASH (R370). -/
  | ledgerHash (k : Nat)
  /-- FRAME_SEAL (R371). -/
  | frameSeal (k : Nat)
  /-- FRAME_OPEN (R372). -/
  | frameOpen (k : Nat)
  /-- SESSION_DERIVE (R359). -/
  | sessionDerive (k : Nat)
  /-- SESSION_CLEAR (R360). -/
  | sessionClear (k : Nat)
  /-- KEY_PUT (R359). -/
  | keyPut (k : Nat)
  /-- XLATE (R373). -/
  | xlate (k : Nat)
  /-- LEDGER_COMPLETION (R356). -/
  | ledgerCompletion (k : Nat)
  /-- XL_END (R374). -/
  | xlEnd (e : Fin 4)
  /-- XL_FAIL (R374). -/
  | xlFail (e : Fin 4)
  /-- XL_MTI (R374). -/
  | xlMti (e : Fin 4)
  /-- XL_BMAP (R374). -/
  | xlBmap (e : Fin 4)
  /-- XL_FLD (R375). -/
  | xlFld (e : Fin 4)
  /-- XL_JNB (R374). -/
  | xlJnb (e : Fin 4)
  /-- XL_JMP (R374). -/
  | xlJmp (e : Fin 4)
  /-- XL_CMPI (R374). -/
  | xlCmpi (e : Fin 4)
  /-- XL_MOVI (R374). -/
  | xlMovi (e : Fin 4)
  /-- XL_NUM (R374). -/
  | xlNum (e : Fin 4)
  /-- XL_LUT (R374). -/
  | xlLut (e : Fin 4)
  /-- XL_PUT (R374). -/
  | xlPut (e : Fin 4)
  /-- XL_CPY (R374). -/
  | xlCpy (e : Fin 4)
  /-- XL_PHASH (R374). -/
  | xlPhash (e : Fin 4)
  /-- FLOOR_WRITE (R379). -/
  | floorWrite (w : Word)
  /-- CORD_TAIL_WRITE (R369). -/
  | cordTailWrite (w : Word)
  /-- CORD_SEQ_READ (R356). -/
  | cordSeqRead
  /-- SEEN_SALT_WRITE (R377). -/
  | seenSaltWrite (alt : Bool) (j : Fin 4) (w : Word)
  /-- KEY_LOAD (R457). -/
  | keyLoad
  /-- KEY_LOAD_DONE (R457). -/
  | keyLoadDone
  /-- MONEY_EVENT (R18). -/
  | moneyEvent (k : Fin 16) (kind : MoneyKind) (amount : Int) (currency : BitVec 16) (time : BitVec 64)
  /-- TRANSACTION_TIMEOUT (R398). -/
  | transactionTimeout (txid : BitVec 64)
  /-- BATCH_ACK_VERIFY (R402). -/
  | batchAckVerify (peer : Fin 1024) (id : Word)
  /-- BATCH_CLOSE (R401). -/
  | batchClose
  /-- FRAME_RECEIVE (R406). -/
  | frameReceive (p : Fin 2) (f : List Byte) (fcsOk : Bool) (sfd : BitVec 64)
  /-- HELLO_RECEIVED (R408). -/
  | helloReceived (p : Fin 2)
  /-- CONTROL_RECEIVED (R412), from node `q`. -/
  | controlReceived (p : Fin 2) (q : Fin 1024)
  /-- DATA_RECEIVED (R410), from node `q`. -/
  | dataReceived (p : Fin 2) (q : Fin 1024)
  /-- RECORD (R400). -/
  | recordReceived
  /-- BATCH_HEAD (R420). -/
  | batchHead
  /-- BATCH_PART (R420). -/
  | batchPart
  /-- POINT (R405). -/
  | pointReceived
  /-- REPLICA (R416). -/
  | replicaReceived
  /-- TAKEOVER (R418). -/
  | takeoverReceived
  /-- HELLO_TIMER (R408). -/
  | helloTimer (n : Fin 1024)
  /-- ACK_TIMER (R412). -/
  | ackTimer (n : Fin 1024)
  /-- RETRANSMIT_TIMEOUT (R413). -/
  | retransmitTimeout (n : Fin 1024) (seq : Word)
  /-- PATH_TIMEOUT (R414). -/
  | pathTimeout (n : Fin 1024) (p : Fin 2)
  /-- HEARTBEAT_TIMER (R414). -/
  | heartbeatTimer (n : Fin 1024) (p : Fin 2)
  /-- PORT_LINK_CHANGE (R414). -/
  | portLinkChange (p : Fin 2) (link : LinkReport)
  /-- FALLBACK_TIMER (R406). -/
  | fallbackTimer (p : Fin 2)
  /-- KEEPER_SILENCE (R418). -/
  | keeperSilence
  /-- BATCH_ID_TIMEOUT (R420). -/
  | batchIdTimeout (n : Fin 1024) (id : Word)
  /-- TXQ_TAIL_WRITE (R423). -/
  | txqTailWrite (p : Fin 2) (index : BitVec 16)
  /-- TX_DESCRIPTOR_DONE (R423). -/
  | txDescriptorDone (p : Fin 2) (sfd : BitVec 64)
  /-- TXTS_READ (R329). -/
  | txtsRead (p : Fin 2)
  /-- PTP_MESSAGE (R422). -/
  | ptpMessage
  /-- BAR0_ACCESS (R428). -/
  | bar0Access (off : Word) (size : Nat) (wr : Bool) (w : Word)
  /-- BAR2_ACCESS (R429). -/
  | bar2Access (off : Nat) (wr : Option (List Byte)) (len : Nat) (seen : List Nat)
  /-- BAR4_ACCESS (R430). -/
  | bar4Access (off : Nat) (wr : Option (List Byte)) (len : Nat) (seen : List Nat)
  /-- HOST_LINK_DOWN (R433). -/
  | hostLinkDown
  /-- HOST_LINK_UP (R352). -/
  | hostLinkUp (gen width : Nat)
  /-- FLR (R433). -/
  | flr
  /-- SYS_VERSION (R446). -/
  | sysVersion (mbx : Fin 4)
  /-- SYS_PROFILE_SELECT (R468). -/
  | sysProfileSelect (mbx : Fin 4)
  /-- SYS_WINDOW_OPEN (R445). -/
  | sysWindowOpen (mbx : Fin 4)
  /-- SYS_WINDOW_CLOSE (R446). -/
  | sysWindowClose (mbx : Fin 4)
  /-- SYS_BAR4 (R446). -/
  | sysBar4 (mbx : Fin 4)
  /-- SYS_TIME (R446). -/
  | sysTime (mbx : Fin 4)
  /-- SYS_CERT (R458). -/
  | sysCert (mbx : Fin 4)
  /-- SYS_IMAGE_STAGE (R446). -/
  | sysImageStage (mbx : Fin 4)
  /-- SYS_ECHO (R446). -/
  | sysEcho (mbx : Fin 4)
  /-- POWER_STATE (R490). -/
  | powerState (mbx : Fin 4) (late : Bool)
  /-- POWER_STATUS (R446). -/
  | powerStatus (mbx : Fin 4)
  /-- POWER_WAKE (R494). -/
  | powerWake (mbx : Fin 4)
  /-- POWER_LIMIT (R446). -/
  | powerLimit (mbx : Fin 4)
  /-- SCENE_COMMIT (R98). -/
  | sceneCommit (mbx : Fin 4)
  /-- SCENE_PALETTE (R94). -/
  | scenePalette (mbx : Fin 4)
  /-- SCENE_BLIT (R181). -/
  | sceneBlit (mbx : Fin 4) (late : Bool)
  /-- SCENE_ASSIGN (R139). -/
  | sceneAssign (mbx : Fin 4)
  /-- SCENE_BEAM (R114). -/
  | sceneBeam (mbx : Fin 4)
  /-- SCENE_STATUS (R446). -/
  | sceneStatus (mbx : Fin 4)
  /-- HEAD_CONFIG (R554). -/
  | headConfig (mbx : Fin 4) (late : Bool)
  /-- HEAD_ENABLE (R446). -/
  | headEnable (mbx : Fin 4) (late : Bool)
  /-- HEAD_MARK (R97). -/
  | headMark (mbx : Fin 4)
  /-- HEAD_STATUS (R446). -/
  | headStatus (mbx : Fin 4)
  /-- HEAD_PACKET (R143). -/
  | headPacket (mbx : Fin 4) (late : Bool)
  /-- AUDIO_VOICE (R200). -/
  | audioVoice (mbx : Fin 4)
  /-- AUDIO_BUS (R202). -/
  | audioBus (mbx : Fin 4)
  /-- AUDIO_ROUTE (R203). -/
  | audioRoute (mbx : Fin 4)
  /-- AUDIO_FX_LOAD (R206). -/
  | audioFxLoad (mbx : Fin 4)
  /-- AUDIO_PORT (R209). -/
  | audioPort (mbx : Fin 4)
  /-- AUDIO_STATUS (R446). -/
  | audioStatus (mbx : Fin 4)
  /-- KINDLE_LOAD (R446). -/
  | kindleLoad (mbx : Fin 4)
  /-- KINDLE_SLOTS (R268). -/
  | kindleSlots (mbx : Fin 4) (late : Bool)
  /-- KINDLE_START (R276). -/
  | kindleStart (mbx : Fin 4)
  /-- KINDLE_STOP (R276). -/
  | kindleStop (mbx : Fin 4) (late : Bool)
  /-- KINDLE_PORTS (R292). -/
  | kindlePorts (mbx : Fin 4)
  /-- KINDLE_POLICY (R505). -/
  | kindlePolicy (mbx : Fin 4)
  /-- KINDLE_STATUS (R446). -/
  | kindleStatus (mbx : Fin 4)
  /-- LEDGER_STATUS (R446). -/
  | ledgerStatus (mbx : Fin 4)
  /-- LEDGER_PERSISTED (R395). -/
  | ledgerPersisted (mbx : Fin 4)
  /-- LEDGER_RECOVER (R555). -/
  | ledgerRecover (mbx : Fin 4)
  /-- LEDGER_EXPORT (R396). -/
  | ledgerExport (mbx : Fin 4)
  /-- LEDGER_SUBMIT (R403). -/
  | ledgerSubmit (mbx : Fin 4)
  /-- LEDGER_PROGRAM (R446). -/
  | ledgerProgram (mbx : Fin 4)
  /-- FLOOR_CONFIG (R446). -/
  | floorConfig (mbx : Fin 4)
  /-- FLOOR_TABLE (R415). -/
  | floorTable (mbx : Fin 4)
  /-- FLOOR_PEER_ADD (R421). -/
  | floorPeerAdd (mbx : Fin 4)
  /-- FLOOR_PEER_REMOVE (R421). -/
  | floorPeerRemove (mbx : Fin 4)
  /-- FLOOR_RESYNC (R416). -/
  | floorResync (mbx : Fin 4) (late : Bool)
  /-- FLOOR_PTP (R422). -/
  | floorPtp (mbx : Fin 4)
  /-- FLOOR_STATUS (R446). -/
  | floorStatus (mbx : Fin 4)
  /-- HEALTH_READ (R511). -/
  | healthRead (mbx : Fin 4)
  /-- HEALTH_CLEAR (R511). -/
  | healthClear (mbx : Fin 4)
  /-- HEALTH_ALERT (R512). -/
  | healthAlert (mbx : Fin 4)
  /-- HEALTH_HEARTBEAT (R513). -/
  | healthHeartbeat (mbx : Fin 4)
  /-- DEBUG_UNLOCK (R523). -/
  | debugUnlock (mbx : Fin 4)
  /-- DEBUG_TRACE (R531). -/
  | debugTrace (mbx : Fin 4)
  /-- DEBUG_PEEK (R447). -/
  | debugPeek (mbx : Fin 4)
  /-- HOST_PUSH_BOOT (R463). -/
  | hostPushBoot (records : List (Nat × Profile))
  /-- FUSE_LOAD (R450). -/
  | fuseLoad (factory : List Word)
  /-- FUSE_LOAD_DONE (R451). -/
  | fuseLoadDone
  /-- FUSE_PROGRAM (R454). -/
  | fuseProgram (w : Word)
  /-- BOOT_START (R462). -/
  | bootStart (flash : Option Flash)
  /-- NOON_ENTRY (R490). -/
  | noonEntry
  /-- OSC_STABLE (R471). -/
  | oscStable (b : Fin 2)
  /-- OSC_LOST (R472). -/
  | oscLost (b : Fin 2)
  /-- PLL_LOCKED (R474). -/
  | pllLocked (k : Fin 9)
  /-- PLL_UNLOCK (R482). -/
  | pllUnlock (k : Fin 9)
  /-- ROOT_SWITCH (R475). -/
  | rootSwitch (w lost : Word)
  /-- PLL_CTRL_WRITE (R476). -/
  | pllCtrlWrite (k : Fin 9) (frac : Bool) (w : Word)
  /-- CLK_SRC_WRITE (R476). -/
  | clkSrcWrite (w : Word)
  /-- FRC_TRIM (R480). -/
  | frcTrim (w : Word)
  /-- FRC_TRIM_STEP (R480). -/
  | frcTrimStep
  /-- FREQ_MEASURE (R481). -/
  | freqMeasure (w : Word)
  /-- FREQ_MEASURE_DONE (R481). -/
  | freqMeasureDone (edges : Word)
  /-- POWER_ON (R483). -/
  | powerOn
  /-- RESET_N_ASSERT (R484). -/
  | resetNAssert (ns : Nat)
  /-- RESET_RELEASE (R487). -/
  | resetRelease (sel : Fin 4)
  /-- UP_SEQUENCE_STEP (R491). -/
  | upSequenceStep
  /-- PG_RISE (R491). -/
  | pgRise (k : Fin 6)
  /-- PG_TIMEOUT (R491). -/
  | pgTimeout
  /-- POWER_FAULT (R493). -/
  | powerFault (k : Fin 6)
  /-- DOWN_SEQUENCE_STEP (R492). -/
  | downSequenceStep
  /-- MIDNIGHT_REQUEST (R492). -/
  | midnightRequest
  /-- WAKE (R494). -/
  | wake (pins : Nat) (rtc : Bool)
  /-- AVS_STEP (R495). -/
  | avsStep (margin : Int) (ack : Bool) (vout status : Nat)
  /-- THERMAL_SAMPLE (R496). -/
  | thermalSample (temps : List Int)
  /-- THROTTLE_RELEASE (R496). -/
  | throttleRelease
  /-- COOL_DOWN_EXPIRE (R497). -/
  | coolDownExpire
  /-- THERMAL_TRIP_CLEAR (R497). -/
  | thermalTripClear
  /-- THREAD_FAULT_POLICY (R505). -/
  | threadFaultPolicy (t : Fin 64)
  /-- STALL_RECOVERY (R506). -/
  | stallRecovery
  /-- HEAD_RESTART (R507). -/
  | headRestart (n : Fin 4)
  /-- XTAL_LOSS_POLICY (R508). -/
  | xtalLossPolicy (persisted : Bool)
  /-- HEALTH_POLL (R511). -/
  | healthPoll (noted : List Nat)
  /-- HEARTBEAT_POST (R513). -/
  | heartbeatPost
  /-- WDOG_ENABLE (R514). -/
  | wdogEnable (w : Word)
  /-- WDOG_KICK (R515). -/
  | wdogKick (w : Word)
  /-- WDOG_EXPIRE (R515). -/
  | wdogExpire
  /-- EXTEST (R521). -/
  | extest (cells : List (Nat × Bool))
  /-- SAMPLE_PRELOAD (R519). -/
  | samplePreload (levels : Nat)
  /-- IDCODE (R519). -/
  | idcode
  /-- EXTEST_PULSE (R521). -/
  | extestPulse (cells : List (Nat × Bool))
  /-- EXTEST_TRAIN (R521). -/
  | extestTrain (cells : List (Nat × Bool))
  /-- FUSESTAT (R519). -/
  | fusestat
  /-- DBGACC (R522). -/
  | dbgacc (a : Word) (wr : Bool) (data : Word) (seen : List Nat)
  /-- BYPASS (R519). -/
  | bypass
  /-- DEBUG_AUTH (R523). -/
  | debugAuth
  /-- DEBUG_AUTH_DONE (R523). -/
  | debugAuthDone
  /-- DEBUG_LOCK (R524). -/
  | debugLock
  /-- KILN_HALT (R525). -/
  | kilnHalt
  /-- KILN_RESUME (R527). -/
  | kilnResume
  /-- KILN_STEP (R526). -/
  | kilnStep
  /-- DBG_MEM_ACCESS (R526). -/
  | dbgMemAccess (wr : Option Word) (seen : List Nat)
  /-- THREAD_HALT (R529). -/
  | threadHalt (t : Fin 64)
  /-- THREAD_RESUME (R529). -/
  | threadResume (t : Fin 64)
  /-- BENCH_TEST (R532). -/
  | benchTest (w : Word)
  /-- BENCH_TEST_DONE (R532). -/
  | benchTestDone (j : Fin 4) (result : Fin 16)
  /-- ALWAYS_ON_SUPPLY_LOSS (R483). -/
  | alwaysOnSupplyLoss
  /-- GUARD_INPUT_INACTIVE (R322). -/
  | guardInputInactive (g : Fin 4)
  /-- POWER_MANAGEMENT_STATE_CHANGE (R352). -/
  | powerManagementStateChange (d0 : Bool)
  /-- SERIAL_PORT_FRAME (R211). -/
  | serialPortFrame (k : Fin 4) (rx : SlotWords)
  /-- POINT_SEND (R419). -/
  | pointSend
deriving DecidableEq, Repr

end Sys2Proof
end

