-- ==== Sys2Proof/Decode.lean ====
section
/-! DEFINITION. The commands that words of the table spell. No row of spec/opcode_table.json gives bits, so no word spells a command; the words of the
instruction set, of the XLATE and effect programs, of beam and block command lists and of the ledger's queue are read by the operations that fetch them. -/

namespace Sys2Proof

/-- The command that a word of `nbits` bits spells: none. -/
def decodeTableWord (_nbits _w : Nat) : Option Instr := none

end Sys2Proof
end

