-- ==== Sys2Proof/Config.lean ====
section
/-! DEFINITION. What an implementation fixes, and the free values: constants without a body, so that nothing can be proved of
their values. Each is named in notes/assumptions. -/

namespace Sys2Proof.Config

/-- The free values (R6 and every value the manual leaves open): the `n`-th one drawn in a run. -/
opaque freeWord : Nat → BitVec 32

/-- The contents of the boot ROM, byte by byte: the manual gives its size (Table 2-8), never its bytes. -/
opaque bootRom : Nat → BitVec 8

/-- How far the hardware's YCbCr conversion lies from exact rounding, plus 1: the manual bounds it by 1 in either direction and
leaves it open (R132). Its arguments are the matrix, the range, the three codes and the channel. -/
opaque yuvError : Nat → Bool → Nat → Nat → Nat → Nat → Fin 3

/-- The sample a video plane read gives when it gets an error or poison response: the manual states none (R99 names no video read). -/
opaque badSample : Nat → Nat

/-- Which of crossbar ports 6 and 7 carries an access of the scene island at an address: the manual gives it both (Table 2-5) and does
not say which. -/
opaque scenePort : Nat → Fin 2

/-- The voice interpolator's output from its eight taps at a phase other than 0: the manual gives no coefficients (R199). -/
opaque interp : Nat → List Int → Int

/-- Whether a product of a sample and a gain that is not exact is rounded up: the manual names no rounding (R202, R203, R205). -/
opaque audioRound : Int → Int → Fin 2

/-- Whether a ramp over 32 samples reaches its end value in its last sample (1) or just after it (0) (R195, R203). -/
opaque rampPhase : Fin 2

/-- The word of an effect product that does not fit 32 bits: the manual states none for MULK and MUL (R207). -/
opaque fxWide : Int → BitVec 32

/-- A sample that a slave port's rate converter gives before its group delay, from its nominal rate code and measured error in ppm, the phase it stands at, the
samples it was given, those of the block before first, and its index: the manual states no filter (R210). -/
opaque rateConvert : Nat → Int → Nat → List Int → Nat → Int

/-- The phase of a slave port's rate converter after a block, from its nominal rate code, measured error and the phase before (R210). -/
opaque ratePhase : Nat → Int → Nat → Nat

/-- The integrators of a PDM output's sigma-delta modulator after a bit, from those before, the samples that have reached its interpolator, the latest first, and
the bit's place in the sample; and the bit that they give: the manual states no coefficients of the interpolator and the modulator (R212). -/
opaque pdmStep : List Int → List Int → Fin 64 → List Int
opaque pdmBit : List Int → Bool

/-- The level at which the bit stream of an audio or trace function stands on a pin, by the pin and the timebase: the model follows such streams by whole words
(R313). -/
opaque streamLevel : Nat → Nat → Bool

/-- Whether a 64 KB page of the Kiln map lies in Falornyr's own partition, which SYS_WINDOW_OPEN opens for no writes: the manual does not say where that
partition lies (R445). -/
opaque fwOwns : Nat → Bool

/-- The build number of a Falornyr release, by its version: the manual gives none (Table 21-6). -/
opaque buildNumber : Nat → BitVec 32

/-- The issuer's public key of a certificate, by its key number: the manual does not say where Falornyr holds it (R458, R459). -/
opaque issuerKey : Nat → List (BitVec 8)

/-- The host's persisted copy of a record, by its TXID: the Cord entry's 192 bytes and then the payload. The manual does not say how it reaches the device
(R396, R399). -/
opaque persistedCopy : Nat → List (BitVec 8)

/-- The durable journal that host software keeps, by the last epoch in it and the last journal sequence of that: each entry's 192 bytes and then its payload, in
journal order. The manual does not say how a Keeper that rebuilds its Seen table gets it (R404). -/
opaque durable : Nat → Nat → List (List (BitVec 8))

/-- The rate that Falornyr's IEEE 1588 servo sets, and whether it is locked, by the offset that an exchange measures and a fresh word: the manual gives the bounds of
the rate alone (R422). -/
opaque ptpRate : Int → BitVec 32 → Nat
opaque ptpLocked : Int → BitVec 32 → Bool

/-- The station address at which a peer node takes frames on a path: no register and no command gives it to Falornyr (R407). -/
opaque peerMac : Nat → Nat → BitVec 48

end Sys2Proof.Config
end

