-- ==== Sys2Proof/Machine/RegMap.lean ====
section
/-! DEFINITION. The memory-mapped registers of the device (R7, R43, R44): where each lies (Table 2-9 and the register maps of
the chapters), and each field's bits, access code, reset value and legal encodings (R10; an empty list admits every value). -/

namespace Sys2Proof.Machine

/-- The access codes of Table 0-2 (R7). -/
inductive Acc where
  | rw | ro | wo | w1c | w1s | rc
deriving DecidableEq, Repr

/-- The value a register word holds in a field. -/
def getF (w : BitVec 32) (f : Fld) : Nat := w.toNat / 2 ^ f.lo % 2 ^ (f.hi + 1 - f.lo)

/-- A register word with one field set, the value cut to the field's width; the other bits stay. -/
def setF (w : BitVec 32) (f : Fld) (v : Nat) : BitVec 32 :=
  BitVec.ofNat 32 (w.toNat - getF w f * 2 ^ f.lo + v % 2 ^ (f.hi + 1 - f.lo) * 2 ^ f.lo)

/-- Whether bit `b` of a register word is 1. -/
def bitOf (w : BitVec 32) (f : Fld) : Bool := getF w f == 1

/-- One field of a register: its bits, access code, reset value and the value ranges a write may set (R10). -/
structure FRow where
  fld : Fld
  acc : Acc
  rst : Nat
  ok  : List (Nat × Nat)
deriving DecidableEq, Repr

/-- One line of a register map: `n0 × n1` registers from `base`, `s0` and `s1` apart. -/
structure RegRow where
  name : String
  base : Nat
  n0 : Nat
  s0 : Nat
  n1 : Nat
  s1 : Nat
  fields : List FRow
deriving DecidableEq, Repr

/-! Registers of `02_islands_hierarchies_and_address_map.md`. -/

/-- FAB_RESET_MODE_0: reset modes of blocks 0 to 31. -/
def FAB_RESET_MODE_0 : Nat := 0x400f0010
def FAB_RESET_MODE_0_mode : Fld := ⟨31, 0⟩

/-- FAB_RESET_MODE_1: reset modes of blocks 32 to 39. -/
def FAB_RESET_MODE_1 : Nat := 0x400f0014
def FAB_RESET_MODE_1_mode : Fld := ⟨7, 0⟩

/-- FAB_ERR_ADDR: address of the most recent access that received an error response. -/
def FAB_ERR_ADDR : Nat := 0x400f0020
def FAB_ERR_ADDR_addr : Fld := ⟨31, 0⟩

/-- FAB_ERR_INFO: source and cause of that access. -/
def FAB_ERR_INFO : Nat := 0x400f0024
def FAB_ERR_INFO_valid : Fld := ⟨31, 31⟩
def FAB_ERR_INFO_port : Fld := ⟨23, 20⟩
def FAB_ERR_INFO_block : Fld := ⟨13, 8⟩
def FAB_ERR_INFO_cause : Fld := ⟨3, 0⟩

/-- FAB_ERR_CNT: error-response counters, each saturating. -/
def FAB_ERR_CNT : Nat := 0x400f0028
def FAB_ERR_CNT_total : Fld := ⟨31, 16⟩
def FAB_ERR_CNT_missed : Fld := ⟨15, 0⟩

/-- FAB_BLK_CTRL_n: enable and reset request of block n. -/
def FAB_BLK_CTRL (n : Nat) : Nat := 0x400f0100 + 0x4 * n
def FAB_BLK_CTRL_reset : Fld := ⟨1, 1⟩
def FAB_BLK_CTRL_enable : Fld := ⟨0, 0⟩

/-- FAB_BLK_STAT_n: state of block n. -/
def FAB_BLK_STAT (n : Nat) : Nat := 0x400f0200 + 0x4 * n
def FAB_BLK_STAT_reset_refused : Fld := ⟨11, 11⟩
def FAB_BLK_STAT_drain_timeout : Fld := ⟨10, 10⟩
def FAB_BLK_STAT_pending_stop : Fld := ⟨9, 9⟩
def FAB_BLK_STAT_pending_start : Fld := ⟨8, 8⟩
def FAB_BLK_STAT_idle : Fld := ⟨2, 2⟩
def FAB_BLK_STAT_state : Fld := ⟨1, 0⟩

/-! Registers of `03_qdr_memory_and_csram.md`. -/

/-- MEM_CH_CFG_k: device settings of channel k. -/
def MEM_CH_CFG (k : Nat) : Nat := 0x400e0000 + 0x4 * k
def MEM_CH_CFG_density : Fld := ⟨7, 6⟩
def MEM_CH_CFG_dev_odt : Fld := ⟨5, 4⟩
def MEM_CH_CFG_ap_en : Fld := ⟨0, 0⟩

/-- MEM_INTLV: interleave. -/
def MEM_INTLV : Nat := 0x400e0020
def MEM_INTLV_enable : Fld := ⟨31, 31⟩
def MEM_INTLV_set : Fld := ⟨29, 24⟩
def MEM_INTLV_il_size : Fld := ⟨7, 0⟩

/-- MEM_MIRROR_i: mirror pair i. -/
def MEM_MIRROR (i : Nat) : Nat := 0x400e0030 + 0x4 * i
def MEM_MIRROR_valid : Fld := ⟨31, 31⟩
def MEM_MIRROR_primary : Fld := ⟨30, 28⟩
def MEM_MIRROR_mirror : Fld := ⟨26, 24⟩
def MEM_MIRROR_base : Fld := ⟨23, 16⟩
def MEM_MIRROR_size : Fld := ⟨7, 0⟩

/-- MEM_TRAIN_CTRL: training requests. -/
def MEM_TRAIN_CTRL : Nat := 0x400e0040
def MEM_TRAIN_CTRL_start : Fld := ⟨5, 0⟩

/-- MEM_TRAIN_STAT_k: training and tracking state of channel k. -/
def MEM_TRAIN_STAT (k : Nat) : Nat := 0x400e0050 + 0x4 * k
def MEM_TRAIN_STAT_trained : Fld := ⟨31, 31⟩
def MEM_TRAIN_STAT_fail : Fld := ⟨30, 28⟩
def MEM_TRAIN_STAT_eye_min : Fld := ⟨23, 16⟩
def MEM_TRAIN_STAT_inject_cnt : Fld := ⟨15, 0⟩

/-- MEM_SCRUB: patrol scrub. -/
def MEM_SCRUB : Nat := 0x400e0070
def MEM_SCRUB_enable : Fld := ⟨31, 31⟩
def MEM_SCRUB_interval : Fld := ⟨15, 0⟩

/-- MEM_ECC_CNT_k: ECC counters of channel k, each saturating. -/
def MEM_ECC_CNT (k : Nat) : Nat := 0x400e0080 + 0x4 * k
def MEM_ECC_CNT_corrected : Fld := ⟨31, 16⟩
def MEM_ECC_CNT_rescued : Fld := ⟨15, 8⟩
def MEM_ECC_CNT_poisoned : Fld := ⟨7, 0⟩

/-- MEM_ECC_ADDR: alias address of the most recent captured poisoned word. -/
def MEM_ECC_ADDR : Nat := 0x400e00a0
def MEM_ECC_ADDR_addr : Fld := ⟨31, 0⟩

/-- MEM_ECC_INFO: source and kind of that capture. -/
def MEM_ECC_INFO : Nat := 0x400e00a4
def MEM_ECC_INFO_valid : Fld := ⟨31, 31⟩
def MEM_ECC_INFO_port : Fld := ⟨23, 20⟩
def MEM_ECC_INFO_kind : Fld := ⟨3, 0⟩

/-- MEM_LTR_s: latency tolerance of source s. -/
def MEM_LTR (s : Nat) : Nat := 0x400e0100 + 0x4 * s
def MEM_LTR_tolerance : Fld := ⟨23, 0⟩

/-- MEM_DOZE_CFG: doze policy. -/
def MEM_DOZE_CFG : Nat := 0x400e0120
def MEM_DOZE_CFG_enable : Fld := ⟨31, 31⟩
def MEM_DOZE_CFG_idle : Fld := ⟨23, 16⟩
def MEM_DOZE_CFG_margin : Fld := ⟨15, 0⟩

/-- MEM_DOZE_STAT: doze state. -/
def MEM_DOZE_STAT : Nat := 0x400e0124
def MEM_DOZE_STAT_dozing : Fld := ⟨31, 31⟩
def MEM_DOZE_STAT_min_src : Fld := ⟨26, 24⟩
def MEM_DOZE_STAT_entries : Fld := ⟨15, 0⟩

/-- MEM_CSRAM_ECC: CSRAM ECC counters, saturating. -/
def MEM_CSRAM_ECC : Nat := 0x400e0140
def MEM_CSRAM_ECC_corrected : Fld := ⟨31, 16⟩
def MEM_CSRAM_ECC_poisoned : Fld := ⟨15, 8⟩
def MEM_CSRAM_ECC_bank : Fld := ⟨3, 0⟩

/-- MEM_PAR_CNT_k: address-parity reissues of channel k. -/
def MEM_PAR_CNT (k : Nat) : Nat := 0x400e0160 + 0x4 * k
def MEM_PAR_CNT_reissues : Fld := ⟨15, 0⟩

/-- MEM_EVT: memory events. -/
def MEM_EVT : Nat := 0x400e0180
def MEM_EVT_mirror : Fld := ⟨5, 5⟩
def MEM_EVT_csram : Fld := ⟨4, 4⟩
def MEM_EVT_drift : Fld := ⟨3, 3⟩
def MEM_EVT_parity : Fld := ⟨2, 2⟩
def MEM_EVT_train : Fld := ⟨1, 1⟩
def MEM_EVT_poison : Fld := ⟨0, 0⟩

/-! Registers of `04_tiles_sprites_and_palettes.md`. -/

/-- SCENE_n_UPDATE: frame-synchronous update. -/
def SCENE_UPDATE (n : Nat) : Nat := 0x40100000 + 0x1000 * n
def SCENE_UPDATE_pending : Fld := ⟨1, 1⟩
def SCENE_UPDATE_hold : Fld := ⟨0, 0⟩

/-- SCENE_n_SPR_CTRL: sprite plane control. -/
def SCENE_SPR_CTRL (n : Nat) : Nat := 0x40100010 + 0x1000 * n
def SCENE_SPR_CTRL_enable : Fld := ⟨31, 31⟩
def SCENE_SPR_CTRL_coll_full : Fld := ⟨30, 30⟩
def SCENE_SPR_CTRL_reload : Fld := ⟨29, 29⟩
def SCENE_SPR_CTRL_count : Fld := ⟨12, 0⟩

/-- SCENE_n_SPR_TABLE: sprite table, image base and matrix table. -/
def SCENE_SPR_TABLE (n : Nat) : Nat := 0x40100014 + 0x1000 * n
def SCENE_SPR_TABLE_base : Fld := ⟨31, 6⟩

/-- SCENE_n_SPR_IMAGE: sprite table, image base and matrix table. -/
def SCENE_SPR_IMAGE (n : Nat) : Nat := 0x40100018 + 0x1000 * n
def SCENE_SPR_IMAGE_base : Fld := ⟨31, 8⟩

/-- SCENE_n_SPR_AFFINE: sprite table, image base and matrix table. -/
def SCENE_SPR_AFFINE (n : Nat) : Nat := 0x4010001c + 0x1000 * n
def SCENE_SPR_AFFINE_base : Fld := ⟨31, 9⟩

/-- SCENE_n_SPR_STAT: sprite overflow record. -/
def SCENE_SPR_STAT (n : Nat) : Nat := 0x40100020 + 0x1000 * n
def SCENE_SPR_STAT_cnt_ovf : Fld := ⟨31, 31⟩
def SCENE_SPR_STAT_pix_ovf : Fld := ⟨30, 30⟩
def SCENE_SPR_STAT_first_drop : Fld := ⟨27, 16⟩
def SCENE_SPR_STAT_ovf_line : Fld := ⟨11, 0⟩

/-- SCENE_n_SPR_PEAK: peak per-line use since the last read. -/
def SCENE_SPR_PEAK (n : Nat) : Nat := 0x40100024 + 0x1000 * n
def SCENE_SPR_PEAK_max_count : Fld := ⟨24, 16⟩
def SCENE_SPR_PEAK_max_pixels : Fld := ⟨13, 0⟩

/-- SCENE_n_PAL_INDEX: palette array index. -/
def SCENE_PAL_INDEX (n : Nat) : Nat := 0x40100030 + 0x1000 * n
def SCENE_PAL_INDEX_autoinc : Fld := ⟨31, 31⟩
def SCENE_PAL_INDEX_kind : Fld := ⟨14, 14⟩
def SCENE_PAL_INDEX_palette : Fld := ⟨13, 8⟩
def SCENE_PAL_INDEX_entry : Fld := ⟨7, 0⟩

/-- SCENE_n_PAL_DATA: selected palette entry. -/
def SCENE_PAL_DATA (n : Nat) : Nat := 0x40100034 + 0x1000 * n
def SCENE_PAL_DATA_argb : Fld := ⟨31, 0⟩

/-- SCENE_n_PAL_LOAD: palette copy from memory. -/
def SCENE_PAL_LOAD (n : Nat) : Nat := 0x40100038 + 0x1000 * n
def SCENE_PAL_LOAD_go : Fld := ⟨31, 31⟩
def SCENE_PAL_LOAD_at_frame : Fld := ⟨30, 30⟩
def SCENE_PAL_LOAD_late : Fld := ⟨29, 29⟩
def SCENE_PAL_LOAD_first : Fld := ⟨14, 8⟩
def SCENE_PAL_LOAD_count : Fld := ⟨6, 0⟩

/-- SCENE_n_PAL_SRC: copy source. -/
def SCENE_PAL_SRC (n : Nat) : Nat := 0x4010003c + 0x1000 * n
def SCENE_PAL_SRC_base : Fld := ⟨31, 8⟩

/-- SCENE_n_FAULT: fetch faults, saturating. -/
def SCENE_FAULT (n : Nat) : Nat := 0x40100040 + 0x1000 * n
def SCENE_FAULT_fetch_err : Fld := ⟨31, 16⟩
def SCENE_FAULT_poison : Fld := ⟨15, 8⟩
def SCENE_FAULT_fmt_bad : Fld := ⟨7, 0⟩

/-- SCENE_n_COLL_STAT: collision summary of the last frame. -/
def SCENE_COLL_STAT (n : Nat) : Nat := 0x40100044 + 0x1000 * n
def SCENE_COLL_STAT_partial : Fld := ⟨31, 31⟩
def SCENE_COLL_STAT_any : Fld := ⟨30, 30⟩
def SCENE_COLL_STAT_first_line : Fld := ⟨11, 0⟩

/-- SCENE_n_COLL_MASK_c: classes that class c reports. -/
def SCENE_COLL_MASK (n c : Nat) : Nat := 0x40100080 + 0x1000 * n + 0x4 * c
def SCENE_COLL_MASK_mask : Fld := ⟨15, 0⟩

/-- SCENE_n_COLL_c: hit row c of the last frame. -/
def SCENE_COLL (n c : Nat) : Nat := 0x401000c0 + 0x1000 * n + 0x4 * c
def SCENE_COLL_hits : Fld := ⟨15, 0⟩

/-- SCENE_n_LAYER_m_CTRL: layer m control. -/
def SCENE_LAYER_CTRL (n m : Nat) : Nat := 0x40100100 + 0x1000 * n + 0x40 * m
def SCENE_LAYER_CTRL_enable : Fld := ⟨31, 31⟩
def SCENE_LAYER_CTRL_affine : Fld := ⟨30, 30⟩
def SCENE_LAYER_CTRL_tile16 : Fld := ⟨29, 29⟩
def SCENE_LAYER_CTRL_format : Fld := ⟨28, 26⟩
def SCENE_LAYER_CTRL_opaque : Fld := ⟨25, 25⟩
def SCENE_LAYER_CTRL_map_w : Fld := ⟨24, 21⟩
def SCENE_LAYER_CTRL_map_h : Fld := ⟨20, 17⟩
def SCENE_LAYER_CTRL_edge : Fld := ⟨16, 15⟩
def SCENE_LAYER_CTRL_class : Fld := ⟨14, 11⟩

/-- SCENE_n_LAYER_m_MAP: map base and tile base. -/
def SCENE_LAYER_MAP (n m : Nat) : Nat := 0x40100104 + 0x1000 * n + 0x40 * m
def SCENE_LAYER_MAP_base : Fld := ⟨31, 8⟩

/-- SCENE_n_LAYER_m_TILE: map base and tile base. -/
def SCENE_LAYER_TILE (n m : Nat) : Nat := 0x40100108 + 0x1000 * n + 0x40 * m
def SCENE_LAYER_TILE_base : Fld := ⟨31, 8⟩

/-- SCENE_n_LAYER_m_SCROLL: scroll of a non-affine layer. -/
def SCENE_LAYER_SCROLL (n m : Nat) : Nat := 0x4010010c + 0x1000 * n + 0x40 * m
def SCENE_LAYER_SCROLL_y : Fld := ⟨31, 16⟩
def SCENE_LAYER_SCROLL_x : Fld := ⟨15, 0⟩

/-- SCENE_n_LAYER_m_AFF_A: affine terms of R76. -/
def SCENE_LAYER_AFF_A (n m : Nat) : Nat := 0x40100110 + 0x1000 * n + 0x40 * m
def SCENE_LAYER_AFF_A_value : Fld := ⟨31, 0⟩

/-- SCENE_n_LAYER_m_AFF_B: affine terms of R76. -/
def SCENE_LAYER_AFF_B (n m : Nat) : Nat := 0x40100114 + 0x1000 * n + 0x40 * m
def SCENE_LAYER_AFF_B_value : Fld := ⟨31, 0⟩

/-- SCENE_n_LAYER_m_AFF_C: affine terms of R76. -/
def SCENE_LAYER_AFF_C (n m : Nat) : Nat := 0x40100118 + 0x1000 * n + 0x40 * m
def SCENE_LAYER_AFF_C_value : Fld := ⟨31, 0⟩

/-- SCENE_n_LAYER_m_AFF_D: affine terms of R76. -/
def SCENE_LAYER_AFF_D (n m : Nat) : Nat := 0x4010011c + 0x1000 * n + 0x40 * m
def SCENE_LAYER_AFF_D_value : Fld := ⟨31, 0⟩

/-- SCENE_n_LAYER_m_AFF_X0: affine terms of R76. -/
def SCENE_LAYER_AFF_X0 (n m : Nat) : Nat := 0x40100120 + 0x1000 * n + 0x40 * m
def SCENE_LAYER_AFF_X0_value : Fld := ⟨31, 0⟩

/-- SCENE_n_LAYER_m_AFF_Y0: affine terms of R76. -/
def SCENE_LAYER_AFF_Y0 (n m : Nat) : Nat := 0x40100124 + 0x1000 * n + 0x40 * m
def SCENE_LAYER_AFF_Y0_value : Fld := ⟨31, 0⟩

/-! Registers of `05_beam_lists_and_raster_effects.md`. -/

/-- SCENE_n_BEAM_CTRL: sequencer enable. -/
def SCENE_BEAM_CTRL (n : Nat) : Nat := 0x40100300 + 0x1000 * n
def SCENE_BEAM_CTRL_enable : Fld := ⟨31, 31⟩

/-- SCENE_n_BEAM_BASE: list start. -/
def SCENE_BEAM_BASE (n : Nat) : Nat := 0x40100304 + 0x1000 * n
def SCENE_BEAM_BASE_base : Fld := ⟨31, 5⟩

/-- SCENE_n_BEAM_LEN: list region. -/
def SCENE_BEAM_LEN (n : Nat) : Nat := 0x40100308 + 0x1000 * n
def SCENE_BEAM_LEN_len : Fld := ⟨13, 0⟩

/-- SCENE_n_BEAM_DPTR_INIT: data pointer at frame start. -/
def SCENE_BEAM_DPTR_INIT (n : Nat) : Nat := 0x4010030c + 0x1000 * n
def SCENE_BEAM_DPTR_INIT_addr : Fld := ⟨31, 2⟩

/-- SCENE_n_BEAM_DPTR: current data pointer. -/
def SCENE_BEAM_DPTR (n : Nat) : Nat := 0x40100310 + 0x1000 * n
def SCENE_BEAM_DPTR_addr : Fld := ⟨31, 2⟩

/-- SCENE_n_BEAM_FLAGS: flags tested by SKIP. -/
def SCENE_BEAM_FLAGS (n : Nat) : Nat := 0x40100314 + 0x1000 * n
def SCENE_BEAM_FLAGS_flags : Fld := ⟨15, 0⟩

/-- SCENE_n_BEAM_SIG: signals raised. -/
def SCENE_BEAM_SIG (n : Nat) : Nat := 0x40100318 + 0x1000 * n
def SCENE_BEAM_SIG_sig : Fld := ⟨7, 0⟩

/-- SCENE_n_BEAM_STAT: sequencer state and errors. -/
def SCENE_BEAM_STAT (n : Nat) : Nat := 0x4010031c + 0x1000 * n
def SCENE_BEAM_STAT_running : Fld := ⟨31, 31⟩
def SCENE_BEAM_STAT_late : Fld := ⟨30, 30⟩
def SCENE_BEAM_STAT_bad_write : Fld := ⟨29, 29⟩
def SCENE_BEAM_STAT_bad_cmd : Fld := ⟨28, 28⟩
def SCENE_BEAM_STAT_fetch_fault : Fld := ⟨27, 27⟩
def SCENE_BEAM_STAT_overrun : Fld := ⟨26, 26⟩
def SCENE_BEAM_STAT_err_pc : Fld := ⟨15, 0⟩

/-- SCENE_n_BEAM_CNT: counters, saturating. -/
def SCENE_BEAM_CNT (n : Nat) : Nat := 0x40100320 + 0x1000 * n
def SCENE_BEAM_CNT_late_cnt : Fld := ⟨31, 16⟩
def SCENE_BEAM_CNT_refused : Fld := ⟨15, 0⟩

/-! Registers of `06_layer_composition_video_and_scaling.md`. -/

/-- SCENE_n_COMP_s: composition of source s. -/
def SCENE_COMP (n s : Nat) : Nat := 0x40100400 + 0x1000 * n + 0x4 * s
def SCENE_COMP_rank : Fld := ⟨31, 28⟩
def SCENE_COMP_blend : Fld := ⟨27, 24⟩
def SCENE_COMP_alpha : Fld := ⟨23, 16⟩
def SCENE_COMP_vprio : Fld := ⟨15, 14⟩
def SCENE_COMP_win : Fld := ⟨13, 6⟩
def SCENE_COMP_win_inv : Fld := ⟨5, 5⟩
def SCENE_COMP_mosaic : Fld := ⟨4, 4⟩
def SCENE_COMP_mos : Fld := ⟨3, 2⟩

/-- SCENE_n_BG: background colour. -/
def SCENE_BG (n : Nat) : Nat := 0x40100440 + 0x1000 * n
def SCENE_BG_rgb : Fld := ⟨23, 0⟩

/-- SCENE_n_MOS_j_SIZE: block size of mosaic setting j. -/
def SCENE_MOS_SIZE (n j : Nat) : Nat := 0x40100490 + 0x1000 * n + 0x8 * j
def SCENE_MOS_SIZE_h : Fld := ⟨15, 8⟩
def SCENE_MOS_SIZE_w : Fld := ⟨7, 0⟩

/-- SCENE_n_MOS_j_ORG: anchor of mosaic setting j. -/
def SCENE_MOS_ORG (n j : Nat) : Nat := 0x40100494 + 0x1000 * n + 0x8 * j
def SCENE_MOS_ORG_ay : Fld := ⟨31, 16⟩
def SCENE_MOS_ORG_ax : Fld := ⟨15, 0⟩

/-- SCENE_n_WIN_w_X: window extent. -/
def SCENE_WIN_X (n w : Nat) : Nat := 0x401004c0 + 0x1000 * n + 0x8 * w
def SCENE_WIN_X_hi : Fld := ⟨31, 16⟩
def SCENE_WIN_X_lo : Fld := ⟨15, 0⟩

/-- SCENE_n_WIN_w_Y: window extent. -/
def SCENE_WIN_Y (n w : Nat) : Nat := 0x401004c4 + 0x1000 * n + 0x8 * w
def SCENE_WIN_Y_hi : Fld := ⟨31, 16⟩
def SCENE_WIN_Y_lo : Fld := ⟨15, 0⟩

/-- SCENE_n_CSC_i: colour matrix row i / 2. -/
def SCENE_CSC (n i : Nat) : Nat := 0x40100460 + 0x1000 * n + 0x4 * i
def SCENE_CSC_hi : Fld := ⟨31, 16⟩
def SCENE_CSC_lo : Fld := ⟨15, 0⟩

/-- SCENE_n_POST_CTRL: post-blend chain. -/
def SCENE_POST_CTRL (n : Nat) : Nat := 0x40100480 + 0x1000 * n
def SCENE_POST_CTRL_csc_en : Fld := ⟨31, 31⟩
def SCENE_POST_CTRL_gamma_en : Fld := ⟨30, 30⟩
def SCENE_POST_CTRL_dither : Fld := ⟨29, 28⟩
def SCENE_POST_CTRL_depth : Fld := ⟨27, 26⟩

/-- SCENE_n_GAMMA_INDEX: gamma table index. -/
def SCENE_GAMMA_INDEX (n : Nat) : Nat := 0x40100484 + 0x1000 * n
def SCENE_GAMMA_INDEX_autoinc : Fld := ⟨31, 31⟩
def SCENE_GAMMA_INDEX_channel : Fld := ⟨11, 10⟩
def SCENE_GAMMA_INDEX_entry : Fld := ⟨9, 0⟩

/-- SCENE_n_GAMMA_DATA: selected gamma entry. -/
def SCENE_GAMMA_DATA (n : Nat) : Nat := 0x40100488 + 0x1000 * n
def SCENE_GAMMA_DATA_value : Fld := ⟨11, 0⟩

/-- SCENE_n_VID_v_CTRL: video layer control. -/
def SCENE_VID_CTRL (n v : Nat) : Nat := 0x40100500 + 0x1000 * n + 0x40 * v
def SCENE_VID_CTRL_enable : Fld := ⟨31, 31⟩
def SCENE_VID_CTRL_format : Fld := ⟨30, 28⟩
def SCENE_VID_CTRL_matrix : Fld := ⟨27, 26⟩
def SCENE_VID_CTRL_full_range : Fld := ⟨25, 25⟩
def SCENE_VID_CTRL_h_site : Fld := ⟨24, 24⟩
def SCENE_VID_CTRL_v_site : Fld := ⟨23, 23⟩
def SCENE_VID_CTRL_flip_pending : Fld := ⟨22, 22⟩
def SCENE_VID_CTRL_bad_cfg : Fld := ⟨21, 21⟩

/-- SCENE_n_VID_v_Y_BASE: plane bases. -/
def SCENE_VID_Y_BASE (n v : Nat) : Nat := 0x40100504 + 0x1000 * n + 0x40 * v
def SCENE_VID_Y_BASE_base : Fld := ⟨31, 4⟩

/-- SCENE_n_VID_v_C_BASE: plane bases. -/
def SCENE_VID_C_BASE (n v : Nat) : Nat := 0x40100508 + 0x1000 * n + 0x40 * v
def SCENE_VID_C_BASE_base : Fld := ⟨31, 4⟩

/-- SCENE_n_VID_v_STRIDE: row pitch in bytes. -/
def SCENE_VID_STRIDE (n v : Nat) : Nat := 0x4010050c + 0x1000 * n + 0x40 * v
def SCENE_VID_STRIDE_c : Fld := ⟨31, 16⟩
def SCENE_VID_STRIDE_y : Fld := ⟨15, 0⟩

/-- SCENE_n_VID_v_SRC_XY: source and destination rectangles. -/
def SCENE_VID_SRC_XY (n v : Nat) : Nat := 0x40100510 + 0x1000 * n + 0x40 * v
def SCENE_VID_SRC_XY_y : Fld := ⟨31, 16⟩
def SCENE_VID_SRC_XY_x : Fld := ⟨15, 0⟩

/-- SCENE_n_VID_v_SRC_WH: source and destination rectangles. -/
def SCENE_VID_SRC_WH (n v : Nat) : Nat := 0x40100514 + 0x1000 * n + 0x40 * v
def SCENE_VID_SRC_WH_y : Fld := ⟨31, 16⟩
def SCENE_VID_SRC_WH_x : Fld := ⟨15, 0⟩

/-- SCENE_n_VID_v_DST_XY: source and destination rectangles. -/
def SCENE_VID_DST_XY (n v : Nat) : Nat := 0x40100518 + 0x1000 * n + 0x40 * v
def SCENE_VID_DST_XY_y : Fld := ⟨31, 16⟩
def SCENE_VID_DST_XY_x : Fld := ⟨15, 0⟩

/-- SCENE_n_VID_v_DST_WH: source and destination rectangles. -/
def SCENE_VID_DST_WH (n v : Nat) : Nat := 0x4010051c + 0x1000 * n + 0x40 * v
def SCENE_VID_DST_WH_y : Fld := ⟨31, 16⟩
def SCENE_VID_DST_WH_x : Fld := ⟨15, 0⟩

/-- SCENE_n_VID_v_HSTEP: scaling steps. -/
def SCENE_VID_HSTEP (n v : Nat) : Nat := 0x40100520 + 0x1000 * n + 0x40 * v
def SCENE_VID_HSTEP_step : Fld := ⟨19, 0⟩

/-- SCENE_n_VID_v_VSTEP: scaling steps. -/
def SCENE_VID_VSTEP (n v : Nat) : Nat := 0x40100524 + 0x1000 * n + 0x40 * v
def SCENE_VID_VSTEP_step : Fld := ⟨19, 0⟩

/-- SCENE_n_VID_v_HINIT: initial positions. -/
def SCENE_VID_HINIT (n v : Nat) : Nat := 0x40100528 + 0x1000 * n + 0x40 * v
def SCENE_VID_HINIT_init : Fld := ⟨31, 0⟩

/-- SCENE_n_VID_v_VINIT: initial positions. -/
def SCENE_VID_VINIT (n v : Nat) : Nat := 0x4010052c + 0x1000 * n + 0x40 * v
def SCENE_VID_VINIT_init : Fld := ⟨31, 0⟩

/-- SCENE_n_VID_COEF_INDEX: coefficient index. -/
def SCENE_VID_COEF_INDEX (n : Nat) : Nat := 0x40100600 + 0x1000 * n
def SCENE_VID_COEF_INDEX_autoinc : Fld := ⟨31, 31⟩
def SCENE_VID_COEF_INDEX_layer : Fld := ⟨11, 11⟩
def SCENE_VID_COEF_INDEX_vert : Fld := ⟨10, 10⟩
def SCENE_VID_COEF_INDEX_phase : Fld := ⟨9, 4⟩
def SCENE_VID_COEF_INDEX_pair : Fld := ⟨3, 2⟩

/-- SCENE_n_VID_COEF_DATA: the selected tap pair. -/
def SCENE_VID_COEF_DATA (n : Nat) : Nat := 0x40100604 + 0x1000 * n
def SCENE_VID_COEF_DATA_odd : Fld := ⟨27, 16⟩
def SCENE_VID_COEF_DATA_even : Fld := ⟨11, 0⟩

/-- SCENE_ASSIGN_p: head of pipe p. -/
def SCENE_ASSIGN (p : Nat) : Nat := 0x40104000 + 0x4 * p
def SCENE_ASSIGN_pending : Fld := ⟨31, 31⟩
def SCENE_ASSIGN_present : Fld := ⟨30, 30⟩
def SCENE_ASSIGN_cur_head : Fld := ⟨29, 28⟩
def SCENE_ASSIGN_park : Fld := ⟨3, 3⟩
def SCENE_ASSIGN_head : Fld := ⟨2, 1⟩
def SCENE_ASSIGN_slot : Fld := ⟨0, 0⟩

/-! Registers of `07_display_heads_and_the_panel_race.md`. -/

/-- HEAD_n_CTRL: mode and panel control. -/
def HEAD_CTRL (n : Nat) : Nat := 0x40110000 + 0x10000 * n
def HEAD_CTRL_mode : Fld := ⟨31, 30⟩
def HEAD_CTRL_te_src : Fld := ⟨29, 28⟩
def HEAD_CTRL_race : Fld := ⟨27, 27⟩
def HEAD_CTRL_panel_reset : Fld := ⟨26, 26⟩
def HEAD_CTRL_format : Fld := ⟨25, 23⟩
def HEAD_CTRL_lanes : Fld := ⟨22, 21⟩
def HEAD_CTRL_lp_blank : Fld := ⟨20, 20⟩

/-- HEAD_n_DPHY: lane rate. -/
def HEAD_DPHY (n : Nat) : Nat := 0x40110004 + 0x10000 * n
def HEAD_DPHY_hs_ns : Fld := ⟨27, 16⟩
def HEAD_DPHY_clk_cont : Fld := ⟨15, 15⟩
def HEAD_DPHY_rate : Fld := ⟨12, 0⟩

/-- HEAD_n_SIZE: active size. -/
def HEAD_SIZE (n : Nat) : Nat := 0x40110008 + 0x10000 * n
def HEAD_SIZE_height : Fld := ⟨28, 16⟩
def HEAD_SIZE_width : Fld := ⟨12, 0⟩

/-- HEAD_n_VTOTAL: panel vertical total in command mode. -/
def HEAD_VTOTAL (n : Nat) : Nat := 0x4011000c + 0x10000 * n
def HEAD_VTOTAL_te_line : Fld := ⟨28, 16⟩
def HEAD_VTOTAL_vtotal : Fld := ⟨12, 0⟩

/-- HEAD_n_VID_H: video line timing in byte-clock cycles. -/
def HEAD_VID_H (n : Nat) : Nat := 0x40110010 + 0x10000 * n
def HEAD_VID_H_htotal : Fld := ⟨31, 16⟩
def HEAD_VID_H_hsa : Fld := ⟨15, 8⟩
def HEAD_VID_H_hbp : Fld := ⟨7, 0⟩

/-- HEAD_n_VID_V: video vertical timing in lines. -/
def HEAD_VID_V (n : Nat) : Nat := 0x40110014 + 0x10000 * n
def HEAD_VID_V_vfp : Fld := ⟨27, 16⟩
def HEAD_VID_V_vbp : Fld := ⟨15, 8⟩
def HEAD_VID_V_vsa : Fld := ⟨7, 0⟩

/-- HEAD_n_RACE: race parameters. -/
def HEAD_RACE (n : Nat) : Nat := 0x40110018 + 0x10000 * n
def HEAD_RACE_margin : Fld := ⟨31, 24⟩
def HEAD_RACE_lead : Fld := ⟨23, 16⟩
def HEAD_RACE_preroll : Fld := ⟨15, 8⟩
def HEAD_RACE_gain : Fld := ⟨2, 0⟩

/-- HEAD_n_TE: TE input. -/
def HEAD_TE (n : Nat) : Nat := 0x4011001c + 0x10000 * n
def HEAD_TE_comp : Fld := ⟨31, 16⟩
def HEAD_TE_falling : Fld := ⟨0, 0⟩

/-- HEAD_n_BEAM: model state. -/
def HEAD_BEAM (n : Nat) : Nat := 0x40110020 + 0x10000 * n
def HEAD_BEAM_locked : Fld := ⟨31, 31⟩
def HEAD_BEAM_seeded : Fld := ⟨30, 30⟩
def HEAD_BEAM_lost : Fld := ⟨29, 29⟩
def HEAD_BEAM_period : Fld := ⟨26, 0⟩

/-- HEAD_n_BEAM_ERR: last phase error. -/
def HEAD_BEAM_ERR (n : Nat) : Nat := 0x40110024 + 0x10000 * n
def HEAD_BEAM_ERR_err : Fld := ⟨15, 0⟩

/-- HEAD_n_MARK: firmware marks. -/
def HEAD_MARK (n : Nat) : Nat := 0x40110030 + 0x10000 * n
def HEAD_MARK_all : Fld := ⟨31, 31⟩
def HEAD_MARK_count : Fld := ⟨15, 8⟩
def HEAD_MARK_first : Fld := ⟨7, 0⟩

/-- HEAD_n_DIRTY_k: pending set. -/
def HEAD_DIRTY (n k : Nat) : Nat := 0x40110040 + 0x10000 * n + 0x4 * k
def HEAD_DIRTY_bands : Fld := ⟨31, 0⟩

/-- HEAD_n_REFRESH: periodic full frames. -/
def HEAD_REFRESH (n : Nat) : Nat := 0x40110054 + 0x10000 * n
def HEAD_REFRESH_every : Fld := ⟨7, 0⟩

/-- HEAD_n_FRAME: frame counter. -/
def HEAD_FRAME (n : Nat) : Nat := 0x40110060 + 0x10000 * n
def HEAD_FRAME_count : Fld := ⟨31, 0⟩

/-- HEAD_n_SENT_LO: flip record. -/
def HEAD_SENT_LO (n : Nat) : Nat := 0x40110064 + 0x10000 * n
def HEAD_SENT_LO_value : Fld := ⟨31, 0⟩

/-- HEAD_n_SENT_HI: flip record. -/
def HEAD_SENT_HI (n : Nat) : Nat := 0x40110068 + 0x10000 * n
def HEAD_SENT_HI_value : Fld := ⟨31, 0⟩

/-- HEAD_n_SEEN_LO: flip record. -/
def HEAD_SEEN_LO (n : Nat) : Nat := 0x4011006c + 0x10000 * n
def HEAD_SEEN_LO_value : Fld := ⟨31, 0⟩

/-- HEAD_n_SEEN_HI: flip record. -/
def HEAD_SEEN_HI (n : Nat) : Nat := 0x40110070 + 0x10000 * n
def HEAD_SEEN_HI_value : Fld := ⟨31, 0⟩

/-- HEAD_n_FLIP_FRAME: flip record. -/
def HEAD_FLIP_FRAME (n : Nat) : Nat := 0x40110074 + 0x10000 * n
def HEAD_FLIP_FRAME_value : Fld := ⟨31, 0⟩

/-- HEAD_n_STAT: status. -/
def HEAD_STAT (n : Nat) : Nat := 0x40110080 + 0x10000 * n
def HEAD_STAT_held : Fld := ⟨31, 31⟩
def HEAD_STAT_race_suspect : Fld := ⟨30, 30⟩
def HEAD_STAT_te_missing : Fld := ⟨29, 29⟩
def HEAD_STAT_lead_refused : Fld := ⟨28, 28⟩
def HEAD_STAT_cfg_bad : Fld := ⟨27, 27⟩
def HEAD_STAT_bta_stuck : Fld := ⟨26, 26⟩
def HEAD_STAT_underrun : Fld := ⟨25, 25⟩

/-- HEAD_n_CNT: counters, saturating. -/
def HEAD_CNT (n : Nat) : Nat := 0x40110084 + 0x10000 * n
def HEAD_CNT_underrun : Fld := ⟨31, 16⟩
def HEAD_CNT_te_reject : Fld := ⟨15, 8⟩
def HEAD_CNT_te_miss : Fld := ⟨7, 0⟩

/-- HEAD_n_PKT_CTRL: firmware packet. -/
def HEAD_PKT_CTRL (n : Nat) : Nat := 0x40110090 + 0x10000 * n
def HEAD_PKT_CTRL_go : Fld := ⟨31, 31⟩
def HEAD_PKT_CTRL_bta : Fld := ⟨30, 30⟩
def HEAD_PKT_CTRL_lp : Fld := ⟨29, 29⟩
def HEAD_PKT_CTRL_err : Fld := ⟨28, 28⟩
def HEAD_PKT_CTRL_resp_len : Fld := ⟨27, 23⟩
def HEAD_PKT_CTRL_dtype : Fld := ⟨21, 16⟩
def HEAD_PKT_CTRL_wc : Fld := ⟨15, 0⟩

/-- HEAD_n_PKT_DATA_k: payload or response bytes 4k to 4k + 3. -/
def HEAD_PKT_DATA (n k : Nat) : Nat := 0x40110094 + 0x10000 * n + 0x4 * k
def HEAD_PKT_DATA_bytes : Fld := ⟨31, 0⟩

/-- HEAD_n_ACTIVE_TOL: tolerance stated while composing. -/
def HEAD_ACTIVE_TOL (n : Nat) : Nat := 0x401100a0 + 0x10000 * n
def HEAD_ACTIVE_TOL_ns : Fld := ⟨23, 0⟩

/-! Registers of `08_display_witness.md`. -/

/-- HEAD_n_WIT_CTRL: witness control. -/
def HEAD_WIT_CTRL (n : Nat) : Nat := 0x40110100 + 0x10000 * n
def HEAD_WIT_CTRL_enable : Fld := ⟨31, 31⟩
def HEAD_WIT_CTRL_log_en : Fld := ⟨30, 30⟩

/-- HEAD_n_WIT_STAT: witness status. -/
def HEAD_WIT_STAT (n : Nat) : Nat := 0x40110104 + 0x10000 * n
def HEAD_WIT_STAT_table_full : Fld := ⟨31, 31⟩
def HEAD_WIT_STAT_mismatch : Fld := ⟨30, 30⟩
def HEAD_WIT_STAT_log_lost : Fld := ⟨29, 29⟩
def HEAD_WIT_STAT_stuck : Fld := ⟨28, 28⟩
def HEAD_WIT_STAT_invalid_rows : Fld := ⟨11, 0⟩

/-- HEAD_n_WIT_CNT: counters, saturating. -/
def HEAD_WIT_CNT (n : Nat) : Nat := 0x40110108 + 0x10000 * n
def HEAD_WIT_CNT_mismatch : Fld := ⟨31, 16⟩
def HEAD_WIT_CNT_log_lost : Fld := ⟨15, 0⟩

/-- HEAD_n_WIT_SEQ: latest entry. -/
def HEAD_WIT_SEQ (n : Nat) : Nat := 0x4011010c + 0x10000 * n
def HEAD_WIT_SEQ_seq : Fld := ⟨31, 0⟩

/-- HEAD_n_WIT_LOG_BASE: log buffer start. -/
def HEAD_WIT_LOG_BASE (n : Nat) : Nat := 0x40110110 + 0x10000 * n
def HEAD_WIT_LOG_BASE_base : Fld := ⟨31, 6⟩

/-- HEAD_n_WIT_LOG_SIZE: log buffer size. -/
def HEAD_WIT_LOG_SIZE (n : Nat) : Nat := 0x40110114 + 0x10000 * n
def HEAD_WIT_LOG_SIZE_size : Fld := ⟨19, 0⟩

/-- HEAD_n_WIT_LOG_WR: write offset. -/
def HEAD_WIT_LOG_WR (n : Nat) : Nat := 0x40110118 + 0x10000 * n
def HEAD_WIT_LOG_WR_offset : Fld := ⟨25, 6⟩

/-- HEAD_n_WIT_LOG_RD: consumed offset. -/
def HEAD_WIT_LOG_RD (n : Nat) : Nat := 0x4011011c + 0x10000 * n
def HEAD_WIT_LOG_RD_offset : Fld := ⟨25, 6⟩

/-- HEAD_n_WIT_ROW_y: row table entry y. -/
def HEAD_WIT_ROW (n y : Nat) : Nat := 0x40112000 + 0x10000 * n + 0x4 * y
def HEAD_WIT_ROW_crc : Fld := ⟨31, 0⟩

/-! Registers of `09_block_engine_and_dma.md`. -/

/-- BLK_CTRL: list control. -/
def BLK_CTRL : Nat := 0x400c0000
def BLK_CTRL_go : Fld := ⟨31, 31⟩
def BLK_CTRL_abort : Fld := ⟨30, 30⟩

/-- BLK_LIST: list start. -/
def BLK_LIST : Nat := 0x400c0004
def BLK_LIST_base : Fld := ⟨31, 5⟩

/-- BLK_SURF: surface table. -/
def BLK_SURF : Nat := 0x400c0008
def BLK_SURF_base : Fld := ⟨31, 10⟩

/-- BLK_PACE: dead time. -/
def BLK_PACE : Nat := 0x400c000c
def BLK_PACE_dead : Fld := ⟨7, 0⟩

/-- BLK_STAT: list state. -/
def BLK_STAT : Nat := 0x400c0010
def BLK_STAT_running : Fld := ⟨31, 31⟩
def BLK_STAT_done : Fld := ⟨30, 30⟩
def BLK_STAT_wait_off : Fld := ⟨29, 29⟩
def BLK_STAT_sig : Fld := ⟨23, 16⟩
def BLK_STAT_err : Fld := ⟨15, 12⟩
def BLK_STAT_err_cmd : Fld := ⟨11, 0⟩

/-- BLK_WMARK_k: watermark k. -/
def BLK_WMARK (k : Nat) : Nat := 0x400c0020 + 0x4 * k
def BLK_WMARK_enable : Fld := ⟨31, 31⟩
def BLK_WMARK_head : Fld := ⟨13, 12⟩
def BLK_WMARK_line : Fld := ⟨11, 0⟩

/-- BLK_CNT: counters, saturating. -/
def BLK_CNT : Nat := 0x400c0030
def BLK_CNT_commands : Fld := ⟨31, 16⟩
def BLK_CNT_rejected : Fld := ⟨15, 0⟩

/-- DMA_CH_k_CTRL: channel control. -/
def DMA_CH_CTRL (k : Nat) : Nat := 0x400b0000 + 0x20 * k
def DMA_CH_CTRL_go : Fld := ⟨31, 31⟩
def DMA_CH_CTRL_abort : Fld := ⟨30, 30⟩
def DMA_CH_CTRL_pause : Fld := ⟨29, 29⟩
def DMA_CH_CTRL_trig_sw : Fld := ⟨28, 28⟩
def DMA_CH_CTRL_prio : Fld := ⟨27, 26⟩

/-- DMA_CH_k_DESC: descriptor address. -/
def DMA_CH_DESC (k : Nat) : Nat := 0x400b0004 + 0x20 * k
def DMA_CH_DESC_addr : Fld := ⟨31, 5⟩

/-- DMA_CH_k_STAT: channel state. -/
def DMA_CH_STAT (k : Nat) : Nat := 0x400b0008 + 0x20 * k
def DMA_CH_STAT_state : Fld := ⟨31, 30⟩
def DMA_CH_STAT_overlap : Fld := ⟨29, 29⟩
def DMA_CH_STAT_trig_ovr : Fld := ⟨28, 28⟩
def DMA_CH_STAT_aborted : Fld := ⟨27, 27⟩
def DMA_CH_STAT_trig_pend : Fld := ⟨26, 26⟩
def DMA_CH_STAT_err : Fld := ⟨3, 0⟩

/-- DMA_CH_k_POS: progress. -/
def DMA_CH_POS (k : Nat) : Nat := 0x400b000c + 0x20 * k
def DMA_CH_POS_line : Fld := ⟨31, 16⟩
def DMA_CH_POS_byte : Fld := ⟨15, 0⟩

/-- DMA_INT_STAT: channel events. -/
def DMA_INT_STAT : Nat := 0x400b0400
def DMA_INT_STAT_error : Fld := ⟨31, 16⟩
def DMA_INT_STAT_done : Fld := ⟨15, 0⟩

/-- DMA_INT_MASK: event enables. -/
def DMA_INT_MASK : Nat := 0x400b0404
def DMA_INT_MASK_mask : Fld := ⟨31, 0⟩

/-- DMA_ARB: arbitration. -/
def DMA_ARB : Nat := 0x400b0408
def DMA_ARB_age : Fld := ⟨7, 0⟩

/-! Registers of `10_sound.md`. -/

/-- AUD_BLOCK: block counter. -/
def AUD_BLOCK : Nat := 0x400d0000
def AUD_BLOCK_count : Fld := ⟨31, 0⟩

/-- AUD_CNT: counters, saturating. -/
def AUD_CNT : Nat := 0x400d0004
def AUD_CNT_clip : Fld := ⟨31, 16⟩
def AUD_CNT_late : Fld := ⟨15, 8⟩
def AUD_CNT_fault : Fld := ⟨7, 0⟩

/-- AUD_VEND_j: voices ended. -/
def AUD_VEND (j : Nat) : Nat := 0x400d0010 + 0x4 * j
def AUD_VEND_ended : Fld := ⟨31, 0⟩

/-- AUD_V_v_CTRL: voice control. -/
def AUD_V_CTRL (v : Nat) : Nat := 0x400d1000 + 0x20 * v
def AUD_V_CTRL_key_on : Fld := ⟨31, 31⟩
def AUD_V_CTRL_key_off : Fld := ⟨30, 30⟩
def AUD_V_CTRL_state : Fld := ⟨29, 28⟩
def AUD_V_CTRL_fault : Fld := ⟨27, 27⟩
def AUD_V_CTRL_format : Fld := ⟨26, 24⟩
def AUD_V_CTRL_loop : Fld := ⟨23, 23⟩
def AUD_V_CTRL_bus : Fld := ⟨22, 19⟩

/-- AUD_V_v_START: sample base. -/
def AUD_V_START (v : Nat) : Nat := 0x400d1004 + 0x20 * v
def AUD_V_START_addr : Fld := ⟨31, 0⟩

/-- AUD_V_v_LOOP: loop and last sample. -/
def AUD_V_LOOP (v : Nat) : Nat := 0x400d1008 + 0x20 * v
def AUD_V_LOOP_index : Fld := ⟨23, 0⟩

/-- AUD_V_v_END: loop and last sample. -/
def AUD_V_END (v : Nat) : Nat := 0x400d100c + 0x20 * v
def AUD_V_END_index : Fld := ⟨23, 0⟩

/-- AUD_V_v_STEP: pitch step. -/
def AUD_V_STEP (v : Nat) : Nat := 0x400d1010 + 0x20 * v
def AUD_V_STEP_step : Fld := ⟨19, 0⟩

/-- AUD_V_v_GAIN: voice gains. -/
def AUD_V_GAIN (v : Nat) : Nat := 0x400d1014 + 0x20 * v
def AUD_V_GAIN_gain_l : Fld := ⟨31, 16⟩
def AUD_V_GAIN_gain_r : Fld := ⟨15, 0⟩

/-- AUD_V_v_POS: position. -/
def AUD_V_POS (v : Nat) : Nat := 0x400d1018 + 0x20 * v
def AUD_V_POS_index : Fld := ⟨31, 8⟩
def AUD_V_POS_frac : Fld := ⟨7, 0⟩

/-- AUD_BUS_b_CTRL: bus control. -/
def AUD_BUS_CTRL (b : Nat) : Nat := 0x400d2000 + 0x10 * b
def AUD_BUS_CTRL_autoscale : Fld := ⟨31, 31⟩
def AUD_BUS_CTRL_nref : Fld := ⟨30, 24⟩
def AUD_BUS_CTRL_send_en : Fld := ⟨23, 23⟩
def AUD_BUS_CTRL_send : Fld := ⟨22, 19⟩
def AUD_BUS_CTRL_gain : Fld := ⟨15, 0⟩

/-- AUD_BUS_b_FX: effect program. -/
def AUD_BUS_FX (b : Nat) : Nat := 0x400d2004 + 0x10 * b
def AUD_BUS_FX_fx_en : Fld := ⟨31, 31⟩
def AUD_BUS_FX_fx_over : Fld := ⟨30, 30⟩
def AUD_BUS_FX_length : Fld := ⟨26, 16⟩
def AUD_BUS_FX_start : Fld := ⟨10, 0⟩

/-- AUD_BUS_b_DLY: delay ring base. -/
def AUD_BUS_DLY (b : Nat) : Nat := 0x400d2008 + 0x10 * b
def AUD_BUS_DLY_base : Fld := ⟨31, 8⟩

/-- AUD_BUS_b_DLYLEN: ring length. -/
def AUD_BUS_DLYLEN (b : Nat) : Nat := 0x400d200c + 0x10 * b
def AUD_BUS_DLYLEN_len : Fld := ⟨16, 0⟩

/-- AUD_OUT_o: output source. -/
def AUD_OUT (o : Nat) : Nat := 0x400d2200 + 0x4 * o
def AUD_OUT_enable : Fld := ⟨31, 31⟩
def AUD_OUT_bus : Fld := ⟨7, 4⟩
def AUD_OUT_chan : Fld := ⟨3, 3⟩

/-- AUD_IN_i: input route. -/
def AUD_IN (i : Nat) : Nat := 0x400d2400 + 0x4 * i
def AUD_IN_enable : Fld := ⟨31, 31⟩
def AUD_IN_bus : Fld := ⟨23, 20⟩
def AUD_IN_chan : Fld := ⟨19, 19⟩
def AUD_IN_gain : Fld := ⟨15, 0⟩

/-- AUD_SP_k_CFG: serial port. -/
def AUD_SP_CFG (k : Nat) : Nat := 0x400d3000 + 0x10 * k
def AUD_SP_CFG_enable : Fld := ⟨31, 31⟩
def AUD_SP_CFG_master : Fld := ⟨30, 30⟩
def AUD_SP_CFG_raw : Fld := ⟨29, 29⟩
def AUD_SP_CFG_i2s : Fld := ⟨28, 28⟩
def AUD_SP_CFG_slots : Fld := ⟨27, 24⟩
def AUD_SP_CFG_width : Fld := ⟨23, 22⟩
def AUD_SP_CFG_fs_delay : Fld := ⟨21, 21⟩
def AUD_SP_CFG_fs_pulse : Fld := ⟨20, 20⟩
def AUD_SP_CFG_tx_en : Fld := ⟨19, 19⟩
def AUD_SP_CFG_rx_en : Fld := ⟨18, 18⟩
def AUD_SP_CFG_rate : Fld := ⟨17, 15⟩

/-- AUD_SP_k_TRACK: rate tracking. -/
def AUD_SP_TRACK (k : Nat) : Nat := 0x400d3004 + 0x10 * k
def AUD_SP_TRACK_locked : Fld := ⟨31, 31⟩
def AUD_SP_TRACK_lost : Fld := ⟨30, 30⟩
def AUD_SP_TRACK_err_ppm : Fld := ⟨15, 0⟩

/-- AUD_SP_k_FIFO: raw data. -/
def AUD_SP_FIFO (k : Nat) : Nat := 0x400d3008 + 0x10 * k
def AUD_SP_FIFO_data : Fld := ⟨31, 0⟩

/-- AUD_SP_k_CNT: raw counters, saturating. -/
def AUD_SP_CNT (k : Nat) : Nat := 0x400d300c + 0x10 * k
def AUD_SP_CNT_tx_under : Fld := ⟨31, 16⟩
def AUD_SP_CNT_rx_over : Fld := ⟨15, 0⟩

/-- AUD_PDM: PDM outputs. -/
def AUD_PDM : Nat := 0x400d3100
def AUD_PDM_clk_en : Fld := ⟨31, 31⟩
def AUD_PDM_enable : Fld := ⟨7, 0⟩

/-- AUD_FX_PROG_i: effect instruction i, latched by R194. -/
def AUD_FX_PROG (i : Nat) : Nat := 0x400d8000 + 0x4 * i
def AUD_FX_PROG_instr : Fld := ⟨31, 0⟩

/-! Registers of `13_kindling_threads_slots_and_channels.md`. -/

/-- KIND_CTRL: table selection and stall detector. -/
def KIND_CTRL : Nat := 0x40180000
def KIND_CTRL_stall_en : Fld := ⟨31, 31⟩
def KIND_CTRL_bad_table : Fld := ⟨8, 8⟩
def KIND_CTRL_next : Fld := ⟨1, 1⟩
def KIND_CTRL_cur : Fld := ⟨0, 0⟩

/-- KIND_POOL_LO: FORK pool. -/
def KIND_POOL_LO : Nat := 0x40180010
def KIND_POOL_LO_pool : Fld := ⟨31, 0⟩

/-- KIND_POOL_HI: FORK pool. -/
def KIND_POOL_HI : Nat := 0x40180014
def KIND_POOL_HI_pool : Fld := ⟨31, 0⟩

/-- KIND_FAULTED_LO: faulted threads. -/
def KIND_FAULTED_LO : Nat := 0x40180018
def KIND_FAULTED_LO_faulted : Fld := ⟨31, 0⟩

/-- KIND_FAULTED_HI: faulted threads. -/
def KIND_FAULTED_HI : Nat := 0x4018001c
def KIND_FAULTED_HI_faulted : Fld := ⟨31, 0⟩

/-- KIND_STALL: stall detector. -/
def KIND_STALL : Nat := 0x40180020
def KIND_STALL_fired : Fld := ⟨31, 31⟩
def KIND_STALL_count : Fld := ⟨15, 0⟩

/-- KIND_ABANDON: abandon request. -/
def KIND_ABANDON : Nat := 0x40180030
def KIND_ABANDON_refused : Fld := ⟨31, 31⟩
def KIND_ABANDON_end : Fld := ⟨6, 0⟩

/-- KIND_SLOT_t_k: entries 4k to 4k + 3 of table t. -/
def KIND_SLOT (t k : Nat) : Nat := 0x40180100 + 0x80 * t + 0x4 * k
def KIND_SLOT_entry3 : Fld := ⟨31, 24⟩
def KIND_SLOT_entry2 : Fld := ⟨23, 16⟩
def KIND_SLOT_entry1 : Fld := ⟨15, 8⟩
def KIND_SLOT_entry0 : Fld := ⟨7, 0⟩

/-- KIND_T_t_CTRL: thread control. -/
def KIND_T_CTRL (t : Nat) : Nat := 0x40181000 + 0x20 * t
def KIND_T_CTRL_start : Fld := ⟨31, 31⟩
def KIND_T_CTRL_free : Fld := ⟨30, 30⟩
def KIND_T_CTRL_refused : Fld := ⟨29, 29⟩

/-- KIND_T_t_PC: start values. -/
def KIND_T_PC (t : Nat) : Nat := 0x40181004 + 0x20 * t
def KIND_T_PC_value : Fld := ⟨31, 0⟩

/-- KIND_T_t_SP: start values. -/
def KIND_T_SP (t : Nat) : Nat := 0x40181008 + 0x20 * t
def KIND_T_SP_value : Fld := ⟨31, 0⟩

/-- KIND_SNAP_t: snapshot of KIND_T_t_STAT at the last stall. -/
def KIND_SNAP (t : Nat) : Nat := 0x40180800 + 0x4 * t
def KIND_SNAP_state : Fld := ⟨31, 29⟩
def KIND_SNAP_wait : Fld := ⟨28, 26⟩
def KIND_SNAP_resource : Fld := ⟨23, 8⟩
def KIND_SNAP_on_valid : Fld := ⟨7, 7⟩
def KIND_SNAP_waits_on : Fld := ⟨5, 0⟩

/-- KIND_T_t_STAT: thread state. -/
def KIND_T_STAT (t : Nat) : Nat := 0x4018100c + 0x20 * t
def KIND_T_STAT_state : Fld := ⟨31, 29⟩
def KIND_T_STAT_wait : Fld := ⟨28, 26⟩
def KIND_T_STAT_resource : Fld := ⟨23, 8⟩
def KIND_T_STAT_on_valid : Fld := ⟨7, 7⟩
def KIND_T_STAT_waits_on : Fld := ⟨5, 0⟩

/-- KIND_T_t_FAULT: last fault. -/
def KIND_T_FAULT (t : Nat) : Nat := 0x40181010 + 0x20 * t
def KIND_T_FAULT_cause : Fld := ⟨3, 0⟩

/-- KIND_T_t_FPC: faulting instruction. -/
def KIND_T_FPC (t : Nat) : Nat := 0x40181014 + 0x20 * t
def KIND_T_FPC_addr : Fld := ⟨31, 0⟩

/-- KIND_T_t_ISSUE: issue count. -/
def KIND_T_ISSUE (t : Nat) : Nat := 0x40181018 + 0x20 * t
def KIND_T_ISSUE_count : Fld := ⟨31, 0⟩

/-- KIND_CH_e: channel end state. -/
def KIND_CH (e : Nat) : Nat := 0x40182000 + 0x4 * e
def KIND_CH_alloc : Fld := ⟨31, 31⟩
def KIND_CH_out_open : Fld := ⟨30, 30⟩
def KIND_CH_in_open : Fld := ⟨29, 29⟩
def KIND_CH_route_held : Fld := ⟨28, 28⟩
def KIND_CH_owner : Fld := ⟨27, 22⟩
def KIND_CH_routed : Fld := ⟨17, 17⟩
def KIND_CH_dest : Fld := ⟨16, 8⟩
def KIND_CH_tokens : Fld := ⟨3, 0⟩

/-- KIND_LOCK_l: lock state. -/
def KIND_LOCK (l : Nat) : Nat := 0x40182400 + 0x4 * l
def KIND_LOCK_held : Fld := ⟨31, 31⟩
def KIND_LOCK_holder : Fld := ⟨5, 0⟩

/-- KIND_KEND_k_RX: receive. -/
def KIND_KEND_RX (k : Nat) : Nat := 0x40183000 + 0x10 * k
def KIND_KEND_RX_empty : Fld := ⟨31, 31⟩
def KIND_KEND_RX_token : Fld := ⟨9, 0⟩

/-- KIND_KEND_k_TX: send. -/
def KIND_KEND_TX (k : Nat) : Nat := 0x40183004 + 0x10 * k
def KIND_KEND_TX_token : Fld := ⟨9, 0⟩

/-- KIND_KEND_k_DEST: send destination. -/
def KIND_KEND_DEST (k : Nat) : Nat := 0x40183008 + 0x10 * k
def KIND_KEND_DEST_end : Fld := ⟨6, 0⟩

/-- KIND_KEND_k_STAT: Kiln end state. -/
def KIND_KEND_STAT (k : Nat) : Nat := 0x4018300c + 0x10 * k
def KIND_KEND_STAT_in_open : Fld := ⟨31, 31⟩
def KIND_KEND_STAT_tx_ovf : Fld := ⟨30, 30⟩
def KIND_KEND_STAT_src : Fld := ⟨29, 23⟩
def KIND_KEND_STAT_tx_count : Fld := ⟨13, 7⟩
def KIND_KEND_STAT_rx_count : Fld := ⟨6, 0⟩

/-! Registers of `14_kindling_ports_and_software_interfaces.md`. -/

/-- KPORT_EN_b: ports of bank b enabled for Kindling. -/
def KPORT_EN (b : Nat) : Nat := 0x40190000 + 0x4 * b
def KPORT_EN_en : Fld := ⟨15, 0⟩

/-- KPORT_LOCK: actuator settings lock, held in the Ember island. -/
def KPORT_LOCK : Nat := 0x40190020
def KPORT_LOCK_lock : Fld := ⟨0, 0⟩

/-- KPORT_CB_k: source and gate of clock block k. -/
def KPORT_CB (k : Nat) : Nat := 0x40190040 + 0x8 * k
def KPORT_CB_run : Fld := ⟨31, 31⟩
def KPORT_CB_pin_src : Fld := ⟨30, 30⟩
def KPORT_CB_pre : Fld := ⟨29, 28⟩
def KPORT_CB_src_port : Fld := ⟨27, 21⟩
def KPORT_CB_gate_port : Fld := ⟨20, 14⟩

/-- KPORT_CB_k_TIME: phases of clock block k. -/
def KPORT_CB_TIME (k : Nat) : Nat := 0x40190044 + 0x8 * k
def KPORT_CB_TIME_hi : Fld := ⟨30, 16⟩
def KPORT_CB_TIME_lo : Fld := ⟨14, 0⟩

/-- KPORT_n_CFG: settings of port n. -/
def KPORT_CFG (n : Nat) : Nat := 0x40191000 + 0x10 * n
def KPORT_CFG_owned : Fld := ⟨31, 31⟩
def KPORT_CFG_owner : Fld := ⟨30, 25⟩
def KPORT_CFG_mode : Fld := ⟨24, 22⟩
def KPORT_CFG_cond : Fld := ⟨21, 19⟩
def KPORT_CFG_width : Fld := ⟨18, 17⟩
def KPORT_CFG_clock : Fld := ⟨16, 13⟩
def KPORT_CFG_invert : Fld := ⟨12, 12⟩
def KPORT_CFG_msb_first : Fld := ⟨11, 11⟩
def KPORT_CFG_falling : Fld := ⟨10, 10⟩
def KPORT_CFG_filt : Fld := ⟨9, 6⟩
def KPORT_CFG_delay : Fld := ⟨5, 3⟩

/-- KPORT_n_STAT: state of port n. -/
def KPORT_STAT (n : Nat) : Nat := 0x40191004 + 0x10 * n
def KPORT_STAT_trip : Fld := ⟨31, 31⟩
def KPORT_STAT_contend : Fld := ⟨30, 30⟩
def KPORT_STAT_overrun : Fld := ⟨29, 29⟩
def KPORT_STAT_underrun : Fld := ⟨28, 28⟩
def KPORT_STAT_late : Fld := ⟨27, 27⟩
def KPORT_STAT_pending : Fld := ⟨26, 26⟩
def KPORT_STAT_ready : Fld := ⟨25, 25⟩
def KPORT_STAT_level : Fld := ⟨24, 24⟩
def KPORT_STAT_timer : Fld := ⟨15, 0⟩

/-- KPORT_n_MISS: counters of port n, saturating. -/
def KPORT_MISS (n : Nat) : Nat := 0x40191008 + 0x10 * n
def KPORT_MISS_port_miss : Fld := ⟨31, 16⟩
def KPORT_MISS_contend : Fld := ⟨15, 8⟩
def KPORT_MISS_trips : Fld := ⟨7, 0⟩

/-- KPORT_n_ACT: actuator limit of port n, held in the Ember island and loaded from fuses at COLD. -/
def KPORT_ACT (n : Nat) : Nat := 0x4019100c + 0x10 * n
def KPORT_ACT_actuator : Fld := ⟨31, 31⟩
def KPORT_ACT_level : Fld := ⟨30, 30⟩
def KPORT_ACT_maxon : Fld := ⟨15, 0⟩

/-! Registers of `15_pins_multiplexing_and_safe_state.md`. -/

/-- PIN_BANK_b: bank supply. -/
def PIN_BANK (b : Nat) : Nat := 0x40050000 + 0x4 * b
def PIN_BANK_bad : Fld := ⟨31, 31⟩
def PIN_BANK_vdet : Fld := ⟨9, 8⟩
def PIN_BANK_vsel : Fld := ⟨1, 0⟩

/-- PIN_CFG_n: pad of pin n. -/
def PIN_CFG (n : Nat) : Nat := 0x40050100 + 0x4 * n
def PIN_CFG_func : Fld := ⟨31, 29⟩
def PIN_CFG_retained : Fld := ⟨28, 28⟩
def PIN_CFG_actuator : Fld := ⟨27, 27⟩
def PIN_CFG_analog : Fld := ⟨11, 11⟩
def PIN_CFG_hyst : Fld := ⟨10, 10⟩
def PIN_CFG_drive : Fld := ⟨9, 8⟩
def PIN_CFG_slow : Fld := ⟨7, 7⟩
def PIN_CFG_pull : Fld := ⟨6, 5⟩

/-- PIN_ISEL_i: second source of input i. -/
def PIN_ISEL (i : Nat) : Nat := 0x40050300 + 0x4 * i
def PIN_ISEL_combine : Fld := ⟨31, 30⟩
def PIN_ISEL_alt : Fld := ⟨6, 0⟩

/-- PIN_EXTL_n: pin-interrupt line n. -/
def PIN_EXTL (n : Nat) : Nat := 0x40050400 + 0x4 * n
def PIN_EXTL_enable : Fld := ⟨31, 31⟩
def PIN_EXTL_miss : Fld := ⟨23, 16⟩
def PIN_EXTL_filt : Fld := ⟨11, 8⟩
def PIN_EXTL_fclk : Fld := ⟨7, 6⟩
def PIN_EXTL_bank : Fld := ⟨2, 0⟩

/-- PIN_GUARD_CFG: guard g in bits [8g + 7:8g] for g = 0 to 3. -/
def PIN_GUARD_CFG : Nat := 0x40050500
def PIN_GUARD_CFG_enable0 : Fld := ⟨7, 7⟩
def PIN_GUARD_CFG_active_high0 : Fld := ⟨6, 6⟩
def PIN_GUARD_CFG_filter0 : Fld := ⟨5, 4⟩
def PIN_GUARD_CFG_enable1 : Fld := ⟨15, 15⟩
def PIN_GUARD_CFG_active_high1 : Fld := ⟨14, 14⟩
def PIN_GUARD_CFG_filter1 : Fld := ⟨13, 12⟩
def PIN_GUARD_CFG_enable2 : Fld := ⟨23, 23⟩
def PIN_GUARD_CFG_active_high2 : Fld := ⟨22, 22⟩
def PIN_GUARD_CFG_filter2 : Fld := ⟨21, 20⟩
def PIN_GUARD_CFG_enable3 : Fld := ⟨31, 31⟩
def PIN_GUARD_CFG_active_high3 : Fld := ⟨30, 30⟩
def PIN_GUARD_CFG_filter3 : Fld := ⟨29, 28⟩

/-- PIN_GUARD_STAT: guard state. -/
def PIN_GUARD_STAT : Nat := 0x40050504
def PIN_GUARD_STAT_trips : Fld := ⟨23, 16⟩
def PIN_GUARD_STAT_clr_refused : Fld := ⟨15, 12⟩
def PIN_GUARD_STAT_level : Fld := ⟨11, 8⟩
def PIN_GUARD_STAT_tripped : Fld := ⟨3, 0⟩

/-- PIN_SAFE: SAFE_N control. -/
def PIN_SAFE : Nat := 0x40050508
def PIN_SAFE_lock : Fld := ⟨31, 31⟩
def PIN_SAFE_safe_n : Fld := ⟨1, 1⟩
def PIN_SAFE_release : Fld := ⟨0, 0⟩

/-! Registers of `16_timebase_timers_and_monitor_adc.md`. -/

/-- TB_CTRL: step control. -/
def TB_CTRL : Nat := 0x40070000
def TB_CTRL_mono : Fld := ⟨31, 31⟩
def TB_CTRL_steps : Fld := ⟨15, 8⟩
def TB_CTRL_step_refused : Fld := ⟨0, 0⟩

/-- TB_ADJ: rate. -/
def TB_ADJ : Nat := 0x40070004
def TB_ADJ_ppb : Fld := ⟨31, 0⟩

/-- TB_STEP: step. -/
def TB_STEP : Nat := 0x40070008
def TB_STEP_delta : Fld := ⟨31, 0⟩

/-- TB_LO_k: read pair k. -/
def TB_LO (k : Nat) : Nat := 0x40070010 + 0x8 * k
def TB_LO_value : Fld := ⟨31, 0⟩

/-- TB_HI_k: read pair k. -/
def TB_HI (k : Nat) : Nat := 0x40070014 + 0x8 * k
def TB_HI_value : Fld := ⟨31, 0⟩

/-- TMR_k_CTRL: mode. -/
def TMR_CTRL (k : Nat) : Nat := 0x40060000 + 0x20 * k
def TMR_CTRL_run : Fld := ⟨31, 31⟩
def TMR_CTRL_pin_en : Fld := ⟨30, 30⟩
def TMR_CTRL_src : Fld := ⟨29, 28⟩
def TMR_CTRL_tb_bit : Fld := ⟨27, 23⟩
def TMR_CTRL_out_mode : Fld := ⟨22, 21⟩
def TMR_CTRL_trig_sel : Fld := ⟨20, 19⟩
def TMR_CTRL_late_fire : Fld := ⟨18, 18⟩
def TMR_CTRL_div : Fld := ⟨15, 0⟩

/-- TMR_k_IN: capture input. -/
def TMR_IN (k : Nat) : Nat := 0x40060004 + 0x20 * k
def TMR_IN_start_trig : Fld := ⟨31, 27⟩
def TMR_IN_edge : Fld := ⟨26, 25⟩
def TMR_IN_prescale : Fld := ⟨24, 23⟩
def TMR_IN_filt : Fld := ⟨22, 19⟩
def TMR_IN_fclk : Fld := ⟨18, 17⟩

/-- TMR_k_CNT: counter, wrap value and compare. -/
def TMR_CNT (k : Nat) : Nat := 0x40060008 + 0x20 * k
def TMR_CNT_value : Fld := ⟨31, 0⟩

/-- TMR_k_TOP: counter, wrap value and compare. -/
def TMR_TOP (k : Nat) : Nat := 0x4006000c + 0x20 * k
def TMR_TOP_value : Fld := ⟨31, 0⟩

/-- TMR_k_CMP: counter, wrap value and compare. -/
def TMR_CMP (k : Nat) : Nat := 0x40060010 + 0x20 * k
def TMR_CMP_value : Fld := ⟨31, 0⟩

/-- TMR_k_CAP: capture. -/
def TMR_CAP (k : Nat) : Nat := 0x40060014 + 0x20 * k
def TMR_CAP_value : Fld := ⟨31, 0⟩

/-- TMR_k_CAP_TB: capture. -/
def TMR_CAP_TB (k : Nat) : Nat := 0x40060018 + 0x20 * k
def TMR_CAP_TB_value : Fld := ⟨31, 0⟩

/-- TMR_k_STAT: events. -/
def TMR_STAT (k : Nat) : Nat := 0x4006001c + 0x20 * k
def TMR_STAT_cap_full : Fld := ⟨31, 31⟩
def TMR_STAT_cap_ovr : Fld := ⟨30, 30⟩
def TMR_STAT_edge_ovr : Fld := ⟨29, 29⟩
def TMR_STAT_late : Fld := ⟨28, 28⟩
def TMR_STAT_match : Fld := ⟨27, 27⟩
def TMR_STAT_wrap : Fld := ⟨26, 26⟩
def TMR_STAT_pending : Fld := ⟨25, 25⟩

/-- ADC_CTRL: sequencer. -/
def ADC_CTRL : Nat := 0x40080000
def ADC_CTRL_start : Fld := ⟨31, 31⟩
def ADC_CTRL_cont : Fld := ⟨30, 30⟩
def ADC_CTRL_busy : Fld := ⟨29, 29⟩
def ADC_CTRL_seq_ovr : Fld := ⟨28, 28⟩
def ADC_CTRL_trig : Fld := ⟨27, 23⟩

/-- ADC_SEQ: channels. -/
def ADC_SEQ : Nat := 0x40080004
def ADC_SEQ_mask : Fld := ⟨20, 0⟩

/-- ADC_LIMIT: window events. -/
def ADC_LIMIT : Nat := 0x40080008
def ADC_LIMIT_limit : Fld := ⟨20, 0⟩

/-- ADC_RES_c: result. -/
def ADC_RES (c : Nat) : Nat := 0x40080100 + 0x4 * c
def ADC_RES_valid : Fld := ⟨31, 31⟩
def ADC_RES_ovr : Fld := ⟨30, 30⟩
def ADC_RES_value : Fld := ⟨15, 0⟩

/-- ADC_LIM_c: window. -/
def ADC_LIM (c : Nat) : Nat := 0x40080200 + 0x4 * c
def ADC_LIM_hi : Fld := ⟨31, 16⟩
def ADC_LIM_lo : Fld := ⟨15, 0⟩

/-! Registers of `17_interrupts_mailboxes_and_doorbells.md`. -/

/-- INTC_SRC_s: source s. -/
def INTC_SRC (s : Nat) : Nat := 0x40090000 + 0x4 * s
def INTC_SRC_enable : Fld := ⟨31, 31⟩
def INTC_SRC_storm : Fld := ⟨30, 30⟩
def INTC_SRC_state : Fld := ⟨29, 28⟩
def INTC_SRC_dest : Fld := ⟨27, 26⟩
def INTC_SRC_sense : Fld := ⟨25, 23⟩
def INTC_SRC_db : Fld := ⟨20, 16⟩
def INTC_SRC_hold_en : Fld := ⟨15, 15⟩
def INTC_SRC_group : Fld := ⟨11, 8⟩
def INTC_SRC_prio : Fld := ⟨3, 0⟩

/-- INTC_EOI: end of interrupt. -/
def INTC_EOI : Nat := 0x40090400
def INTC_EOI_source : Fld := ⟨7, 0⟩

/-- INTC_HOLD_g: group hold-off. -/
def INTC_HOLD (g : Nat) : Nat := 0x40090500 + 0x4 * g
def INTC_HOLD_running : Fld := ⟨31, 31⟩
def INTC_HOLD_time : Fld := ⟨15, 0⟩

/-- INTC_STAT: summary. -/
def INTC_STAT : Nat := 0x40090600
def INTC_STAT_any : Fld := ⟨31, 31⟩
def INTC_STAT_top : Fld := ⟨23, 16⟩
def INTC_STAT_storms : Fld := ⟨15, 0⟩

/-- INTC_PEND_j: pending summary. -/
def INTC_PEND (j : Nat) : Nat := 0x40090700 + 0x4 * j
def INTC_PEND_pend : Fld := ⟨31, 0⟩

/-- MBX_n_DATA_k: data word k. -/
def MBX_DATA (n k : Nat) : Nat := 0x400a0000 + 0x100 * n + 0x4 * k
def MBX_DATA_data : Fld := ⟨31, 0⟩

/-- MBX_n_CTRL: go and length. -/
def MBX_CTRL (n : Nat) : Nat := 0x400a0040 + 0x100 * n
def MBX_CTRL_go : Fld := ⟨31, 31⟩
def MBX_CTRL_ack : Fld := ⟨30, 30⟩
def MBX_CTRL_len : Fld := ⟨4, 0⟩

/-- MBX_n_LOCK: lock. -/
def MBX_LOCK (n : Nat) : Nat := 0x400a0044 + 0x100 * n
def MBX_LOCK_force : Fld := ⟨31, 31⟩
def MBX_LOCK_owner : Fld := ⟨7, 0⟩

/-- MBX_n_STAT: status. -/
def MBX_STAT (n : Nat) : Nat := 0x400a0048 + 0x100 * n
def MBX_STAT_refused : Fld := ⟨31, 31⟩
def MBX_STAT_holder : Fld := ⟨7, 0⟩

/-- HOST_DB: doorbells. -/
def HOST_DB : Nat := 0x400a1000
def HOST_DB_bits : Fld := ⟨31, 0⟩

/-- HOST_DB_SET: doorbells. -/
def HOST_DB_SET : Nat := 0x400a1004
def HOST_DB_SET_bits : Fld := ⟨31, 0⟩

/-- HOST_DB_CLR: doorbells. -/
def HOST_DB_CLR : Nat := 0x400a1008
def HOST_DB_CLR_bits : Fld := ⟨31, 0⟩

/-- HOST_DB_MASK: doorbells. -/
def HOST_DB_MASK : Nat := 0x400a100c
def HOST_DB_MASK_bits : Fld := ⟨31, 0⟩

/-- KILN_DB: doorbells. -/
def KILN_DB : Nat := 0x400a1010
def KILN_DB_bits : Fld := ⟨31, 0⟩

/-- KILN_DB_SET: doorbells. -/
def KILN_DB_SET : Nat := 0x400a1014
def KILN_DB_SET_bits : Fld := ⟨31, 0⟩

/-- KILN_DB_CLR: doorbells. -/
def KILN_DB_CLR : Nat := 0x400a1018
def KILN_DB_CLR_bits : Fld := ⟨31, 0⟩

/-- KILN_DB_MASK: doorbells. -/
def KILN_DB_MASK : Nat := 0x400a101c
def KILN_DB_MASK_bits : Fld := ⟨31, 0⟩

/-- KIND_DB: doorbells. -/
def KIND_DB : Nat := 0x400a1020
def KIND_DB_bits : Fld := ⟨31, 0⟩

/-- KIND_DB_SET: doorbells. -/
def KIND_DB_SET : Nat := 0x400a1024
def KIND_DB_SET_bits : Fld := ⟨31, 0⟩

/-- KIND_DB_CLR: doorbells. -/
def KIND_DB_CLR : Nat := 0x400a1028
def KIND_DB_CLR_bits : Fld := ⟨31, 0⟩

/-- KIND_DB_MASK: doorbells. -/
def KIND_DB_MASK : Nat := 0x400a102c
def KIND_DB_MASK_bits : Fld := ⟨31, 0⟩

/-- MBX_AGENT: mailbox agent. -/
def MBX_AGENT : Nat := 0x400a1100
def MBX_AGENT_en_6 : Fld := ⟨31, 31⟩
def MBX_AGENT_en_7 : Fld := ⟨30, 30⟩
def MBX_AGENT_bad : Fld := ⟨7, 0⟩

/-! Registers of `18_ledger_engines.md`. -/

/-- LEDGER_SQ_BASE: ring bases. -/
def LEDGER_SQ_BASE : Nat := 0x40200000
def LEDGER_SQ_BASE_base : Fld := ⟨31, 6⟩

/-- LEDGER_CQ_BASE: ring bases. -/
def LEDGER_CQ_BASE : Nat := 0x40200010
def LEDGER_CQ_BASE_base : Fld := ⟨31, 6⟩

/-- LEDGER_SQ_CFG: ring sizes. -/
def LEDGER_SQ_CFG : Nat := 0x40200004
def LEDGER_SQ_CFG_ovf : Fld := ⟨31, 31⟩
def LEDGER_SQ_CFG_log2 : Fld := ⟨3, 0⟩

/-- LEDGER_CQ_CFG: ring sizes. -/
def LEDGER_CQ_CFG : Nat := 0x40200014
def LEDGER_CQ_CFG_ovf : Fld := ⟨31, 31⟩
def LEDGER_CQ_CFG_log2 : Fld := ⟨3, 0⟩

/-- LEDGER_SQ_TAIL: ring indices. -/
def LEDGER_SQ_TAIL : Nat := 0x40200008
def LEDGER_SQ_TAIL_index : Fld := ⟨11, 0⟩

/-- LEDGER_SQ_HEAD: ring indices. -/
def LEDGER_SQ_HEAD : Nat := 0x4020000c
def LEDGER_SQ_HEAD_index : Fld := ⟨11, 0⟩

/-- LEDGER_CQ_HEAD: ring indices. -/
def LEDGER_CQ_HEAD : Nat := 0x40200018
def LEDGER_CQ_HEAD_index : Fld := ⟨11, 0⟩

/-- LEDGER_CQ_TAIL: ring indices. -/
def LEDGER_CQ_TAIL : Nat := 0x4020001c
def LEDGER_CQ_TAIL_index : Fld := ⟨11, 0⟩

/-- LEDGER_SEEN_BASE: bucket table. -/
def LEDGER_SEEN_BASE : Nat := 0x40200020
def LEDGER_SEEN_BASE_base : Fld := ⟨31, 6⟩

/-- LEDGER_SEEN_CFG: table size. -/
def LEDGER_SEEN_CFG : Nat := 0x40200024
def LEDGER_SEEN_CFG_bits : Fld := ⟨4, 0⟩

/-- LEDGER_SEEN_STAT: table state. -/
def LEDGER_SEEN_STAT : Nat := 0x40200028
def LEDGER_SEEN_STAT_full : Fld := ⟨31, 31⟩
def LEDGER_SEEN_STAT_victims : Fld := ⟨22, 16⟩
def LEDGER_SEEN_STAT_evictions : Fld := ⟨15, 0⟩

/-- LEDGER_SEEN_SALT_k: salt bytes 4k to 4k + 3. -/
def LEDGER_SEEN_SALT (k : Nat) : Nat := 0x40200030 + 0x4 * k
def LEDGER_SEEN_SALT_salt : Fld := ⟨31, 0⟩

/-- LEDGER_FLOOR_SEL: node selected. -/
def LEDGER_FLOOR_SEL : Nat := 0x40200040
def LEDGER_FLOOR_SEL_ctx : Fld := ⟨16, 16⟩
def LEDGER_FLOOR_SEL_node : Fld := ⟨9, 0⟩

/-- LEDGER_FLOOR_LO: floor sequence low. -/
def LEDGER_FLOOR_LO : Nat := 0x40200044
def LEDGER_FLOOR_LO_seq : Fld := ⟨31, 0⟩

/-- LEDGER_FLOOR_HI: floor epoch and sequence high. -/
def LEDGER_FLOOR_HI : Nat := 0x40200048
def LEDGER_FLOOR_HI_epoch : Fld := ⟨31, 12⟩
def LEDGER_FLOOR_HI_refused : Fld := ⟨11, 11⟩
def LEDGER_FLOOR_HI_seq_hi : Fld := ⟨1, 0⟩

/-- LEDGER_CORD_SEQ_LO: next journal sequence. -/
def LEDGER_CORD_SEQ_LO : Nat := 0x40200050
def LEDGER_CORD_SEQ_LO_value : Fld := ⟨31, 0⟩

/-- LEDGER_CORD_SEQ_HI: next journal sequence. -/
def LEDGER_CORD_SEQ_HI : Nat := 0x40200054
def LEDGER_CORD_SEQ_HI_value : Fld := ⟨31, 0⟩

/-- LEDGER_CORD_TAIL_LO: oldest entry not released. -/
def LEDGER_CORD_TAIL_LO : Nat := 0x40200058
def LEDGER_CORD_TAIL_LO_value : Fld := ⟨31, 0⟩

/-- LEDGER_CORD_TAIL_HI: oldest entry not released. -/
def LEDGER_CORD_TAIL_HI : Nat := 0x4020005c
def LEDGER_CORD_TAIL_HI_value : Fld := ⟨31, 0⟩

/-- LEDGER_CORD_CAP: Cord capacity. -/
def LEDGER_CORD_CAP : Nat := 0x40200060
def LEDGER_CORD_CAP_entries : Fld := ⟨31, 0⟩

/-- LEDGER_RT_BUSY: Retort activity. -/
def LEDGER_RT_BUSY : Nat := 0x40200070
def LEDGER_RT_BUSY_busy : Fld := ⟨11, 0⟩

/-- LEDGER_CNT_0: counters, saturating. -/
def LEDGER_CNT_0 : Nat := 0x40200080
def LEDGER_CNT_0_sig_bad : Fld := ⟨31, 16⟩
def LEDGER_CNT_0_dup : Fld := ⟨15, 0⟩

/-- LEDGER_CNT_1: counters, saturating. -/
def LEDGER_CNT_1 : Nat := 0x40200084
def LEDGER_CNT_1_stale : Fld := ⟨31, 16⟩
def LEDGER_CNT_1_auth_fail : Fld := ⟨15, 0⟩

/-- LEDGER_CNT_2: counters, saturating. -/
def LEDGER_CNT_2 : Nat := 0x40200088
def LEDGER_CNT_2_reissued : Fld := ⟨31, 16⟩
def LEDGER_CNT_2_xl_fail : Fld := ⟨15, 0⟩

/-- LEDGER_EVT: event flags. -/
def LEDGER_EVT : Nat := 0x40200090
def LEDGER_EVT_reissue : Fld := ⟨3, 3⟩
def LEDGER_EVT_auth : Fld := ⟨2, 2⟩
def LEDGER_EVT_key_fault : Fld := ⟨1, 1⟩
def LEDGER_EVT_bad_cmd : Fld := ⟨0, 0⟩

/-- LEDGER_XL_PROG_i: translation program store. -/
def LEDGER_XL_PROG (i : Nat) : Nat := 0x40204000 + 0x4 * i
def LEDGER_XL_PROG_word : Fld := ⟨31, 0⟩

/-- LEDGER_SEEN_ALT_BASE: bucket table of context 1. -/
def LEDGER_SEEN_ALT_BASE : Nat := 0x402000a0
def LEDGER_SEEN_ALT_BASE_base : Fld := ⟨31, 6⟩

/-- LEDGER_SEEN_ALT_CFG: context 1 size and enable. -/
def LEDGER_SEEN_ALT_CFG : Nat := 0x402000a4
def LEDGER_SEEN_ALT_CFG_enable : Fld := ⟨31, 31⟩
def LEDGER_SEEN_ALT_CFG_bits : Fld := ⟨4, 0⟩

/-- LEDGER_SEEN_ALT_SALT_k: context 1 salt bytes 4k to 4k + 3. -/
def LEDGER_SEEN_ALT_SALT (k : Nat) : Nat := 0x402000b0 + 0x4 * k
def LEDGER_SEEN_ALT_SALT_salt : Fld := ⟨31, 0⟩

/-! Registers of `20_floor_link.md`. -/

/-- FLOOR_p_CTRL: port mode. -/
def FLOOR_CTRL (p : Nat) : Nat := 0x40210000 + 0x100 * p
def FLOOR_CTRL_enable : Fld := ⟨31, 31⟩
def FLOOR_CTRL_fallback : Fld := ⟨30, 30⟩
def FLOOR_CTRL_mode : Fld := ⟨29, 28⟩

/-- FLOOR_p_STAT: link state. -/
def FLOOR_STAT (p : Nat) : Nat := 0x40210004 + 0x100 * p
def FLOOR_STAT_link : Fld := ⟨31, 31⟩
def FLOOR_STAT_speed : Fld := ⟨30, 30⟩
def FLOOR_STAT_an_done : Fld := ⟨29, 29⟩
def FLOOR_STAT_trained : Fld := ⟨28, 28⟩
def FLOOR_STAT_lock : Fld := ⟨27, 27⟩
def FLOOR_STAT_changed : Fld := ⟨26, 26⟩

/-- FLOOR_p_MAC_LO: station address. -/
def FLOOR_MAC_LO (p : Nat) : Nat := 0x40210008 + 0x100 * p
def FLOOR_MAC_LO_mac : Fld := ⟨31, 0⟩

/-- FLOOR_p_MAC_HI: station address. -/
def FLOOR_MAC_HI (p : Nat) : Nat := 0x4021000c + 0x100 * p
def FLOOR_MAC_HI_mac : Fld := ⟨31, 0⟩

/-- FLOOR_p_TXQ_BASE: ring bases. -/
def FLOOR_TXQ_BASE (p : Nat) : Nat := 0x40210010 + 0x100 * p
def FLOOR_TXQ_BASE_base : Fld := ⟨31, 4⟩

/-- FLOOR_p_RXQ_BASE: ring bases. -/
def FLOOR_RXQ_BASE (p : Nat) : Nat := 0x40210014 + 0x100 * p
def FLOOR_RXQ_BASE_base : Fld := ⟨31, 4⟩

/-- FLOOR_p_Q_CFG: ring sizes. -/
def FLOOR_Q_CFG (p : Nat) : Nat := 0x40210018 + 0x100 * p
def FLOOR_Q_CFG_rx_log2 : Fld := ⟨7, 4⟩
def FLOOR_Q_CFG_tx_log2 : Fld := ⟨3, 0⟩

/-- FLOOR_p_TXQ_TAIL: ring indices. -/
def FLOOR_TXQ_TAIL (p : Nat) : Nat := 0x4021001c + 0x100 * p
def FLOOR_TXQ_TAIL_index : Fld := ⟨11, 0⟩

/-- FLOOR_p_TXQ_HEAD: ring indices. -/
def FLOOR_TXQ_HEAD (p : Nat) : Nat := 0x40210020 + 0x100 * p
def FLOOR_TXQ_HEAD_index : Fld := ⟨11, 0⟩

/-- FLOOR_p_RXQ_HEAD: ring indices. -/
def FLOOR_RXQ_HEAD (p : Nat) : Nat := 0x40210024 + 0x100 * p
def FLOOR_RXQ_HEAD_index : Fld := ⟨11, 0⟩

/-- FLOOR_p_RXQ_TAIL: ring indices. -/
def FLOOR_RXQ_TAIL (p : Nat) : Nat := 0x40210028 + 0x100 * p
def FLOOR_RXQ_TAIL_index : Fld := ⟨11, 0⟩

/-- FLOOR_p_TXTS_LO: transmit timestamp. -/
def FLOOR_TXTS_LO (p : Nat) : Nat := 0x40210030 + 0x100 * p
def FLOOR_TXTS_LO_value : Fld := ⟨31, 0⟩

/-- FLOOR_p_TXTS_HI: transmit timestamp. -/
def FLOOR_TXTS_HI (p : Nat) : Nat := 0x40210034 + 0x100 * p
def FLOOR_TXTS_HI_value : Fld := ⟨31, 0⟩

/-- FLOOR_p_TXTS_ID: frame of that timestamp. -/
def FLOOR_TXTS_ID (p : Nat) : Nat := 0x40210038 + 0x100 * p
def FLOOR_TXTS_ID_valid : Fld := ⟨31, 31⟩
def FLOOR_TXTS_ID_seq_id : Fld := ⟨15, 0⟩

/-- FLOOR_p_TS_ADJ: reference-plane correction. -/
def FLOOR_TS_ADJ (p : Nat) : Nat := 0x4021003c + 0x100 * p
def FLOOR_TS_ADJ_rx : Fld := ⟨31, 16⟩
def FLOOR_TS_ADJ_tx : Fld := ⟨15, 0⟩

/-- FLOOR_p_CNT_0: counters, saturating. -/
def FLOOR_CNT_0 (p : Nat) : Nat := 0x40210040 + 0x100 * p
def FLOOR_CNT_0_tx_frames : Fld := ⟨31, 16⟩
def FLOOR_CNT_0_rx_frames : Fld := ⟨15, 0⟩

/-- FLOOR_p_CNT_1: counters, saturating. -/
def FLOOR_CNT_1 (p : Nat) : Nat := 0x40210044 + 0x100 * p
def FLOOR_CNT_1_fcs_err : Fld := ⟨31, 16⟩
def FLOOR_CNT_1_dropped : Fld := ⟨15, 0⟩

/-- FLOOR_ETYPE: floor EtherType and tag, shared by both ports. -/
def FLOOR_ETYPE : Nat := 0x40210800
def FLOOR_ETYPE_tag_en : Fld := ⟨31, 31⟩
def FLOOR_ETYPE_pcp : Fld := ⟨30, 28⟩
def FLOOR_ETYPE_vid : Fld := ⟨27, 16⟩
def FLOOR_ETYPE_etype : Fld := ⟨15, 0⟩

/-! Registers of `21_host_interface_and_firmware_commands.md`. -/

/-- HOST_LINK: link state. -/
def HOST_LINK : Nat := 0x40220000
def HOST_LINK_up : Fld := ⟨31, 31⟩
def HOST_LINK_gen : Fld := ⟨30, 28⟩
def HOST_LINK_width : Fld := ⟨27, 26⟩
def HOST_LINK_changed : Fld := ⟨25, 25⟩
def HOST_LINK_flr : Fld := ⟨24, 24⟩

/-- HOST_WIN_w_BASE: window base. -/
def HOST_WIN_BASE (w : Nat) : Nat := 0x40220010 + 0x8 * w
def HOST_WIN_BASE_base : Fld := ⟨31, 16⟩

/-- HOST_WIN_w_CFG: window settings. -/
def HOST_WIN_CFG (w : Nat) : Nat := 0x40220014 + 0x8 * w
def HOST_WIN_CFG_enable : Fld := ⟨31, 31⟩
def HOST_WIN_CFG_write : Fld := ⟨30, 30⟩
def HOST_WIN_CFG_size : Fld := ⟨10, 0⟩

/-- HOST_BAR4: BAR4 access. -/
def HOST_BAR4 : Nat := 0x40220030
def HOST_BAR4_csram_en : Fld := ⟨31, 31⟩
def HOST_BAR4_ls_en : Fld := ⟨30, 30⟩
def HOST_BAR4_write : Fld := ⟨29, 29⟩

/-- HOST_ERR_ADDR: offset of the captured access. -/
def HOST_ERR_ADDR : Nat := 0x40220040
def HOST_ERR_ADDR_offset : Fld := ⟨31, 0⟩

/-- HOST_ERR_INFO: that access. -/
def HOST_ERR_INFO : Nat := 0x40220044
def HOST_ERR_INFO_valid : Fld := ⟨31, 31⟩
def HOST_ERR_INFO_bar : Fld := ⟨30, 29⟩
def HOST_ERR_INFO_wr : Fld := ⟨28, 28⟩
def HOST_ERR_INFO_cause : Fld := ⟨3, 0⟩

/-- HOST_CNT: counters, saturating. -/
def HOST_CNT : Nat := 0x40220048
def HOST_CNT_refused : Fld := ⟨31, 16⟩
def HOST_CNT_aer : Fld := ⟨15, 0⟩

/-! Registers of `22_profiles_boot_fuses_and_identity.md`. -/

/-- SYS_ID_0: identity (Table 22-2). -/
def SYS_ID_0 : Nat := 0x40000000
def SYS_ID_0_id : Fld := ⟨31, 0⟩

/-- SYS_ID_1: identity (Table 22-2). -/
def SYS_ID_1 : Nat := 0x40000004
def SYS_ID_1_id : Fld := ⟨31, 0⟩

/-- SYS_ID_2: identity (Table 22-2). -/
def SYS_ID_2 : Nat := 0x40000008
def SYS_ID_2_id : Fld := ⟨31, 0⟩

/-- SYS_BOOT: how the device booted. -/
def SYS_BOOT : Nat := 0x40000010
def SYS_BOOT_source : Fld := ⟨31, 30⟩
def SYS_BOOT_cert_bad : Fld := ⟨29, 29⟩
def SYS_BOOT_version : Fld := ⟨23, 0⟩

/-- SYS_PROFILE: profiles. -/
def SYS_PROFILE : Nat := 0x40000014
def SYS_PROFILE_pins : Fld := ⟨17, 16⟩
def SYS_PROFILE_cur : Fld := ⟨15, 8⟩
def SYS_PROFILE_permitted : Fld := ⟨3, 0⟩

/-- FUSE_STAT: load state. -/
def FUSE_STAT : Nat := 0x40040000
def FUSE_STAT_loaded : Fld := ⟨31, 31⟩
def FUSE_STAT_fault : Fld := ⟨30, 30⟩
def FUSE_STAT_fails : Fld := ⟨1, 0⟩

/-- FUSE_PROG: field programming. -/
def FUSE_PROG : Nat := 0x40040004
def FUSE_PROG_go : Fld := ⟨31, 31⟩
def FUSE_PROG_refused : Fld := ⟨30, 30⟩
def FUSE_PROG_bit : Fld := ⟨12, 0⟩

/-- FUSE_WORD_k: fuse word k. -/
def FUSE_WORD (k : Nat) : Nat := 0x40040100 + 0x4 * k
def FUSE_WORD_bits : Fld := ⟨31, 0⟩

/-! Registers of `23_clocks.md`. -/

/-- CLK_SRC: oscillator and Ember source control. -/
def CLK_SRC : Nat := 0x40010000
def CLK_SRC_refused : Fld := ⟨31, 31⟩
def CLK_SRC_ember_cur : Fld := ⟨3, 3⟩
def CLK_SRC_xa_en : Fld := ⟨2, 2⟩
def CLK_SRC_xb_en : Fld := ⟨1, 1⟩
def CLK_SRC_ember_sel : Fld := ⟨0, 0⟩

/-- CLK_OSC_STAT: oscillator state. -/
def CLK_OSC_STAT : Nat := 0x40010004
def CLK_OSC_STAT_xa_stable : Fld := ⟨31, 31⟩
def CLK_OSC_STAT_xb_stable : Fld := ⟨30, 30⟩
def CLK_OSC_STAT_xa_lost : Fld := ⟨29, 29⟩
def CLK_OSC_STAT_xb_lost : Fld := ⟨28, 28⟩
def CLK_OSC_STAT_holdover : Fld := ⟨27, 27⟩

/-- CLK_FRC_TRIM: FRC trim. -/
def CLK_FRC_TRIM : Nat := 0x40010008
def CLK_FRC_TRIM_busy : Fld := ⟨31, 31⟩
def CLK_FRC_TRIM_code : Fld := ⟨7, 0⟩

/-- CLK_ROOT: island roots. -/
def CLK_ROOT : Nat := 0x4001000c
def CLK_ROOT_refused : Fld := ⟨31, 31⟩
def CLK_ROOT_cur : Fld := ⟨13, 8⟩
def CLK_ROOT_sel : Fld := ⟨5, 0⟩

/-- CLK_PLL_k_CTRL: PLL k. -/
def CLK_PLL_CTRL (k : Nat) : Nat := 0x40010100 + 0x10 * k
def CLK_PLL_CTRL_enable : Fld := ⟨31, 31⟩
def CLK_PLL_CTRL_locked : Fld := ⟨30, 30⟩
def CLK_PLL_CTRL_refused : Fld := ⟨29, 29⟩
def CLK_PLL_CTRL_ceil : Fld := ⟨28, 28⟩
def CLK_PLL_CTRL_s : Fld := ⟨27, 26⟩
def CLK_PLL_CTRL_t : Fld := ⟨25, 24⟩
def CLK_PLL_CTRL_div : Fld := ⟨21, 16⟩
def CLK_PLL_CTRL_n : Fld := ⟨9, 0⟩

/-- CLK_PLL_k_FRAC: fraction of PLL k. -/
def CLK_PLL_FRAC (k : Nat) : Nat := 0x40010104 + 0x10 * k
def CLK_PLL_FRAC_frac : Fld := ⟨19, 0⟩

/-- CLK_MEAS: frequency counter. -/
def CLK_MEAS : Nat := 0x40010200
def CLK_MEAS_go : Fld := ⟨31, 31⟩
def CLK_MEAS_busy : Fld := ⟨30, 30⟩
def CLK_MEAS_invert : Fld := ⟨29, 29⟩
def CLK_MEAS_mixed : Fld := ⟨28, 28⟩
def CLK_MEAS_w : Fld := ⟨20, 16⟩
def CLK_MEAS_target : Fld := ⟨4, 0⟩

/-- CLK_MEAS_RES: result. -/
def CLK_MEAS_RES : Nat := 0x40010204
def CLK_MEAS_RES_count : Fld := ⟨31, 0⟩

/-- CLK_EVT: clock events. -/
def CLK_EVT : Nat := 0x40010300
def CLK_EVT_meas_done : Fld := ⟨16, 16⟩
def CLK_EVT_unlock : Fld := ⟨8, 0⟩

/-! Registers of `24_reset_and_power_states.md`. -/

/-- RST_CAUSE: most recent reset. -/
def RST_CAUSE : Nat := 0x40020000
def RST_CAUSE_fuse_interrupted : Fld := ⟨7, 7⟩
def RST_CAUSE_level : Fld := ⟨5, 4⟩
def RST_CAUSE_source : Fld := ⟨1, 0⟩

/-- PWR_STATE: power state. -/
def PWR_STATE : Nat := 0x40030000
def PWR_STATE_midnight : Fld := ⟨31, 31⟩
def PWR_STATE_state : Fld := ⟨1, 0⟩

/-- PWR_SEQ_k: rail k. -/
def PWR_SEQ (k : Nat) : Nat := 0x40030010 + 0x4 * (k - 1)
def PWR_SEQ_timeout : Fld := ⟨23, 16⟩
def PWR_SEQ_delay : Fld := ⟨7, 0⟩

/-- PWR_STAT: rails. -/
def PWR_STAT : Nat := 0x40030030
def PWR_STAT_pg_fault : Fld := ⟨31, 31⟩
def PWR_STAT_fault_rail : Fld := ⟨30, 28⟩
def PWR_STAT_pg_stuck : Fld := ⟨27, 27⟩
def PWR_STAT_pmbus_fault : Fld := ⟨26, 26⟩
def PWR_STAT_en : Fld := ⟨13, 8⟩
def PWR_STAT_pg : Fld := ⟨5, 0⟩

/-- PWR_PMBUS: PMBus target. -/
def PWR_PMBUS : Nat := 0x40030040
def PWR_PMBUS_fast : Fld := ⟨31, 31⟩
def PWR_PMBUS_page_en : Fld := ⟨30, 30⟩
def PWR_PMBUS_addr : Fld := ⟨29, 23⟩
def PWR_PMBUS_page : Fld := ⟨22, 15⟩
def PWR_PMBUS_exp : Fld := ⟨4, 0⟩

/-- PWR_AVS: scaling limits. -/
def PWR_AVS : Nat := 0x40030044
def PWR_AVS_enable : Fld := ⟨31, 31⟩
def PWR_AVS_max_mv : Fld := ⟨27, 16⟩
def PWR_AVS_min_mv : Fld := ⟨11, 0⟩

/-- PWR_AVS_STAT: last step. -/
def PWR_AVS_STAT : Nat := 0x40030048
def PWR_AVS_STAT_status_word : Fld := ⟨31, 16⟩
def PWR_AVS_STAT_vout_mv : Fld := ⟨11, 0⟩

/-- PWR_THERM: thermal state. -/
def PWR_THERM : Nat := 0x40030050
def PWR_THERM_trip : Fld := ⟨31, 31⟩
def PWR_THERM_clr_refused : Fld := ⟨30, 30⟩
def PWR_THERM_throttle : Fld := ⟨29, 29⟩
def PWR_THERM_changed : Fld := ⟨28, 28⟩
def PWR_THERM_cool_s : Fld := ⟨7, 0⟩

/-- PWR_WAKE: wake sources. -/
def PWR_WAKE : Nat := 0x40030060
def PWR_WAKE_rtc_en : Fld := ⟨12, 12⟩
def PWR_WAKE_pin_edge : Fld := ⟨11, 8⟩
def PWR_WAKE_pin_pol : Fld := ⟨7, 4⟩
def PWR_WAKE_pin_en : Fld := ⟨3, 0⟩

/-- PWR_WAKE_CAUSE: how Midnight began and ended. -/
def PWR_WAKE_CAUSE : Nat := 0x40030064
def PWR_WAKE_CAUSE_valid : Fld := ⟨31, 31⟩
def PWR_WAKE_CAUSE_entry : Fld := ⟨9, 8⟩
def PWR_WAKE_CAUSE_rtc : Fld := ⟨4, 4⟩
def PWR_WAKE_CAUSE_pins : Fld := ⟨3, 0⟩

/-- PWR_RTC: seconds counter and alarm. -/
def PWR_RTC : Nat := 0x40030070
def PWR_RTC_seconds : Fld := ⟨31, 0⟩

/-- PWR_RTC_ALARM: seconds counter and alarm. -/
def PWR_RTC_ALARM : Nat := 0x40030074
def PWR_RTC_ALARM_seconds : Fld := ⟨31, 0⟩

/-! Registers of `25_failure_masking_and_health.md`. -/

/-- SYS_WDOG_CTRL: watchdog control. -/
def SYS_WDOG_CTRL : Nat := 0x40000040
def SYS_WDOG_CTRL_enable : Fld := ⟨31, 31⟩
def SYS_WDOG_CTRL_expired : Fld := ⟨30, 30⟩
def SYS_WDOG_CTRL_bad_kick : Fld := ⟨23, 16⟩
def SYS_WDOG_CTRL_timeout : Fld := ⟨15, 0⟩

/-- SYS_WDOG_KICK: kick. -/
def SYS_WDOG_KICK : Nat := 0x40000044
def SYS_WDOG_KICK_key : Fld := ⟨7, 0⟩

/-- SYS_ALERT: ALERT_N causes. -/
def SYS_ALERT : Nat := 0x40000048
def SYS_ALERT_fw : Fld := ⟨31, 31⟩
def SYS_ALERT_wdog : Fld := ⟨4, 4⟩
def SYS_ALERT_lockup : Fld := ⟨3, 3⟩
def SYS_ALERT_boot : Fld := ⟨2, 2⟩
def SYS_ALERT_level : Fld := ⟨0, 0⟩

/-! Registers of `26_debug_and_test.md`. -/

/-- DBG_AUTH: authentication. -/
def DBG_AUTH : Nat := 0x40300000
def DBG_AUTH_go : Fld := ⟨31, 31⟩
def DBG_AUTH_lock : Fld := ⟨30, 30⟩
def DBG_AUTH_unlocked : Fld := ⟨29, 29⟩
def DBG_AUTH_fails : Fld := ⟨3, 0⟩

/-- DBG_AUTH_NONCE_k: the nonce. -/
def DBG_AUTH_NONCE (k : Nat) : Nat := 0x40300010 + 0x4 * k
def DBG_AUTH_NONCE_nonce : Fld := ⟨31, 0⟩

/-- DBG_AUTH_DATA_k: key and signature. -/
def DBG_AUTH_DATA (k : Nat) : Nat := 0x40300040 + 0x4 * k
def DBG_AUTH_DATA_data : Fld := ⟨31, 0⟩

/-- DBG_CTRL: halt behaviour. -/
def DBG_CTRL : Nat := 0x40300100
def DBG_CTRL_wdog_freeze : Fld := ⟨31, 31⟩
def DBG_CTRL_brk_halt : Fld := ⟨30, 30⟩
def DBG_CTRL_tmr_freeze : Fld := ⟨15, 0⟩

/-- DBG_KILN_CTRL: Kiln run control. -/
def DBG_KILN_CTRL : Nat := 0x40300110
def DBG_KILN_CTRL_halt : Fld := ⟨31, 31⟩
def DBG_KILN_CTRL_resume : Fld := ⟨30, 30⟩
def DBG_KILN_CTRL_step : Fld := ⟨29, 29⟩
def DBG_KILN_CTRL_halted : Fld := ⟨28, 28⟩
def DBG_KILN_CTRL_mem_err : Fld := ⟨27, 27⟩

/-- DBG_HIT. -/
def DBG_HIT : Nat := 0x40300118
def DBG_HIT_value : Fld := ⟨31, 0⟩

/-- DBG_MEM_ADDR. -/
def DBG_MEM_ADDR : Nat := 0x40300120
def DBG_MEM_ADDR_value : Fld := ⟨31, 0⟩

/-- DBG_MEM_DATA. -/
def DBG_MEM_DATA : Nat := 0x40300124
def DBG_MEM_DATA_value : Fld := ⟨31, 0⟩

/-- DBG_KILN_REG_r: g0 to g15, then pc, status, then system registers 0x000 to 0x009. -/
def DBG_KILN_REG (r : Nat) : Nat := 0x40300200 + 0x4 * r
def DBG_KILN_REG_value : Fld := ⟨31, 0⟩

/-- DBG_BP_k: instruction comparator. -/
def DBG_BP (k : Nat) : Nat := 0x40300300 + 0x4 * k
def DBG_BP_addr : Fld := ⟨31, 1⟩
def DBG_BP_enable : Fld := ⟨0, 0⟩

/-- DBG_WP_k_LO: data comparator. -/
def DBG_WP_LO (k : Nat) : Nat := 0x40300320 + 0x10 * k
def DBG_WP_LO_addr : Fld := ⟨31, 0⟩

/-- DBG_WP_k_HI: data comparator. -/
def DBG_WP_HI (k : Nat) : Nat := 0x40300324 + 0x10 * k
def DBG_WP_HI_addr : Fld := ⟨31, 0⟩

/-- DBG_WP_k_CTRL: data comparator. -/
def DBG_WP_CTRL (k : Nat) : Nat := 0x40300328 + 0x10 * k
def DBG_WP_CTRL_enable : Fld := ⟨31, 31⟩
def DBG_WP_CTRL_halt : Fld := ⟨30, 30⟩
def DBG_WP_CTRL_kind : Fld := ⟨29, 28⟩

/-- DBG_THR_HALT_LO. -/
def DBG_THR_HALT_LO : Nat := 0x40300400
def DBG_THR_HALT_LO_threads : Fld := ⟨31, 0⟩

/-- DBG_THR_HALT_HI. -/
def DBG_THR_HALT_HI : Nat := 0x40300404
def DBG_THR_HALT_HI_threads : Fld := ⟨31, 0⟩

/-- DBG_THR_RESUME_LO. -/
def DBG_THR_RESUME_LO : Nat := 0x40300408
def DBG_THR_RESUME_LO_threads : Fld := ⟨31, 0⟩

/-- DBG_THR_RESUME_HI. -/
def DBG_THR_RESUME_HI : Nat := 0x4030040c
def DBG_THR_RESUME_HI_threads : Fld := ⟨31, 0⟩

/-- DBG_THR_SEL. -/
def DBG_THR_SEL : Nat := 0x40300410
def DBG_THR_SEL_thread : Fld := ⟨5, 0⟩

/-- DBG_THR_REG_r. -/
def DBG_THR_REG (r : Nat) : Nat := 0x40300440 + 0x4 * r
def DBG_THR_REG_value : Fld := ⟨31, 0⟩

/-- DBG_TRACE_CTRL. -/
def DBG_TRACE_CTRL : Nat := 0x40300500
def DBG_TRACE_CTRL_enable : Fld := ⟨31, 31⟩
def DBG_TRACE_CTRL_pins : Fld := ⟨30, 30⟩
def DBG_TRACE_CTRL_lost : Fld := ⟨15, 0⟩

/-- DBG_TRACE_BASE. -/
def DBG_TRACE_BASE : Nat := 0x40300504
def DBG_TRACE_BASE_value : Fld := ⟨31, 4⟩

/-- DBG_TRACE_SIZE. -/
def DBG_TRACE_SIZE : Nat := 0x40300508
def DBG_TRACE_SIZE_value : Fld := ⟨31, 4⟩

/-- DBG_TRACE_WR. -/
def DBG_TRACE_WR : Nat := 0x4030050c
def DBG_TRACE_WR_value : Fld := ⟨31, 4⟩

/-- DBG_BENCH: Bench tests. -/
def DBG_BENCH : Nat := 0x40300600
def DBG_BENCH_start : Fld := ⟨31, 28⟩
def DBG_BENCH_done : Fld := ⟨27, 24⟩
def DBG_BENCH_result : Fld := ⟨23, 0⟩

/-! Registers of `08_display_witness.md`. -/

/-- HEAD_n_WIT_RING_i: word i of the witness ring, entry q at word 16 * (q % 64). -/
def HEAD_WIT_RING (n i : Nat) : Nat := 0x40111000 + 0x10000 * n + 0x4 * i
def HEAD_WIT_RING_word : Fld := ⟨31, 0⟩

/-! The table, block by block. -/

def rowsSYS0 : List RegRow :=
  [⟨"SYS_ID_0", 0x40000000, 1, 0, 1, 0,
     [⟨SYS_ID_0_id, .ro, 0, []⟩]⟩,
   ⟨"SYS_ID_1", 0x40000004, 1, 0, 1, 0,
     [⟨SYS_ID_1_id, .ro, 0, []⟩]⟩,
   ⟨"SYS_ID_2", 0x40000008, 1, 0, 1, 0,
     [⟨SYS_ID_2_id, .ro, 0, []⟩]⟩,
   ⟨"SYS_BOOT", 0x40000010, 1, 0, 1, 0,
     [⟨SYS_BOOT_source, .ro, 0, []⟩, ⟨SYS_BOOT_cert_bad, .ro, 0, []⟩, ⟨SYS_BOOT_version, .ro, 0, []⟩]⟩,
   ⟨"SYS_PROFILE", 0x40000014, 1, 0, 1, 0,
     [⟨SYS_PROFILE_pins, .ro, 0, []⟩, ⟨SYS_PROFILE_cur, .ro, 0xff, []⟩, ⟨SYS_PROFILE_permitted, .ro, 0, []⟩]⟩,
   ⟨"SYS_WDOG_CTRL", 0x40000040, 1, 0, 1, 0,
     [⟨SYS_WDOG_CTRL_enable, .w1s, 0, []⟩, ⟨SYS_WDOG_CTRL_expired, .ro, 0, []⟩, ⟨SYS_WDOG_CTRL_bad_kick, .rc, 0, []⟩, ⟨SYS_WDOG_CTRL_timeout, .rw, 0x3e8, [(1, 65535)]⟩]⟩,
   ⟨"SYS_WDOG_KICK", 0x40000044, 1, 0, 1, 0,
     [⟨SYS_WDOG_KICK_key, .wo, 0, []⟩]⟩,
   ⟨"SYS_ALERT", 0x40000048, 1, 0, 1, 0,
     [⟨SYS_ALERT_fw, .rw, 0, []⟩, ⟨SYS_ALERT_wdog, .ro, 0, []⟩, ⟨SYS_ALERT_lockup, .ro, 0, []⟩, ⟨SYS_ALERT_boot, .ro, 0, []⟩, ⟨SYS_ALERT_level, .ro, 0, []⟩]⟩]

/-- The register map of block SYS. -/
def rowsSYS : List RegRow := rowsSYS0

def rowsCLK0 : List RegRow :=
  [⟨"CLK_SRC", 0x40010000, 1, 0, 1, 0,
     [⟨CLK_SRC_refused, .w1c, 0, []⟩, ⟨CLK_SRC_ember_cur, .ro, 0, []⟩, ⟨CLK_SRC_xa_en, .rw, 1, []⟩, ⟨CLK_SRC_xb_en, .rw, 0, []⟩, ⟨CLK_SRC_ember_sel, .rw, 0, []⟩]⟩,
   ⟨"CLK_OSC_STAT", 0x40010004, 1, 0, 1, 0,
     [⟨CLK_OSC_STAT_xa_stable, .ro, 0, []⟩, ⟨CLK_OSC_STAT_xb_stable, .ro, 0, []⟩, ⟨CLK_OSC_STAT_xa_lost, .w1c, 0, []⟩, ⟨CLK_OSC_STAT_xb_lost, .w1c, 0, []⟩, ⟨CLK_OSC_STAT_holdover, .ro, 0, []⟩]⟩,
   ⟨"CLK_FRC_TRIM", 0x40010008, 1, 0, 1, 0,
     [⟨CLK_FRC_TRIM_busy, .ro, 0, []⟩, ⟨CLK_FRC_TRIM_code, .rw, 0, []⟩]⟩,
   ⟨"CLK_ROOT", 0x4001000c, 1, 0, 1, 0,
     [⟨CLK_ROOT_refused, .w1c, 0, []⟩, ⟨CLK_ROOT_cur, .ro, 0, []⟩, ⟨CLK_ROOT_sel, .rw, 0, []⟩]⟩,
   ⟨"CLK_PLL_CTRL", 0x40010100, 1, 0x10, 1, 0,
     [⟨CLK_PLL_CTRL_enable, .rw, 0, []⟩, ⟨CLK_PLL_CTRL_locked, .ro, 0, []⟩, ⟨CLK_PLL_CTRL_refused, .w1c, 0, []⟩, ⟨CLK_PLL_CTRL_ceil, .w1c, 0, []⟩, ⟨CLK_PLL_CTRL_s, .rw, 0, []⟩, ⟨CLK_PLL_CTRL_t, .rw, 0, []⟩, ⟨CLK_PLL_CTRL_div, .ro, 0, []⟩, ⟨CLK_PLL_CTRL_n, .rw, 0xf0, []⟩]⟩,
   ⟨"CLK_PLL_CTRL", 0x40010110, 1, 0x10, 1, 0,
     [⟨CLK_PLL_CTRL_enable, .rw, 0, []⟩, ⟨CLK_PLL_CTRL_locked, .ro, 0, []⟩, ⟨CLK_PLL_CTRL_refused, .w1c, 0, []⟩, ⟨CLK_PLL_CTRL_ceil, .w1c, 0, []⟩, ⟨CLK_PLL_CTRL_div, .rw, 3, []⟩, ⟨CLK_PLL_CTRL_n, .rw, 0xa0, []⟩]⟩,
   ⟨"CLK_PLL_CTRL", 0x40010120, 1, 0x10, 1, 0,
     [⟨CLK_PLL_CTRL_enable, .rw, 0, []⟩, ⟨CLK_PLL_CTRL_locked, .ro, 0, []⟩, ⟨CLK_PLL_CTRL_refused, .w1c, 0, []⟩, ⟨CLK_PLL_CTRL_ceil, .w1c, 0, []⟩, ⟨CLK_PLL_CTRL_div, .rw, 3, []⟩, ⟨CLK_PLL_CTRL_n, .rw, 0xaa, []⟩]⟩,
   ⟨"CLK_PLL_CTRL", 0x40010130, 1, 0x10, 1, 0,
     [⟨CLK_PLL_CTRL_enable, .rw, 0, []⟩, ⟨CLK_PLL_CTRL_locked, .ro, 0, []⟩, ⟨CLK_PLL_CTRL_refused, .w1c, 0, []⟩, ⟨CLK_PLL_CTRL_ceil, .w1c, 0, []⟩, ⟨CLK_PLL_CTRL_div, .rw, 4, []⟩, ⟨CLK_PLL_CTRL_n, .rw, 0xa0, []⟩]⟩,
   ⟨"CLK_PLL_CTRL", 0x40010140, 1, 0x10, 1, 0,
     [⟨CLK_PLL_CTRL_enable, .rw, 0, []⟩, ⟨CLK_PLL_CTRL_locked, .ro, 0, []⟩, ⟨CLK_PLL_CTRL_refused, .w1c, 0, []⟩, ⟨CLK_PLL_CTRL_ceil, .w1c, 0, []⟩, ⟨CLK_PLL_CTRL_div, .rw, 0x27, []⟩, ⟨CLK_PLL_CTRL_n, .rw, 0x9d, []⟩]⟩,
   ⟨"CLK_PLL_CTRL", 0x40010150, 4, 0x10, 1, 0,
     [⟨CLK_PLL_CTRL_enable, .ro, 0, []⟩, ⟨CLK_PLL_CTRL_locked, .ro, 0, []⟩, ⟨CLK_PLL_CTRL_refused, .w1c, 0, []⟩, ⟨CLK_PLL_CTRL_ceil, .w1c, 0, []⟩, ⟨CLK_PLL_CTRL_div, .ro, 0, []⟩, ⟨CLK_PLL_CTRL_n, .ro, 0, []⟩]⟩,
   ⟨"CLK_PLL_FRAC", 0x40010104, 2, 0x10, 1, 0,
     [⟨CLK_PLL_FRAC_frac, .rw, 0, []⟩]⟩,
   ⟨"CLK_PLL_FRAC", 0x40010124, 1, 0x10, 1, 0,
     [⟨CLK_PLL_FRAC_frac, .rw, 0x8f5c3, []⟩]⟩,
   ⟨"CLK_PLL_FRAC", 0x40010134, 1, 0x10, 1, 0,
     [⟨CLK_PLL_FRAC_frac, .rw, 0, []⟩]⟩,
   ⟨"CLK_PLL_FRAC", 0x40010144, 1, 0x10, 1, 0,
     [⟨CLK_PLL_FRAC_frac, .rw, 0x49518, []⟩]⟩,
   ⟨"CLK_PLL_FRAC", 0x40010154, 4, 0x10, 1, 0,
     [⟨CLK_PLL_FRAC_frac, .ro, 0, []⟩]⟩,
   ⟨"CLK_MEAS", 0x40010200, 1, 0, 1, 0,
     [⟨CLK_MEAS_go, .w1s, 0, []⟩, ⟨CLK_MEAS_busy, .ro, 0, []⟩, ⟨CLK_MEAS_invert, .rw, 0, []⟩, ⟨CLK_MEAS_mixed, .w1c, 0, []⟩, ⟨CLK_MEAS_w, .rw, 0x10, [(10, 20)]⟩, ⟨CLK_MEAS_target, .rw, 0, [(0, 15)]⟩]⟩]

def rowsCLK1 : List RegRow :=
  [⟨"CLK_MEAS_RES", 0x40010204, 1, 0, 1, 0,
     [⟨CLK_MEAS_RES_count, .ro, 0, []⟩]⟩,
   ⟨"CLK_EVT", 0x40010300, 1, 0, 1, 0,
     [⟨CLK_EVT_meas_done, .w1c, 0, []⟩, ⟨CLK_EVT_unlock, .w1c, 0, []⟩]⟩]

/-- The register map of block CLK. -/
def rowsCLK : List RegRow := rowsCLK0 ++ rowsCLK1

def rowsRST0 : List RegRow :=
  [⟨"RST_CAUSE", 0x40020000, 1, 0, 1, 0,
     [⟨RST_CAUSE_fuse_interrupted, .ro, 0, []⟩, ⟨RST_CAUSE_level, .ro, 0, []⟩, ⟨RST_CAUSE_source, .ro, 0, []⟩]⟩]

/-- The register map of block RST. -/
def rowsRST : List RegRow := rowsRST0

def rowsPWR0 : List RegRow :=
  [⟨"PWR_STATE", 0x40030000, 1, 0, 1, 0,
     [⟨PWR_STATE_midnight, .w1s, 0, []⟩, ⟨PWR_STATE_state, .rw, 0, [(0, 2)]⟩]⟩,
   ⟨"PWR_SEQ", 0x40030010, 5, 0x4, 1, 0,
     [⟨PWR_SEQ_timeout, .rw, 0x14, [(1, 255)]⟩, ⟨PWR_SEQ_delay, .rw, 0xa, []⟩]⟩,
   ⟨"PWR_STAT", 0x40030030, 1, 0, 1, 0,
     [⟨PWR_STAT_pg_fault, .w1c, 0, []⟩, ⟨PWR_STAT_fault_rail, .ro, 0, []⟩, ⟨PWR_STAT_pg_stuck, .w1c, 0, []⟩, ⟨PWR_STAT_pmbus_fault, .w1c, 0, []⟩, ⟨PWR_STAT_en, .ro, 1, []⟩, ⟨PWR_STAT_pg, .ro, 0, []⟩]⟩,
   ⟨"PWR_PMBUS", 0x40030040, 1, 0, 1, 0,
     [⟨PWR_PMBUS_fast, .rw, 0, []⟩, ⟨PWR_PMBUS_page_en, .rw, 0, []⟩, ⟨PWR_PMBUS_addr, .rw, 0, []⟩, ⟨PWR_PMBUS_page, .rw, 0, []⟩, ⟨PWR_PMBUS_exp, .rw, 0x14, []⟩]⟩,
   ⟨"PWR_AVS", 0x40030044, 1, 0, 1, 0,
     [⟨PWR_AVS_enable, .rw, 0, []⟩, ⟨PWR_AVS_max_mv, .rw, 0x370, []⟩, ⟨PWR_AVS_min_mv, .rw, 0x2d0, []⟩]⟩,
   ⟨"PWR_AVS_STAT", 0x40030048, 1, 0, 1, 0,
     [⟨PWR_AVS_STAT_status_word, .ro, 0, []⟩, ⟨PWR_AVS_STAT_vout_mv, .ro, 0, []⟩]⟩,
   ⟨"PWR_THERM", 0x40030050, 1, 0, 1, 0,
     [⟨PWR_THERM_trip, .w1c, 0, []⟩, ⟨PWR_THERM_clr_refused, .w1c, 0, []⟩, ⟨PWR_THERM_throttle, .ro, 0, []⟩, ⟨PWR_THERM_changed, .w1c, 0, []⟩, ⟨PWR_THERM_cool_s, .rw, 0xa, []⟩]⟩,
   ⟨"PWR_WAKE", 0x40030060, 1, 0, 1, 0,
     [⟨PWR_WAKE_rtc_en, .rw, 0, []⟩, ⟨PWR_WAKE_pin_edge, .rw, 0, []⟩, ⟨PWR_WAKE_pin_pol, .rw, 0, []⟩, ⟨PWR_WAKE_pin_en, .rw, 0, []⟩]⟩,
   ⟨"PWR_WAKE_CAUSE", 0x40030064, 1, 0, 1, 0,
     [⟨PWR_WAKE_CAUSE_valid, .w1c, 0, []⟩, ⟨PWR_WAKE_CAUSE_entry, .ro, 0, []⟩, ⟨PWR_WAKE_CAUSE_rtc, .ro, 0, []⟩, ⟨PWR_WAKE_CAUSE_pins, .ro, 0, []⟩]⟩,
   ⟨"PWR_RTC", 0x40030070, 1, 0, 1, 0,
     [⟨PWR_RTC_seconds, .ro, 0, []⟩]⟩,
   ⟨"PWR_RTC_ALARM", 0x40030074, 1, 0, 1, 0,
     [⟨PWR_RTC_ALARM_seconds, .rw, 0, []⟩]⟩]

/-- The register map of block PWR. -/
def rowsPWR : List RegRow := rowsPWR0

def rowsFUSE0 : List RegRow :=
  [⟨"FUSE_STAT", 0x40040000, 1, 0, 1, 0,
     [⟨FUSE_STAT_loaded, .ro, 0, []⟩, ⟨FUSE_STAT_fault, .ro, 0, []⟩, ⟨FUSE_STAT_fails, .ro, 0, []⟩]⟩,
   ⟨"FUSE_PROG", 0x40040004, 1, 0, 1, 0,
     [⟨FUSE_PROG_go, .w1s, 0, []⟩, ⟨FUSE_PROG_refused, .w1c, 0, []⟩, ⟨FUSE_PROG_bit, .rw, 0, []⟩]⟩,
   ⟨"FUSE_WORD", 0x40040100, 256, 0x4, 1, 0,
     [⟨FUSE_WORD_bits, .ro, 0, []⟩]⟩]

/-- The register map of block FUSE. -/
def rowsFUSE : List RegRow := rowsFUSE0

def rowsPIN0 : List RegRow :=
  [⟨"PIN_BANK", 0x40050000, 6, 0x4, 1, 0,
     [⟨PIN_BANK_bad, .ro, 1, []⟩, ⟨PIN_BANK_vdet, .ro, 0, []⟩, ⟨PIN_BANK_vsel, .rw, 0, []⟩]⟩,
   ⟨"PIN_CFG", 0x40050100, 96, 0x4, 1, 0,
     [⟨PIN_CFG_func, .ro, 0, []⟩, ⟨PIN_CFG_retained, .ro, 0, []⟩, ⟨PIN_CFG_actuator, .ro, 0, []⟩, ⟨PIN_CFG_analog, .rw, 0, []⟩, ⟨PIN_CFG_hyst, .rw, 1, []⟩, ⟨PIN_CFG_drive, .rw, 1, []⟩, ⟨PIN_CFG_slow, .rw, 0, []⟩, ⟨PIN_CFG_pull, .rw, 1, [(0, 2)]⟩]⟩,
   ⟨"PIN_ISEL", 0x40050300, 28, 0x4, 1, 0,
     [⟨PIN_ISEL_combine, .rw, 0, []⟩, ⟨PIN_ISEL_alt, .rw, 0, [(0, 95)]⟩]⟩,
   ⟨"PIN_EXTL", 0x40050400, 16, 0x4, 1, 0,
     [⟨PIN_EXTL_enable, .rw, 0, []⟩, ⟨PIN_EXTL_miss, .rc, 0, []⟩, ⟨PIN_EXTL_filt, .rw, 0, []⟩, ⟨PIN_EXTL_fclk, .rw, 0, []⟩, ⟨PIN_EXTL_bank, .rw, 0, [(0, 5)]⟩]⟩,
   ⟨"PIN_GUARD_CFG", 0x40050500, 1, 0, 1, 0,
     [⟨PIN_GUARD_CFG_enable0, .rw, 0, []⟩, ⟨PIN_GUARD_CFG_active_high0, .rw, 0, []⟩, ⟨PIN_GUARD_CFG_filter0, .rw, 0, []⟩, ⟨PIN_GUARD_CFG_enable1, .rw, 0, []⟩, ⟨PIN_GUARD_CFG_active_high1, .rw, 0, []⟩, ⟨PIN_GUARD_CFG_filter1, .rw, 0, []⟩, ⟨PIN_GUARD_CFG_enable2, .rw, 0, []⟩, ⟨PIN_GUARD_CFG_active_high2, .rw, 0, []⟩, ⟨PIN_GUARD_CFG_filter2, .rw, 0, []⟩, ⟨PIN_GUARD_CFG_enable3, .rw, 0, []⟩, ⟨PIN_GUARD_CFG_active_high3, .rw, 0, []⟩, ⟨PIN_GUARD_CFG_filter3, .rw, 0, []⟩]⟩,
   ⟨"PIN_GUARD_STAT", 0x40050504, 1, 0, 1, 0,
     [⟨PIN_GUARD_STAT_trips, .rc, 0, []⟩, ⟨PIN_GUARD_STAT_clr_refused, .w1c, 0, []⟩, ⟨PIN_GUARD_STAT_level, .ro, 0, []⟩, ⟨PIN_GUARD_STAT_tripped, .w1c, 0, []⟩]⟩,
   ⟨"PIN_SAFE", 0x40050508, 1, 0, 1, 0,
     [⟨PIN_SAFE_lock, .w1s, 0, []⟩, ⟨PIN_SAFE_safe_n, .ro, 0, []⟩, ⟨PIN_SAFE_release, .rw, 0, []⟩]⟩]

/-- The register map of block PIN. -/
def rowsPIN : List RegRow := rowsPIN0

def rowsTMR0 : List RegRow :=
  [⟨"TMR_CTRL", 0x40060000, 16, 0x20, 1, 0,
     [⟨TMR_CTRL_run, .rw, 0, []⟩, ⟨TMR_CTRL_pin_en, .rw, 0, []⟩, ⟨TMR_CTRL_src, .rw, 0, []⟩, ⟨TMR_CTRL_tb_bit, .rw, 2, [(2, 31)]⟩, ⟨TMR_CTRL_out_mode, .rw, 0, []⟩, ⟨TMR_CTRL_trig_sel, .rw, 0, [(0, 2)]⟩, ⟨TMR_CTRL_late_fire, .rw, 1, []⟩, ⟨TMR_CTRL_div, .rw, 0, []⟩]⟩,
   ⟨"TMR_IN", 0x40060004, 16, 0x20, 1, 0,
     [⟨TMR_IN_start_trig, .rw, 0, [(0, 16)]⟩, ⟨TMR_IN_edge, .rw, 0, []⟩, ⟨TMR_IN_prescale, .rw, 0, []⟩, ⟨TMR_IN_filt, .rw, 0, []⟩, ⟨TMR_IN_fclk, .rw, 0, []⟩]⟩,
   ⟨"TMR_CNT", 0x40060008, 16, 0x20, 1, 0,
     [⟨TMR_CNT_value, .rw, 0, []⟩]⟩,
   ⟨"TMR_TOP", 0x4006000c, 16, 0x20, 1, 0,
     [⟨TMR_TOP_value, .rw, 0xffffffff, []⟩]⟩,
   ⟨"TMR_CMP", 0x40060010, 16, 0x20, 1, 0,
     [⟨TMR_CMP_value, .rw, 0, []⟩]⟩,
   ⟨"TMR_CAP", 0x40060014, 16, 0x20, 1, 0,
     [⟨TMR_CAP_value, .ro, 0, []⟩]⟩,
   ⟨"TMR_CAP_TB", 0x40060018, 16, 0x20, 1, 0,
     [⟨TMR_CAP_TB_value, .ro, 0, []⟩]⟩,
   ⟨"TMR_STAT", 0x4006001c, 16, 0x20, 1, 0,
     [⟨TMR_STAT_cap_full, .ro, 0, []⟩, ⟨TMR_STAT_cap_ovr, .w1c, 0, []⟩, ⟨TMR_STAT_edge_ovr, .w1c, 0, []⟩, ⟨TMR_STAT_late, .w1c, 0, []⟩, ⟨TMR_STAT_match, .w1c, 0, []⟩, ⟨TMR_STAT_wrap, .w1c, 0, []⟩, ⟨TMR_STAT_pending, .ro, 0, []⟩]⟩]

/-- The register map of block TMR. -/
def rowsTMR : List RegRow := rowsTMR0

def rowsTB0 : List RegRow :=
  [⟨"TB_CTRL", 0x40070000, 1, 0, 1, 0,
     [⟨TB_CTRL_mono, .rw, 0, []⟩, ⟨TB_CTRL_steps, .rc, 0, []⟩, ⟨TB_CTRL_step_refused, .w1c, 0, []⟩]⟩,
   ⟨"TB_ADJ", 0x40070004, 1, 0, 1, 0,
     [⟨TB_ADJ_ppb, .rw, 0, []⟩]⟩,
   ⟨"TB_STEP", 0x40070008, 1, 0, 1, 0,
     [⟨TB_STEP_delta, .wo, 0, []⟩]⟩,
   ⟨"TB_LO", 0x40070010, 4, 0x8, 1, 0,
     [⟨TB_LO_value, .ro, 0, []⟩]⟩,
   ⟨"TB_HI", 0x40070014, 4, 0x8, 1, 0,
     [⟨TB_HI_value, .ro, 0, []⟩]⟩]

/-- The register map of block TB. -/
def rowsTB : List RegRow := rowsTB0

def rowsADC0 : List RegRow :=
  [⟨"ADC_CTRL", 0x40080000, 1, 0, 1, 0,
     [⟨ADC_CTRL_start, .w1s, 0, []⟩, ⟨ADC_CTRL_cont, .rw, 0, []⟩, ⟨ADC_CTRL_busy, .ro, 0, []⟩, ⟨ADC_CTRL_seq_ovr, .w1c, 0, []⟩, ⟨ADC_CTRL_trig, .rw, 0, [(0, 16)]⟩]⟩,
   ⟨"ADC_SEQ", 0x40080004, 1, 0, 1, 0,
     [⟨ADC_SEQ_mask, .rw, 0, []⟩]⟩,
   ⟨"ADC_LIMIT", 0x40080008, 1, 0, 1, 0,
     [⟨ADC_LIMIT_limit, .w1c, 0, []⟩]⟩,
   ⟨"ADC_RES", 0x40080100, 21, 0x4, 1, 0,
     [⟨ADC_RES_valid, .rc, 0, []⟩, ⟨ADC_RES_ovr, .w1c, 0, []⟩, ⟨ADC_RES_value, .ro, 0, []⟩]⟩,
   ⟨"ADC_LIM", 0x40080200, 21, 0x4, 1, 0,
     [⟨ADC_LIM_hi, .rw, 0x7fff, []⟩, ⟨ADC_LIM_lo, .rw, 0x8000, []⟩]⟩]

/-- The register map of block ADC. -/
def rowsADC : List RegRow := rowsADC0

def rowsINTC0 : List RegRow :=
  [⟨"INTC_SRC", 0x40090000, 32, 0x4, 1, 0,
     [⟨INTC_SRC_enable, .rw, 0, []⟩, ⟨INTC_SRC_storm, .w1c, 0, []⟩, ⟨INTC_SRC_state, .ro, 0, []⟩, ⟨INTC_SRC_dest, .rw, 0, [(0, 2)]⟩, ⟨INTC_SRC_sense, .ro, 0, [(0, 4)]⟩, ⟨INTC_SRC_db, .rw, 0, []⟩, ⟨INTC_SRC_hold_en, .rw, 0, []⟩, ⟨INTC_SRC_group, .rw, 0, []⟩, ⟨INTC_SRC_prio, .rw, 0, []⟩]⟩,
   ⟨"INTC_SRC", 0x40090080, 16, 0x4, 1, 0,
     [⟨INTC_SRC_enable, .rw, 0, []⟩, ⟨INTC_SRC_storm, .w1c, 0, []⟩, ⟨INTC_SRC_state, .ro, 0, []⟩, ⟨INTC_SRC_dest, .rw, 0, [(0, 2)]⟩, ⟨INTC_SRC_sense, .rw, 0, [(0, 4)]⟩, ⟨INTC_SRC_db, .rw, 0, []⟩, ⟨INTC_SRC_hold_en, .rw, 0, []⟩, ⟨INTC_SRC_group, .rw, 0, []⟩, ⟨INTC_SRC_prio, .rw, 0, []⟩]⟩,
   ⟨"INTC_SRC", 0x400900c0, 208, 0x4, 1, 0,
     [⟨INTC_SRC_enable, .rw, 0, []⟩, ⟨INTC_SRC_storm, .w1c, 0, []⟩, ⟨INTC_SRC_state, .ro, 0, []⟩, ⟨INTC_SRC_dest, .rw, 0, [(0, 2)]⟩, ⟨INTC_SRC_sense, .ro, 0, [(0, 4)]⟩, ⟨INTC_SRC_db, .rw, 0, []⟩, ⟨INTC_SRC_hold_en, .rw, 0, []⟩, ⟨INTC_SRC_group, .rw, 0, []⟩, ⟨INTC_SRC_prio, .rw, 0, []⟩]⟩,
   ⟨"INTC_EOI", 0x40090400, 1, 0, 1, 0,
     [⟨INTC_EOI_source, .wo, 0, []⟩]⟩,
   ⟨"INTC_HOLD", 0x40090500, 16, 0x4, 1, 0,
     [⟨INTC_HOLD_running, .ro, 0, []⟩, ⟨INTC_HOLD_time, .rw, 0, []⟩]⟩,
   ⟨"INTC_STAT", 0x40090600, 1, 0, 1, 0,
     [⟨INTC_STAT_any, .ro, 0, []⟩, ⟨INTC_STAT_top, .ro, 0, []⟩, ⟨INTC_STAT_storms, .rc, 0, []⟩]⟩,
   ⟨"INTC_PEND", 0x40090700, 8, 0x4, 1, 0,
     [⟨INTC_PEND_pend, .ro, 0, []⟩]⟩]

/-- The register map of block INTC. -/
def rowsINTC : List RegRow := rowsINTC0

def rowsMBX0 : List RegRow :=
  [⟨"MBX_DATA", 0x400a0000, 8, 0x100, 16, 0x4,
     [⟨MBX_DATA_data, .rw, 0, []⟩]⟩,
   ⟨"MBX_CTRL", 0x400a0040, 8, 0x100, 1, 0,
     [⟨MBX_CTRL_go, .w1s, 0, []⟩, ⟨MBX_CTRL_ack, .w1s, 0, []⟩, ⟨MBX_CTRL_len, .rw, 0, [(0, 16)]⟩]⟩,
   ⟨"MBX_LOCK", 0x400a0044, 8, 0x100, 1, 0,
     [⟨MBX_LOCK_force, .wo, 0, []⟩, ⟨MBX_LOCK_owner, .rw, 0, []⟩]⟩,
   ⟨"MBX_STAT", 0x400a0048, 8, 0x100, 1, 0,
     [⟨MBX_STAT_refused, .w1c, 0, []⟩, ⟨MBX_STAT_holder, .ro, 0, []⟩]⟩,
   ⟨"HOST_DB", 0x400a1000, 1, 0, 1, 0,
     [⟨HOST_DB_bits, .ro, 0, []⟩]⟩,
   ⟨"HOST_DB_SET", 0x400a1004, 1, 0, 1, 0,
     [⟨HOST_DB_SET_bits, .w1s, 0, []⟩]⟩,
   ⟨"HOST_DB_CLR", 0x400a1008, 1, 0, 1, 0,
     [⟨HOST_DB_CLR_bits, .w1c, 0, []⟩]⟩,
   ⟨"HOST_DB_MASK", 0x400a100c, 1, 0, 1, 0,
     [⟨HOST_DB_MASK_bits, .rw, 0, []⟩]⟩,
   ⟨"KILN_DB", 0x400a1010, 1, 0, 1, 0,
     [⟨KILN_DB_bits, .ro, 0, []⟩]⟩,
   ⟨"KILN_DB_SET", 0x400a1014, 1, 0, 1, 0,
     [⟨KILN_DB_SET_bits, .w1s, 0, []⟩]⟩,
   ⟨"KILN_DB_CLR", 0x400a1018, 1, 0, 1, 0,
     [⟨KILN_DB_CLR_bits, .w1c, 0, []⟩]⟩,
   ⟨"KILN_DB_MASK", 0x400a101c, 1, 0, 1, 0,
     [⟨KILN_DB_MASK_bits, .rw, 0, []⟩]⟩,
   ⟨"KIND_DB", 0x400a1020, 1, 0, 1, 0,
     [⟨KIND_DB_bits, .ro, 0, []⟩]⟩,
   ⟨"KIND_DB_SET", 0x400a1024, 1, 0, 1, 0,
     [⟨KIND_DB_SET_bits, .w1s, 0, []⟩]⟩,
   ⟨"KIND_DB_CLR", 0x400a1028, 1, 0, 1, 0,
     [⟨KIND_DB_CLR_bits, .w1c, 0, []⟩]⟩,
   ⟨"KIND_DB_MASK", 0x400a102c, 1, 0, 1, 0,
     [⟨KIND_DB_MASK_bits, .rw, 0, []⟩]⟩]

def rowsMBX1 : List RegRow :=
  [⟨"MBX_AGENT", 0x400a1100, 1, 0, 1, 0,
     [⟨MBX_AGENT_en_6, .rw, 0, []⟩, ⟨MBX_AGENT_en_7, .rw, 0, []⟩, ⟨MBX_AGENT_bad, .rc, 0, []⟩]⟩]

/-- The register map of block MBX. -/
def rowsMBX : List RegRow := rowsMBX0 ++ rowsMBX1

def rowsDMA0 : List RegRow :=
  [⟨"DMA_CH_CTRL", 0x400b0000, 16, 0x20, 1, 0,
     [⟨DMA_CH_CTRL_go, .w1s, 0, []⟩, ⟨DMA_CH_CTRL_abort, .w1s, 0, []⟩, ⟨DMA_CH_CTRL_pause, .rw, 0, []⟩, ⟨DMA_CH_CTRL_trig_sw, .w1s, 0, []⟩, ⟨DMA_CH_CTRL_prio, .rw, 0, []⟩]⟩,
   ⟨"DMA_CH_DESC", 0x400b0004, 16, 0x20, 1, 0,
     [⟨DMA_CH_DESC_addr, .rw, 0, []⟩]⟩,
   ⟨"DMA_CH_STAT", 0x400b0008, 16, 0x20, 1, 0,
     [⟨DMA_CH_STAT_state, .ro, 0, []⟩, ⟨DMA_CH_STAT_overlap, .w1c, 0, []⟩, ⟨DMA_CH_STAT_trig_ovr, .w1c, 0, []⟩, ⟨DMA_CH_STAT_aborted, .w1c, 0, []⟩, ⟨DMA_CH_STAT_trig_pend, .ro, 0, []⟩, ⟨DMA_CH_STAT_err, .ro, 0, []⟩]⟩,
   ⟨"DMA_CH_POS", 0x400b000c, 16, 0x20, 1, 0,
     [⟨DMA_CH_POS_line, .ro, 0, []⟩, ⟨DMA_CH_POS_byte, .ro, 0, []⟩]⟩,
   ⟨"DMA_INT_STAT", 0x400b0400, 1, 0, 1, 0,
     [⟨DMA_INT_STAT_error, .w1c, 0, []⟩, ⟨DMA_INT_STAT_done, .w1c, 0, []⟩]⟩,
   ⟨"DMA_INT_MASK", 0x400b0404, 1, 0, 1, 0,
     [⟨DMA_INT_MASK_mask, .rw, 0, []⟩]⟩,
   ⟨"DMA_ARB", 0x400b0408, 1, 0, 1, 0,
     [⟨DMA_ARB_age, .rw, 0x40, []⟩]⟩]

/-- The register map of block DMA. -/
def rowsDMA : List RegRow := rowsDMA0

def rowsBLK0 : List RegRow :=
  [⟨"BLK_CTRL", 0x400c0000, 1, 0, 1, 0,
     [⟨BLK_CTRL_go, .w1s, 0, []⟩, ⟨BLK_CTRL_abort, .w1s, 0, []⟩]⟩,
   ⟨"BLK_LIST", 0x400c0004, 1, 0, 1, 0,
     [⟨BLK_LIST_base, .rw, 0, []⟩]⟩,
   ⟨"BLK_SURF", 0x400c0008, 1, 0, 1, 0,
     [⟨BLK_SURF_base, .rw, 0, []⟩]⟩,
   ⟨"BLK_PACE", 0x400c000c, 1, 0, 1, 0,
     [⟨BLK_PACE_dead, .rw, 0, []⟩]⟩,
   ⟨"BLK_STAT", 0x400c0010, 1, 0, 1, 0,
     [⟨BLK_STAT_running, .ro, 0, []⟩, ⟨BLK_STAT_done, .w1c, 0, []⟩, ⟨BLK_STAT_wait_off, .w1c, 0, []⟩, ⟨BLK_STAT_sig, .w1c, 0, []⟩, ⟨BLK_STAT_err, .w1c, 0, []⟩, ⟨BLK_STAT_err_cmd, .ro, 0, []⟩]⟩,
   ⟨"BLK_WMARK", 0x400c0020, 4, 0x4, 1, 0,
     [⟨BLK_WMARK_enable, .rw, 0, []⟩, ⟨BLK_WMARK_head, .rw, 0, []⟩, ⟨BLK_WMARK_line, .rw, 0, []⟩]⟩,
   ⟨"BLK_CNT", 0x400c0030, 1, 0, 1, 0,
     [⟨BLK_CNT_commands, .rc, 0, []⟩, ⟨BLK_CNT_rejected, .rc, 0, []⟩]⟩]

/-- The register map of block BLK. -/
def rowsBLK : List RegRow := rowsBLK0

def rowsAUD0 : List RegRow :=
  [⟨"AUD_BLOCK", 0x400d0000, 1, 0, 1, 0,
     [⟨AUD_BLOCK_count, .ro, 0, []⟩]⟩,
   ⟨"AUD_CNT", 0x400d0004, 1, 0, 1, 0,
     [⟨AUD_CNT_clip, .rc, 0, []⟩, ⟨AUD_CNT_late, .rc, 0, []⟩, ⟨AUD_CNT_fault, .rc, 0, []⟩]⟩,
   ⟨"AUD_VEND", 0x400d0010, 4, 0x4, 1, 0,
     [⟨AUD_VEND_ended, .w1c, 0, []⟩]⟩,
   ⟨"AUD_V_CTRL", 0x400d1000, 128, 0x20, 1, 0,
     [⟨AUD_V_CTRL_key_on, .w1s, 0, []⟩, ⟨AUD_V_CTRL_key_off, .w1s, 0, []⟩, ⟨AUD_V_CTRL_state, .ro, 0, []⟩, ⟨AUD_V_CTRL_fault, .w1c, 0, []⟩, ⟨AUD_V_CTRL_format, .rw, 1, [(0, 3)]⟩, ⟨AUD_V_CTRL_loop, .rw, 0, []⟩, ⟨AUD_V_CTRL_bus, .rw, 0, []⟩]⟩,
   ⟨"AUD_V_START", 0x400d1004, 128, 0x20, 1, 0,
     [⟨AUD_V_START_addr, .rw, 0, []⟩]⟩,
   ⟨"AUD_V_LOOP", 0x400d1008, 128, 0x20, 1, 0,
     [⟨AUD_V_LOOP_index, .rw, 0, []⟩]⟩,
   ⟨"AUD_V_END", 0x400d100c, 128, 0x20, 1, 0,
     [⟨AUD_V_END_index, .rw, 0, []⟩]⟩,
   ⟨"AUD_V_STEP", 0x400d1010, 128, 0x20, 1, 0,
     [⟨AUD_V_STEP_step, .rw, 0x10000, [(256, 524288)]⟩]⟩,
   ⟨"AUD_V_GAIN", 0x400d1014, 128, 0x20, 1, 0,
     [⟨AUD_V_GAIN_gain_l, .rw, 0x8000, []⟩, ⟨AUD_V_GAIN_gain_r, .rw, 0x8000, []⟩]⟩,
   ⟨"AUD_V_POS", 0x400d1018, 128, 0x20, 1, 0,
     [⟨AUD_V_POS_index, .ro, 0, []⟩, ⟨AUD_V_POS_frac, .ro, 0, []⟩]⟩,
   ⟨"AUD_BUS_CTRL", 0x400d2000, 16, 0x10, 1, 0,
     [⟨AUD_BUS_CTRL_autoscale, .rw, 0, []⟩, ⟨AUD_BUS_CTRL_nref, .rw, 1, [(1, 127)]⟩, ⟨AUD_BUS_CTRL_send_en, .rw, 0, []⟩, ⟨AUD_BUS_CTRL_send, .rw, 0, []⟩, ⟨AUD_BUS_CTRL_gain, .rw, 0x8000, []⟩]⟩,
   ⟨"AUD_BUS_FX", 0x400d2004, 16, 0x10, 1, 0,
     [⟨AUD_BUS_FX_fx_en, .rw, 0, []⟩, ⟨AUD_BUS_FX_fx_over, .ro, 0, []⟩, ⟨AUD_BUS_FX_length, .rw, 0, [(1, 1536)]⟩, ⟨AUD_BUS_FX_start, .rw, 0, []⟩]⟩,
   ⟨"AUD_BUS_DLY", 0x400d2008, 16, 0x10, 1, 0,
     [⟨AUD_BUS_DLY_base, .rw, 0, []⟩]⟩,
   ⟨"AUD_BUS_DLYLEN", 0x400d200c, 16, 0x10, 1, 0,
     [⟨AUD_BUS_DLYLEN_len, .rw, 0x20, [(32, 65536)]⟩]⟩,
   ⟨"AUD_OUT", 0x400d2200, 72, 0x4, 1, 0,
     [⟨AUD_OUT_enable, .rw, 0, []⟩, ⟨AUD_OUT_bus, .rw, 0, []⟩, ⟨AUD_OUT_chan, .rw, 0, []⟩]⟩,
   ⟨"AUD_IN", 0x400d2400, 64, 0x4, 1, 0,
     [⟨AUD_IN_enable, .rw, 0, []⟩, ⟨AUD_IN_bus, .rw, 0, []⟩, ⟨AUD_IN_chan, .rw, 0, []⟩, ⟨AUD_IN_gain, .rw, 0x8000, []⟩]⟩]

def rowsAUD1 : List RegRow :=
  [⟨"AUD_SP_CFG", 0x400d3000, 4, 0x10, 1, 0,
     [⟨AUD_SP_CFG_enable, .rw, 0, []⟩, ⟨AUD_SP_CFG_master, .rw, 1, []⟩, ⟨AUD_SP_CFG_raw, .rw, 0, []⟩, ⟨AUD_SP_CFG_i2s, .rw, 1, []⟩, ⟨AUD_SP_CFG_slots, .rw, 1, [(1, 15)]⟩, ⟨AUD_SP_CFG_width, .rw, 2, [(0, 2)]⟩, ⟨AUD_SP_CFG_fs_delay, .rw, 1, []⟩, ⟨AUD_SP_CFG_fs_pulse, .rw, 0, []⟩, ⟨AUD_SP_CFG_tx_en, .rw, 0, []⟩, ⟨AUD_SP_CFG_rx_en, .rw, 0, []⟩, ⟨AUD_SP_CFG_rate, .rw, 4, [(0, 6)]⟩]⟩,
   ⟨"AUD_SP_TRACK", 0x400d3004, 4, 0x10, 1, 0,
     [⟨AUD_SP_TRACK_locked, .ro, 0, []⟩, ⟨AUD_SP_TRACK_lost, .w1c, 0, []⟩, ⟨AUD_SP_TRACK_err_ppm, .ro, 0, []⟩]⟩,
   ⟨"AUD_SP_FIFO", 0x400d3008, 4, 0x10, 1, 0,
     [⟨AUD_SP_FIFO_data, .rw, 0, []⟩]⟩,
   ⟨"AUD_SP_CNT", 0x400d300c, 4, 0x10, 1, 0,
     [⟨AUD_SP_CNT_tx_under, .rc, 0, []⟩, ⟨AUD_SP_CNT_rx_over, .rc, 0, []⟩]⟩,
   ⟨"AUD_PDM", 0x400d3100, 1, 0, 1, 0,
     [⟨AUD_PDM_clk_en, .rw, 0, []⟩, ⟨AUD_PDM_enable, .rw, 0, []⟩]⟩,
   ⟨"AUD_FX_PROG", 0x400d8000, 2048, 0x4, 1, 0,
     [⟨AUD_FX_PROG_instr, .rw, 0, []⟩]⟩]

/-- The register map of block AUD. -/
def rowsAUD : List RegRow := rowsAUD0 ++ rowsAUD1

def rowsMEM0 : List RegRow :=
  [⟨"MEM_CH_CFG", 0x400e0000, 6, 0x4, 1, 0,
     [⟨MEM_CH_CFG_density, .rw, 0, []⟩, ⟨MEM_CH_CFG_dev_odt, .rw, 1, [(0, 2)]⟩, ⟨MEM_CH_CFG_ap_en, .rw, 1, []⟩]⟩,
   ⟨"MEM_INTLV", 0x400e0020, 1, 0, 1, 0,
     [⟨MEM_INTLV_enable, .rw, 0, []⟩, ⟨MEM_INTLV_set, .rw, 0, []⟩, ⟨MEM_INTLV_il_size, .rw, 0, []⟩]⟩,
   ⟨"MEM_MIRROR", 0x400e0030, 3, 0x4, 1, 0,
     [⟨MEM_MIRROR_valid, .rw, 0, []⟩, ⟨MEM_MIRROR_primary, .rw, 0, [(0, 5)]⟩, ⟨MEM_MIRROR_mirror, .rw, 0, [(0, 5)]⟩, ⟨MEM_MIRROR_base, .rw, 0, []⟩, ⟨MEM_MIRROR_size, .rw, 0, []⟩]⟩,
   ⟨"MEM_TRAIN_CTRL", 0x400e0040, 1, 0, 1, 0,
     [⟨MEM_TRAIN_CTRL_start, .w1s, 0, []⟩]⟩,
   ⟨"MEM_TRAIN_STAT", 0x400e0050, 6, 0x4, 1, 0,
     [⟨MEM_TRAIN_STAT_trained, .ro, 0, []⟩, ⟨MEM_TRAIN_STAT_fail, .ro, 0, []⟩, ⟨MEM_TRAIN_STAT_eye_min, .ro, 0, []⟩, ⟨MEM_TRAIN_STAT_inject_cnt, .rc, 0, []⟩]⟩,
   ⟨"MEM_SCRUB", 0x400e0070, 1, 0, 1, 0,
     [⟨MEM_SCRUB_enable, .rw, 1, []⟩, ⟨MEM_SCRUB_interval, .rw, 0x40, [(1, 65535)]⟩]⟩,
   ⟨"MEM_ECC_CNT", 0x400e0080, 6, 0x4, 1, 0,
     [⟨MEM_ECC_CNT_corrected, .rc, 0, []⟩, ⟨MEM_ECC_CNT_rescued, .rc, 0, []⟩, ⟨MEM_ECC_CNT_poisoned, .rc, 0, []⟩]⟩,
   ⟨"MEM_ECC_ADDR", 0x400e00a0, 1, 0, 1, 0,
     [⟨MEM_ECC_ADDR_addr, .ro, 0, []⟩]⟩,
   ⟨"MEM_ECC_INFO", 0x400e00a4, 1, 0, 1, 0,
     [⟨MEM_ECC_INFO_valid, .w1c, 0, []⟩, ⟨MEM_ECC_INFO_port, .ro, 0, []⟩, ⟨MEM_ECC_INFO_kind, .ro, 0, []⟩]⟩,
   ⟨"MEM_LTR", 0x400e0100, 5, 0x4, 1, 0,
     [⟨MEM_LTR_tolerance, .ro, 0xffffff, []⟩]⟩,
   ⟨"MEM_LTR", 0x400e0114, 2, 0x4, 1, 0,
     [⟨MEM_LTR_tolerance, .rw, 0, []⟩]⟩,
   ⟨"MEM_LTR", 0x400e011c, 1, 0x4, 1, 0,
     [⟨MEM_LTR_tolerance, .ro, 0xffffff, []⟩]⟩,
   ⟨"MEM_DOZE_CFG", 0x400e0120, 1, 0, 1, 0,
     [⟨MEM_DOZE_CFG_enable, .rw, 0, []⟩, ⟨MEM_DOZE_CFG_idle, .rw, 0xa, []⟩, ⟨MEM_DOZE_CFG_margin, .rw, 0xfa, []⟩]⟩,
   ⟨"MEM_DOZE_STAT", 0x400e0124, 1, 0, 1, 0,
     [⟨MEM_DOZE_STAT_dozing, .ro, 0, []⟩, ⟨MEM_DOZE_STAT_min_src, .ro, 0, []⟩, ⟨MEM_DOZE_STAT_entries, .rc, 0, []⟩]⟩,
   ⟨"MEM_CSRAM_ECC", 0x400e0140, 1, 0, 1, 0,
     [⟨MEM_CSRAM_ECC_corrected, .rc, 0, []⟩, ⟨MEM_CSRAM_ECC_poisoned, .rc, 0, []⟩, ⟨MEM_CSRAM_ECC_bank, .ro, 0, []⟩]⟩,
   ⟨"MEM_PAR_CNT", 0x400e0160, 6, 0x4, 1, 0,
     [⟨MEM_PAR_CNT_reissues, .rc, 0, []⟩]⟩]

def rowsMEM1 : List RegRow :=
  [⟨"MEM_EVT", 0x400e0180, 1, 0, 1, 0,
     [⟨MEM_EVT_mirror, .w1c, 0, []⟩, ⟨MEM_EVT_csram, .w1c, 0, []⟩, ⟨MEM_EVT_drift, .w1c, 0, []⟩, ⟨MEM_EVT_parity, .w1c, 0, []⟩, ⟨MEM_EVT_train, .w1c, 0, []⟩, ⟨MEM_EVT_poison, .w1c, 0, []⟩]⟩]

/-- The register map of block MEM. -/
def rowsMEM : List RegRow := rowsMEM0 ++ rowsMEM1

def rowsFAB0 : List RegRow :=
  [⟨"FAB_RESET_MODE_0", 0x400f0010, 1, 0, 1, 0,
     [⟨FAB_RESET_MODE_0_mode, .rw, 0, []⟩]⟩,
   ⟨"FAB_RESET_MODE_1", 0x400f0014, 1, 0, 1, 0,
     [⟨FAB_RESET_MODE_1_mode, .rw, 0, []⟩]⟩,
   ⟨"FAB_ERR_ADDR", 0x400f0020, 1, 0, 1, 0,
     [⟨FAB_ERR_ADDR_addr, .ro, 0, []⟩]⟩,
   ⟨"FAB_ERR_INFO", 0x400f0024, 1, 0, 1, 0,
     [⟨FAB_ERR_INFO_valid, .w1c, 0, []⟩, ⟨FAB_ERR_INFO_port, .ro, 0, []⟩, ⟨FAB_ERR_INFO_block, .ro, 0, []⟩, ⟨FAB_ERR_INFO_cause, .ro, 0, []⟩]⟩,
   ⟨"FAB_ERR_CNT", 0x400f0028, 1, 0, 1, 0,
     [⟨FAB_ERR_CNT_total, .rc, 0, []⟩, ⟨FAB_ERR_CNT_missed, .rc, 0, []⟩]⟩,
   ⟨"FAB_BLK_CTRL", 0x400f0100, 40, 0x4, 1, 0,
     [⟨FAB_BLK_CTRL_reset, .w1s, 0, []⟩, ⟨FAB_BLK_CTRL_enable, .rw, 0, []⟩]⟩,
   ⟨"FAB_BLK_STAT", 0x400f0200, 40, 0x4, 1, 0,
     [⟨FAB_BLK_STAT_reset_refused, .w1c, 0, []⟩, ⟨FAB_BLK_STAT_drain_timeout, .w1c, 0, []⟩, ⟨FAB_BLK_STAT_pending_stop, .ro, 0, []⟩, ⟨FAB_BLK_STAT_pending_start, .ro, 0, []⟩, ⟨FAB_BLK_STAT_idle, .ro, 1, []⟩, ⟨FAB_BLK_STAT_state, .ro, 0, []⟩]⟩]

/-- The register map of block FAB. -/
def rowsFAB : List RegRow := rowsFAB0

def rowsSCENE0 : List RegRow :=
  [⟨"SCENE_UPDATE", 0x40100000, 4, 0x1000, 1, 0,
     [⟨SCENE_UPDATE_pending, .ro, 0, []⟩, ⟨SCENE_UPDATE_hold, .rw, 0, []⟩]⟩,
   ⟨"SCENE_SPR_CTRL", 0x40100010, 4, 0x1000, 1, 0,
     [⟨SCENE_SPR_CTRL_enable, .rw, 0, []⟩, ⟨SCENE_SPR_CTRL_coll_full, .rw, 0, []⟩, ⟨SCENE_SPR_CTRL_reload, .w1s, 0, []⟩, ⟨SCENE_SPR_CTRL_count, .rw, 0, [(0, 4096)]⟩]⟩,
   ⟨"SCENE_SPR_TABLE", 0x40100014, 4, 0x1000, 1, 0,
     [⟨SCENE_SPR_TABLE_base, .rw, 0, []⟩]⟩,
   ⟨"SCENE_SPR_IMAGE", 0x40100018, 4, 0x1000, 1, 0,
     [⟨SCENE_SPR_IMAGE_base, .rw, 0, []⟩]⟩,
   ⟨"SCENE_SPR_AFFINE", 0x4010001c, 4, 0x1000, 1, 0,
     [⟨SCENE_SPR_AFFINE_base, .rw, 0, []⟩]⟩,
   ⟨"SCENE_SPR_STAT", 0x40100020, 4, 0x1000, 1, 0,
     [⟨SCENE_SPR_STAT_cnt_ovf, .w1c, 0, []⟩, ⟨SCENE_SPR_STAT_pix_ovf, .w1c, 0, []⟩, ⟨SCENE_SPR_STAT_first_drop, .ro, 0, []⟩, ⟨SCENE_SPR_STAT_ovf_line, .ro, 0, []⟩]⟩,
   ⟨"SCENE_SPR_PEAK", 0x40100024, 4, 0x1000, 1, 0,
     [⟨SCENE_SPR_PEAK_max_count, .rc, 0, []⟩, ⟨SCENE_SPR_PEAK_max_pixels, .rc, 0, []⟩]⟩,
   ⟨"SCENE_PAL_INDEX", 0x40100030, 4, 0x1000, 1, 0,
     [⟨SCENE_PAL_INDEX_autoinc, .rw, 0, []⟩, ⟨SCENE_PAL_INDEX_kind, .rw, 0, []⟩, ⟨SCENE_PAL_INDEX_palette, .rw, 0, []⟩, ⟨SCENE_PAL_INDEX_entry, .rw, 0, []⟩]⟩,
   ⟨"SCENE_PAL_DATA", 0x40100034, 4, 0x1000, 1, 0,
     [⟨SCENE_PAL_DATA_argb, .rw, 0, []⟩]⟩,
   ⟨"SCENE_PAL_LOAD", 0x40100038, 4, 0x1000, 1, 0,
     [⟨SCENE_PAL_LOAD_go, .w1s, 0, []⟩, ⟨SCENE_PAL_LOAD_at_frame, .rw, 0, []⟩, ⟨SCENE_PAL_LOAD_late, .w1c, 0, []⟩, ⟨SCENE_PAL_LOAD_first, .rw, 0, []⟩, ⟨SCENE_PAL_LOAD_count, .rw, 0, []⟩]⟩,
   ⟨"SCENE_PAL_SRC", 0x4010003c, 4, 0x1000, 1, 0,
     [⟨SCENE_PAL_SRC_base, .rw, 0, []⟩]⟩,
   ⟨"SCENE_FAULT", 0x40100040, 4, 0x1000, 1, 0,
     [⟨SCENE_FAULT_fetch_err, .rc, 0, []⟩, ⟨SCENE_FAULT_poison, .rc, 0, []⟩, ⟨SCENE_FAULT_fmt_bad, .rc, 0, []⟩]⟩,
   ⟨"SCENE_COLL_STAT", 0x40100044, 4, 0x1000, 1, 0,
     [⟨SCENE_COLL_STAT_partial, .ro, 0, []⟩, ⟨SCENE_COLL_STAT_any, .ro, 0, []⟩, ⟨SCENE_COLL_STAT_first_line, .ro, 0, []⟩]⟩,
   ⟨"SCENE_COLL_MASK", 0x40100080, 4, 0x1000, 16, 0x4,
     [⟨SCENE_COLL_MASK_mask, .rw, 0, []⟩]⟩,
   ⟨"SCENE_COLL", 0x401000c0, 4, 0x1000, 16, 0x4,
     [⟨SCENE_COLL_hits, .ro, 0, []⟩]⟩,
   ⟨"SCENE_LAYER_CTRL", 0x40100100, 4, 0x1000, 2, 0x40,
     [⟨SCENE_LAYER_CTRL_enable, .rw, 0, []⟩, ⟨SCENE_LAYER_CTRL_affine, .rw, 0, []⟩, ⟨SCENE_LAYER_CTRL_tile16, .rw, 0, []⟩, ⟨SCENE_LAYER_CTRL_format, .rw, 0, [(0, 4)]⟩, ⟨SCENE_LAYER_CTRL_opaque, .rw, 0, []⟩, ⟨SCENE_LAYER_CTRL_map_w, .rw, 5, [(5, 12)]⟩, ⟨SCENE_LAYER_CTRL_map_h, .rw, 5, [(5, 12)]⟩, ⟨SCENE_LAYER_CTRL_edge, .rw, 0, [(0, 2)]⟩, ⟨SCENE_LAYER_CTRL_class, .rw, 0, []⟩]⟩]

def rowsSCENE1 : List RegRow :=
  [⟨"SCENE_LAYER_CTRL", 0x40100180, 4, 0x1000, 6, 0x40,
     [⟨SCENE_LAYER_CTRL_enable, .rw, 0, []⟩, ⟨SCENE_LAYER_CTRL_tile16, .rw, 0, []⟩, ⟨SCENE_LAYER_CTRL_format, .rw, 0, [(0, 4)]⟩, ⟨SCENE_LAYER_CTRL_opaque, .rw, 0, []⟩, ⟨SCENE_LAYER_CTRL_map_w, .rw, 5, [(5, 12)]⟩, ⟨SCENE_LAYER_CTRL_map_h, .rw, 5, [(5, 12)]⟩, ⟨SCENE_LAYER_CTRL_edge, .rw, 0, [(0, 2)]⟩, ⟨SCENE_LAYER_CTRL_class, .rw, 0, []⟩]⟩,
   ⟨"SCENE_LAYER_MAP", 0x40100104, 4, 0x1000, 8, 0x40,
     [⟨SCENE_LAYER_MAP_base, .rw, 0, []⟩]⟩,
   ⟨"SCENE_LAYER_TILE", 0x40100108, 4, 0x1000, 8, 0x40,
     [⟨SCENE_LAYER_TILE_base, .rw, 0, []⟩]⟩,
   ⟨"SCENE_LAYER_SCROLL", 0x4010010c, 4, 0x1000, 8, 0x40,
     [⟨SCENE_LAYER_SCROLL_y, .rw, 0, []⟩, ⟨SCENE_LAYER_SCROLL_x, .rw, 0, []⟩]⟩,
   ⟨"SCENE_LAYER_AFF_A", 0x40100110, 4, 0x1000, 2, 0x40,
     [⟨SCENE_LAYER_AFF_A_value, .rw, 0x1000, []⟩]⟩,
   ⟨"SCENE_LAYER_AFF_B", 0x40100114, 4, 0x1000, 2, 0x40,
     [⟨SCENE_LAYER_AFF_B_value, .rw, 0, []⟩]⟩,
   ⟨"SCENE_LAYER_AFF_C", 0x40100118, 4, 0x1000, 2, 0x40,
     [⟨SCENE_LAYER_AFF_C_value, .rw, 0, []⟩]⟩,
   ⟨"SCENE_LAYER_AFF_D", 0x4010011c, 4, 0x1000, 2, 0x40,
     [⟨SCENE_LAYER_AFF_D_value, .rw, 0x1000, []⟩]⟩,
   ⟨"SCENE_LAYER_AFF_X0", 0x40100120, 4, 0x1000, 2, 0x40,
     [⟨SCENE_LAYER_AFF_X0_value, .rw, 0, []⟩]⟩,
   ⟨"SCENE_LAYER_AFF_Y0", 0x40100124, 4, 0x1000, 2, 0x40,
     [⟨SCENE_LAYER_AFF_Y0_value, .rw, 0, []⟩]⟩,
   ⟨"SCENE_BEAM_CTRL", 0x40100300, 4, 0x1000, 1, 0,
     [⟨SCENE_BEAM_CTRL_enable, .rw, 0, []⟩]⟩,
   ⟨"SCENE_BEAM_BASE", 0x40100304, 4, 0x1000, 1, 0,
     [⟨SCENE_BEAM_BASE_base, .rw, 0, []⟩]⟩,
   ⟨"SCENE_BEAM_LEN", 0x40100308, 4, 0x1000, 1, 0,
     [⟨SCENE_BEAM_LEN_len, .rw, 0, [(0, 8192)]⟩]⟩,
   ⟨"SCENE_BEAM_DPTR_INIT", 0x4010030c, 4, 0x1000, 1, 0,
     [⟨SCENE_BEAM_DPTR_INIT_addr, .rw, 0, []⟩]⟩,
   ⟨"SCENE_BEAM_DPTR", 0x40100310, 4, 0x1000, 1, 0,
     [⟨SCENE_BEAM_DPTR_addr, .ro, 0, []⟩]⟩,
   ⟨"SCENE_BEAM_FLAGS", 0x40100314, 4, 0x1000, 1, 0,
     [⟨SCENE_BEAM_FLAGS_flags, .rw, 0, []⟩]⟩]

def rowsSCENE2 : List RegRow :=
  [⟨"SCENE_BEAM_SIG", 0x40100318, 4, 0x1000, 1, 0,
     [⟨SCENE_BEAM_SIG_sig, .w1c, 0, []⟩]⟩,
   ⟨"SCENE_BEAM_STAT", 0x4010031c, 4, 0x1000, 1, 0,
     [⟨SCENE_BEAM_STAT_running, .ro, 0, []⟩, ⟨SCENE_BEAM_STAT_late, .w1c, 0, []⟩, ⟨SCENE_BEAM_STAT_bad_write, .w1c, 0, []⟩, ⟨SCENE_BEAM_STAT_bad_cmd, .w1c, 0, []⟩, ⟨SCENE_BEAM_STAT_fetch_fault, .w1c, 0, []⟩, ⟨SCENE_BEAM_STAT_overrun, .w1c, 0, []⟩, ⟨SCENE_BEAM_STAT_err_pc, .ro, 0, []⟩]⟩,
   ⟨"SCENE_BEAM_CNT", 0x40100320, 4, 0x1000, 1, 0,
     [⟨SCENE_BEAM_CNT_late_cnt, .rc, 0, []⟩, ⟨SCENE_BEAM_CNT_refused, .rc, 0, []⟩]⟩,
   ⟨"SCENE_COMP", 0x40100400, 4, 0x1000, 1, 0x4,
     [⟨SCENE_COMP_rank, .rw, 0, []⟩, ⟨SCENE_COMP_blend, .rw, 0, [(0, 6)]⟩, ⟨SCENE_COMP_alpha, .rw, 0xff, []⟩, ⟨SCENE_COMP_vprio, .rw, 0, []⟩, ⟨SCENE_COMP_win, .rw, 0, []⟩, ⟨SCENE_COMP_win_inv, .rw, 0, []⟩, ⟨SCENE_COMP_mosaic, .rw, 0, []⟩, ⟨SCENE_COMP_mos, .rw, 0, []⟩]⟩,
   ⟨"SCENE_COMP", 0x40100404, 4, 0x1000, 1, 0x4,
     [⟨SCENE_COMP_rank, .rw, 1, []⟩, ⟨SCENE_COMP_blend, .rw, 0, [(0, 6)]⟩, ⟨SCENE_COMP_alpha, .rw, 0xff, []⟩, ⟨SCENE_COMP_vprio, .rw, 0, []⟩, ⟨SCENE_COMP_win, .rw, 0, []⟩, ⟨SCENE_COMP_win_inv, .rw, 0, []⟩, ⟨SCENE_COMP_mosaic, .rw, 0, []⟩, ⟨SCENE_COMP_mos, .rw, 0, []⟩]⟩,
   ⟨"SCENE_COMP", 0x40100408, 4, 0x1000, 1, 0x4,
     [⟨SCENE_COMP_rank, .rw, 2, []⟩, ⟨SCENE_COMP_blend, .rw, 0, [(0, 6)]⟩, ⟨SCENE_COMP_alpha, .rw, 0xff, []⟩, ⟨SCENE_COMP_vprio, .rw, 0, []⟩, ⟨SCENE_COMP_win, .rw, 0, []⟩, ⟨SCENE_COMP_win_inv, .rw, 0, []⟩, ⟨SCENE_COMP_mosaic, .rw, 0, []⟩, ⟨SCENE_COMP_mos, .rw, 0, []⟩]⟩,
   ⟨"SCENE_COMP", 0x4010040c, 4, 0x1000, 1, 0x4,
     [⟨SCENE_COMP_rank, .rw, 3, []⟩, ⟨SCENE_COMP_blend, .rw, 0, [(0, 6)]⟩, ⟨SCENE_COMP_alpha, .rw, 0xff, []⟩, ⟨SCENE_COMP_vprio, .rw, 0, []⟩, ⟨SCENE_COMP_win, .rw, 0, []⟩, ⟨SCENE_COMP_win_inv, .rw, 0, []⟩, ⟨SCENE_COMP_mosaic, .rw, 0, []⟩, ⟨SCENE_COMP_mos, .rw, 0, []⟩]⟩,
   ⟨"SCENE_COMP", 0x40100410, 4, 0x1000, 1, 0x4,
     [⟨SCENE_COMP_rank, .rw, 4, []⟩, ⟨SCENE_COMP_blend, .rw, 0, [(0, 6)]⟩, ⟨SCENE_COMP_alpha, .rw, 0xff, []⟩, ⟨SCENE_COMP_vprio, .rw, 0, []⟩, ⟨SCENE_COMP_win, .rw, 0, []⟩, ⟨SCENE_COMP_win_inv, .rw, 0, []⟩, ⟨SCENE_COMP_mosaic, .rw, 0, []⟩, ⟨SCENE_COMP_mos, .rw, 0, []⟩]⟩,
   ⟨"SCENE_COMP", 0x40100414, 4, 0x1000, 1, 0x4,
     [⟨SCENE_COMP_rank, .rw, 5, []⟩, ⟨SCENE_COMP_blend, .rw, 0, [(0, 6)]⟩, ⟨SCENE_COMP_alpha, .rw, 0xff, []⟩, ⟨SCENE_COMP_vprio, .rw, 0, []⟩, ⟨SCENE_COMP_win, .rw, 0, []⟩, ⟨SCENE_COMP_win_inv, .rw, 0, []⟩, ⟨SCENE_COMP_mosaic, .rw, 0, []⟩, ⟨SCENE_COMP_mos, .rw, 0, []⟩]⟩,
   ⟨"SCENE_COMP", 0x40100418, 4, 0x1000, 1, 0x4,
     [⟨SCENE_COMP_rank, .rw, 6, []⟩, ⟨SCENE_COMP_blend, .rw, 0, [(0, 6)]⟩, ⟨SCENE_COMP_alpha, .rw, 0xff, []⟩, ⟨SCENE_COMP_vprio, .rw, 0, []⟩, ⟨SCENE_COMP_win, .rw, 0, []⟩, ⟨SCENE_COMP_win_inv, .rw, 0, []⟩, ⟨SCENE_COMP_mosaic, .rw, 0, []⟩, ⟨SCENE_COMP_mos, .rw, 0, []⟩]⟩,
   ⟨"SCENE_COMP", 0x4010041c, 4, 0x1000, 1, 0x4,
     [⟨SCENE_COMP_rank, .rw, 7, []⟩, ⟨SCENE_COMP_blend, .rw, 0, [(0, 6)]⟩, ⟨SCENE_COMP_alpha, .rw, 0xff, []⟩, ⟨SCENE_COMP_vprio, .rw, 0, []⟩, ⟨SCENE_COMP_win, .rw, 0, []⟩, ⟨SCENE_COMP_win_inv, .rw, 0, []⟩, ⟨SCENE_COMP_mosaic, .rw, 0, []⟩, ⟨SCENE_COMP_mos, .rw, 0, []⟩]⟩,
   ⟨"SCENE_COMP", 0x40100420, 4, 0x1000, 1, 0x4,
     [⟨SCENE_COMP_rank, .rw, 8, []⟩, ⟨SCENE_COMP_blend, .rw, 0, [(0, 6)]⟩, ⟨SCENE_COMP_alpha, .rw, 0xff, []⟩, ⟨SCENE_COMP_vprio, .rw, 0, []⟩, ⟨SCENE_COMP_win, .rw, 0, []⟩, ⟨SCENE_COMP_win_inv, .rw, 0, []⟩, ⟨SCENE_COMP_mosaic, .rw, 0, []⟩, ⟨SCENE_COMP_mos, .rw, 0, []⟩]⟩,
   ⟨"SCENE_COMP", 0x40100424, 4, 0x1000, 1, 0x4,
     [⟨SCENE_COMP_rank, .rw, 9, []⟩, ⟨SCENE_COMP_blend, .rw, 0, [(0, 6)]⟩, ⟨SCENE_COMP_alpha, .rw, 0xff, []⟩, ⟨SCENE_COMP_vprio, .rw, 0, []⟩, ⟨SCENE_COMP_win, .rw, 0, []⟩, ⟨SCENE_COMP_win_inv, .rw, 0, []⟩, ⟨SCENE_COMP_mosaic, .rw, 0, []⟩, ⟨SCENE_COMP_mos, .rw, 0, []⟩]⟩,
   ⟨"SCENE_COMP", 0x40100428, 4, 0x1000, 1, 0x4,
     [⟨SCENE_COMP_rank, .rw, 0xa, []⟩, ⟨SCENE_COMP_blend, .rw, 0, [(0, 6)]⟩, ⟨SCENE_COMP_alpha, .rw, 0xff, []⟩, ⟨SCENE_COMP_vprio, .rw, 0, []⟩, ⟨SCENE_COMP_win, .rw, 0, []⟩, ⟨SCENE_COMP_win_inv, .rw, 0, []⟩, ⟨SCENE_COMP_mosaic, .rw, 0, []⟩, ⟨SCENE_COMP_mos, .rw, 0, []⟩]⟩,
   ⟨"SCENE_BG", 0x40100440, 4, 0x1000, 1, 0,
     [⟨SCENE_BG_rgb, .rw, 0, []⟩]⟩,
   ⟨"SCENE_MOS_SIZE", 0x40100490, 4, 0x1000, 4, 0x8,
     [⟨SCENE_MOS_SIZE_h, .rw, 0, []⟩, ⟨SCENE_MOS_SIZE_w, .rw, 0, []⟩]⟩]

def rowsSCENE3 : List RegRow :=
  [⟨"SCENE_MOS_ORG", 0x40100494, 4, 0x1000, 4, 0x8,
     [⟨SCENE_MOS_ORG_ay, .rw, 0, []⟩, ⟨SCENE_MOS_ORG_ax, .rw, 0, []⟩]⟩,
   ⟨"SCENE_WIN_X", 0x401004c0, 4, 0x1000, 8, 0x8,
     [⟨SCENE_WIN_X_hi, .rw, 0, []⟩, ⟨SCENE_WIN_X_lo, .rw, 0, []⟩]⟩,
   ⟨"SCENE_WIN_Y", 0x401004c4, 4, 0x1000, 8, 0x8,
     [⟨SCENE_WIN_Y_hi, .rw, 0, []⟩, ⟨SCENE_WIN_Y_lo, .rw, 0, []⟩]⟩,
   ⟨"SCENE_CSC", 0x40100460, 4, 0x1000, 1, 0x4,
     [⟨SCENE_CSC_hi, .rw, 0, []⟩, ⟨SCENE_CSC_lo, .rw, 0x1000, []⟩]⟩,
   ⟨"SCENE_CSC", 0x40100464, 4, 0x1000, 1, 0x4,
     [⟨SCENE_CSC_hi, .rw, 0, []⟩, ⟨SCENE_CSC_lo, .rw, 0, []⟩]⟩,
   ⟨"SCENE_CSC", 0x40100468, 4, 0x1000, 1, 0x4,
     [⟨SCENE_CSC_hi, .rw, 0x1000, []⟩, ⟨SCENE_CSC_lo, .rw, 0, []⟩]⟩,
   ⟨"SCENE_CSC", 0x4010046c, 4, 0x1000, 2, 0x4,
     [⟨SCENE_CSC_hi, .rw, 0, []⟩, ⟨SCENE_CSC_lo, .rw, 0, []⟩]⟩,
   ⟨"SCENE_CSC", 0x40100474, 4, 0x1000, 1, 0x4,
     [⟨SCENE_CSC_hi, .rw, 0, []⟩, ⟨SCENE_CSC_lo, .rw, 0x1000, []⟩]⟩,
   ⟨"SCENE_POST_CTRL", 0x40100480, 4, 0x1000, 1, 0,
     [⟨SCENE_POST_CTRL_csc_en, .rw, 0, []⟩, ⟨SCENE_POST_CTRL_gamma_en, .rw, 0, []⟩, ⟨SCENE_POST_CTRL_dither, .rw, 0, [(0, 2)]⟩, ⟨SCENE_POST_CTRL_depth, .rw, 2, []⟩]⟩,
   ⟨"SCENE_GAMMA_INDEX", 0x40100484, 4, 0x1000, 1, 0,
     [⟨SCENE_GAMMA_INDEX_autoinc, .rw, 0, []⟩, ⟨SCENE_GAMMA_INDEX_channel, .rw, 0, [(0, 2)]⟩, ⟨SCENE_GAMMA_INDEX_entry, .rw, 0, []⟩]⟩,
   ⟨"SCENE_GAMMA_DATA", 0x40100488, 4, 0x1000, 1, 0,
     [⟨SCENE_GAMMA_DATA_value, .rw, 0, []⟩]⟩,
   ⟨"SCENE_VID_CTRL", 0x40100500, 4, 0x1000, 2, 0x40,
     [⟨SCENE_VID_CTRL_enable, .rw, 0, []⟩, ⟨SCENE_VID_CTRL_format, .rw, 0, [(0, 6)]⟩, ⟨SCENE_VID_CTRL_matrix, .rw, 1, [(0, 2)]⟩, ⟨SCENE_VID_CTRL_full_range, .rw, 0, []⟩, ⟨SCENE_VID_CTRL_h_site, .rw, 0, []⟩, ⟨SCENE_VID_CTRL_v_site, .rw, 0, []⟩, ⟨SCENE_VID_CTRL_flip_pending, .ro, 0, []⟩, ⟨SCENE_VID_CTRL_bad_cfg, .ro, 0, []⟩]⟩,
   ⟨"SCENE_VID_Y_BASE", 0x40100504, 4, 0x1000, 2, 0x40,
     [⟨SCENE_VID_Y_BASE_base, .rw, 0, []⟩]⟩,
   ⟨"SCENE_VID_C_BASE", 0x40100508, 4, 0x1000, 2, 0x40,
     [⟨SCENE_VID_C_BASE_base, .rw, 0, []⟩]⟩,
   ⟨"SCENE_VID_STRIDE", 0x4010050c, 4, 0x1000, 2, 0x40,
     [⟨SCENE_VID_STRIDE_c, .rw, 0, []⟩, ⟨SCENE_VID_STRIDE_y, .rw, 0, []⟩]⟩,
   ⟨"SCENE_VID_SRC_XY", 0x40100510, 4, 0x1000, 2, 0x40,
     [⟨SCENE_VID_SRC_XY_y, .rw, 0, []⟩, ⟨SCENE_VID_SRC_XY_x, .rw, 0, []⟩]⟩]

def rowsSCENE4 : List RegRow :=
  [⟨"SCENE_VID_SRC_WH", 0x40100514, 4, 0x1000, 2, 0x40,
     [⟨SCENE_VID_SRC_WH_y, .rw, 0, [(1, 4096)]⟩, ⟨SCENE_VID_SRC_WH_x, .rw, 0, [(1, 4096)]⟩]⟩,
   ⟨"SCENE_VID_DST_XY", 0x40100518, 4, 0x1000, 2, 0x40,
     [⟨SCENE_VID_DST_XY_y, .rw, 0, []⟩, ⟨SCENE_VID_DST_XY_x, .rw, 0, []⟩]⟩,
   ⟨"SCENE_VID_DST_WH", 0x4010051c, 4, 0x1000, 2, 0x40,
     [⟨SCENE_VID_DST_WH_y, .rw, 0, [(1, 4096)]⟩, ⟨SCENE_VID_DST_WH_x, .rw, 0, [(1, 4096)]⟩]⟩,
   ⟨"SCENE_VID_HSTEP", 0x40100520, 4, 0x1000, 2, 0x40,
     [⟨SCENE_VID_HSTEP_step, .rw, 0x10000, []⟩]⟩,
   ⟨"SCENE_VID_VSTEP", 0x40100524, 4, 0x1000, 2, 0x40,
     [⟨SCENE_VID_VSTEP_step, .rw, 0x10000, []⟩]⟩,
   ⟨"SCENE_VID_HINIT", 0x40100528, 4, 0x1000, 2, 0x40,
     [⟨SCENE_VID_HINIT_init, .rw, 0, []⟩]⟩,
   ⟨"SCENE_VID_VINIT", 0x4010052c, 4, 0x1000, 2, 0x40,
     [⟨SCENE_VID_VINIT_init, .rw, 0, []⟩]⟩,
   ⟨"SCENE_VID_COEF_INDEX", 0x40100600, 4, 0x1000, 1, 0,
     [⟨SCENE_VID_COEF_INDEX_autoinc, .rw, 0, []⟩, ⟨SCENE_VID_COEF_INDEX_layer, .rw, 0, []⟩, ⟨SCENE_VID_COEF_INDEX_vert, .rw, 0, []⟩, ⟨SCENE_VID_COEF_INDEX_phase, .rw, 0, []⟩, ⟨SCENE_VID_COEF_INDEX_pair, .rw, 0, []⟩]⟩,
   ⟨"SCENE_VID_COEF_DATA", 0x40100604, 4, 0x1000, 1, 0,
     [⟨SCENE_VID_COEF_DATA_odd, .rw, 0, []⟩, ⟨SCENE_VID_COEF_DATA_even, .rw, 0, []⟩]⟩,
   ⟨"SCENE_ASSIGN", 0x40104000, 8, 0x4, 1, 0,
     [⟨SCENE_ASSIGN_pending, .ro, 0, []⟩, ⟨SCENE_ASSIGN_present, .ro, 1, []⟩, ⟨SCENE_ASSIGN_cur_head, .ro, 0, []⟩, ⟨SCENE_ASSIGN_park, .rw, 0, []⟩, ⟨SCENE_ASSIGN_head, .rw, 0, []⟩]⟩,
   ⟨"SCENE_ASSIGN", 0x40104020, 8, 0x4, 1, 0,
     [⟨SCENE_ASSIGN_pending, .ro, 0, []⟩, ⟨SCENE_ASSIGN_present, .ro, 1, []⟩, ⟨SCENE_ASSIGN_cur_head, .ro, 1, []⟩, ⟨SCENE_ASSIGN_park, .rw, 0, []⟩, ⟨SCENE_ASSIGN_head, .rw, 1, []⟩]⟩,
   ⟨"SCENE_ASSIGN", 0x40104040, 8, 0x4, 1, 0,
     [⟨SCENE_ASSIGN_pending, .ro, 0, []⟩, ⟨SCENE_ASSIGN_present, .ro, 1, []⟩, ⟨SCENE_ASSIGN_cur_head, .ro, 2, []⟩, ⟨SCENE_ASSIGN_park, .rw, 0, []⟩, ⟨SCENE_ASSIGN_head, .rw, 2, []⟩]⟩,
   ⟨"SCENE_ASSIGN", 0x40104060, 8, 0x4, 1, 0,
     [⟨SCENE_ASSIGN_pending, .ro, 0, []⟩, ⟨SCENE_ASSIGN_present, .ro, 1, []⟩, ⟨SCENE_ASSIGN_cur_head, .ro, 3, []⟩, ⟨SCENE_ASSIGN_park, .rw, 0, []⟩, ⟨SCENE_ASSIGN_head, .rw, 3, []⟩]⟩,
   ⟨"SCENE_ASSIGN", 0x40104080, 1, 0x4, 1, 0,
     [⟨SCENE_ASSIGN_pending, .ro, 0, []⟩, ⟨SCENE_ASSIGN_present, .ro, 1, []⟩, ⟨SCENE_ASSIGN_cur_head, .ro, 0, []⟩, ⟨SCENE_ASSIGN_park, .rw, 0, []⟩, ⟨SCENE_ASSIGN_head, .rw, 0, []⟩, ⟨SCENE_ASSIGN_slot, .rw, 0, []⟩]⟩,
   ⟨"SCENE_ASSIGN", 0x40104084, 1, 0x4, 1, 0,
     [⟨SCENE_ASSIGN_pending, .ro, 0, []⟩, ⟨SCENE_ASSIGN_present, .ro, 1, []⟩, ⟨SCENE_ASSIGN_cur_head, .ro, 0, []⟩, ⟨SCENE_ASSIGN_park, .rw, 0, []⟩, ⟨SCENE_ASSIGN_head, .rw, 0, []⟩, ⟨SCENE_ASSIGN_slot, .rw, 1, []⟩]⟩,
   ⟨"SCENE_ASSIGN", 0x40104088, 1, 0x4, 1, 0,
     [⟨SCENE_ASSIGN_pending, .ro, 0, []⟩, ⟨SCENE_ASSIGN_present, .ro, 1, []⟩, ⟨SCENE_ASSIGN_cur_head, .ro, 1, []⟩, ⟨SCENE_ASSIGN_park, .rw, 0, []⟩, ⟨SCENE_ASSIGN_head, .rw, 1, []⟩, ⟨SCENE_ASSIGN_slot, .rw, 0, []⟩]⟩]

def rowsSCENE5 : List RegRow :=
  [⟨"SCENE_ASSIGN", 0x4010408c, 1, 0x4, 1, 0,
     [⟨SCENE_ASSIGN_pending, .ro, 0, []⟩, ⟨SCENE_ASSIGN_present, .ro, 1, []⟩, ⟨SCENE_ASSIGN_cur_head, .ro, 1, []⟩, ⟨SCENE_ASSIGN_park, .rw, 0, []⟩, ⟨SCENE_ASSIGN_head, .rw, 1, []⟩, ⟨SCENE_ASSIGN_slot, .rw, 1, []⟩]⟩,
   ⟨"SCENE_ASSIGN", 0x40104090, 1, 0x4, 1, 0,
     [⟨SCENE_ASSIGN_pending, .ro, 0, []⟩, ⟨SCENE_ASSIGN_present, .ro, 1, []⟩, ⟨SCENE_ASSIGN_cur_head, .ro, 2, []⟩, ⟨SCENE_ASSIGN_park, .rw, 0, []⟩, ⟨SCENE_ASSIGN_head, .rw, 2, []⟩, ⟨SCENE_ASSIGN_slot, .rw, 0, []⟩]⟩,
   ⟨"SCENE_ASSIGN", 0x40104094, 1, 0x4, 1, 0,
     [⟨SCENE_ASSIGN_pending, .ro, 0, []⟩, ⟨SCENE_ASSIGN_present, .ro, 1, []⟩, ⟨SCENE_ASSIGN_cur_head, .ro, 2, []⟩, ⟨SCENE_ASSIGN_park, .rw, 0, []⟩, ⟨SCENE_ASSIGN_head, .rw, 2, []⟩, ⟨SCENE_ASSIGN_slot, .rw, 1, []⟩]⟩,
   ⟨"SCENE_ASSIGN", 0x40104098, 1, 0x4, 1, 0,
     [⟨SCENE_ASSIGN_pending, .ro, 0, []⟩, ⟨SCENE_ASSIGN_present, .ro, 1, []⟩, ⟨SCENE_ASSIGN_cur_head, .ro, 3, []⟩, ⟨SCENE_ASSIGN_park, .rw, 0, []⟩, ⟨SCENE_ASSIGN_head, .rw, 3, []⟩, ⟨SCENE_ASSIGN_slot, .rw, 0, []⟩]⟩,
   ⟨"SCENE_ASSIGN", 0x4010409c, 1, 0x4, 1, 0,
     [⟨SCENE_ASSIGN_pending, .ro, 0, []⟩, ⟨SCENE_ASSIGN_present, .ro, 1, []⟩, ⟨SCENE_ASSIGN_cur_head, .ro, 3, []⟩, ⟨SCENE_ASSIGN_park, .rw, 0, []⟩, ⟨SCENE_ASSIGN_head, .rw, 3, []⟩, ⟨SCENE_ASSIGN_slot, .rw, 1, []⟩]⟩]

/-- The register map of block SCENE. -/
def rowsSCENE : List RegRow := rowsSCENE0 ++ rowsSCENE1 ++ rowsSCENE2 ++ rowsSCENE3 ++ rowsSCENE4 ++ rowsSCENE5

def rowsHEAD0 : List RegRow :=
  [⟨"HEAD_CTRL", 0x40110000, 4, 0x10000, 1, 0,
     [⟨HEAD_CTRL_mode, .rw, 0, [(0, 2)]⟩, ⟨HEAD_CTRL_te_src, .rw, 0, [(0, 2)]⟩, ⟨HEAD_CTRL_race, .rw, 0, []⟩, ⟨HEAD_CTRL_panel_reset, .rw, 1, []⟩, ⟨HEAD_CTRL_format, .rw, 3, [(0, 4)]⟩, ⟨HEAD_CTRL_lanes, .rw, 2, [(0, 2)]⟩, ⟨HEAD_CTRL_lp_blank, .rw, 0, []⟩]⟩,
   ⟨"HEAD_DPHY", 0x40110004, 4, 0x10000, 1, 0,
     [⟨HEAD_DPHY_hs_ns, .ro, 0, []⟩, ⟨HEAD_DPHY_clk_cont, .rw, 0, []⟩, ⟨HEAD_DPHY_rate, .rw, 0x3e8, [(80, 4500)]⟩]⟩,
   ⟨"HEAD_SIZE", 0x40110008, 4, 0x10000, 1, 0,
     [⟨HEAD_SIZE_height, .rw, 0, [(1, 2160)]⟩, ⟨HEAD_SIZE_width, .rw, 0, [(1, 3840)]⟩]⟩,
   ⟨"HEAD_VTOTAL", 0x4011000c, 4, 0x10000, 1, 0,
     [⟨HEAD_VTOTAL_te_line, .rw, 0, []⟩, ⟨HEAD_VTOTAL_vtotal, .rw, 0, []⟩]⟩,
   ⟨"HEAD_VID_H", 0x40110010, 4, 0x10000, 1, 0,
     [⟨HEAD_VID_H_htotal, .rw, 0, []⟩, ⟨HEAD_VID_H_hsa, .rw, 0, []⟩, ⟨HEAD_VID_H_hbp, .rw, 0, []⟩]⟩,
   ⟨"HEAD_VID_V", 0x40110014, 4, 0x10000, 1, 0,
     [⟨HEAD_VID_V_vfp, .rw, 0, []⟩, ⟨HEAD_VID_V_vbp, .rw, 0, []⟩, ⟨HEAD_VID_V_vsa, .rw, 0, []⟩]⟩,
   ⟨"HEAD_RACE", 0x40110018, 4, 0x10000, 1, 0,
     [⟨HEAD_RACE_margin, .rw, 8, []⟩, ⟨HEAD_RACE_lead, .rw, 0x10, []⟩, ⟨HEAD_RACE_preroll, .rw, 0x10, [(1, 47)]⟩, ⟨HEAD_RACE_gain, .rw, 3, []⟩]⟩,
   ⟨"HEAD_TE", 0x4011001c, 4, 0x10000, 1, 0,
     [⟨HEAD_TE_comp, .rw, 0, []⟩, ⟨HEAD_TE_falling, .rw, 0, []⟩]⟩,
   ⟨"HEAD_BEAM", 0x40110020, 4, 0x10000, 1, 0,
     [⟨HEAD_BEAM_locked, .ro, 0, []⟩, ⟨HEAD_BEAM_seeded, .ro, 0, []⟩, ⟨HEAD_BEAM_lost, .ro, 0, []⟩, ⟨HEAD_BEAM_period, .ro, 0, []⟩]⟩,
   ⟨"HEAD_BEAM_ERR", 0x40110024, 4, 0x10000, 1, 0,
     [⟨HEAD_BEAM_ERR_err, .ro, 0, []⟩]⟩,
   ⟨"HEAD_MARK", 0x40110030, 4, 0x10000, 1, 0,
     [⟨HEAD_MARK_all, .wo, 0, []⟩, ⟨HEAD_MARK_count, .wo, 0, []⟩, ⟨HEAD_MARK_first, .wo, 0, []⟩]⟩,
   ⟨"HEAD_DIRTY", 0x40110040, 4, 0x10000, 5, 0x4,
     [⟨HEAD_DIRTY_bands, .ro, 0, []⟩]⟩,
   ⟨"HEAD_REFRESH", 0x40110054, 4, 0x10000, 1, 0,
     [⟨HEAD_REFRESH_every, .rw, 0, []⟩]⟩,
   ⟨"HEAD_FRAME", 0x40110060, 4, 0x10000, 1, 0,
     [⟨HEAD_FRAME_count, .ro, 0, []⟩]⟩,
   ⟨"HEAD_SENT_LO", 0x40110064, 4, 0x10000, 1, 0,
     [⟨HEAD_SENT_LO_value, .ro, 0, []⟩]⟩,
   ⟨"HEAD_SENT_HI", 0x40110068, 4, 0x10000, 1, 0,
     [⟨HEAD_SENT_HI_value, .ro, 0, []⟩]⟩]

def rowsHEAD1 : List RegRow :=
  [⟨"HEAD_SEEN_LO", 0x4011006c, 4, 0x10000, 1, 0,
     [⟨HEAD_SEEN_LO_value, .ro, 0, []⟩]⟩,
   ⟨"HEAD_SEEN_HI", 0x40110070, 4, 0x10000, 1, 0,
     [⟨HEAD_SEEN_HI_value, .ro, 0, []⟩]⟩,
   ⟨"HEAD_FLIP_FRAME", 0x40110074, 4, 0x10000, 1, 0,
     [⟨HEAD_FLIP_FRAME_value, .ro, 0, []⟩]⟩,
   ⟨"HEAD_STAT", 0x40110080, 4, 0x10000, 1, 0,
     [⟨HEAD_STAT_held, .ro, 0, []⟩, ⟨HEAD_STAT_race_suspect, .w1c, 0, []⟩, ⟨HEAD_STAT_te_missing, .w1c, 0, []⟩, ⟨HEAD_STAT_lead_refused, .w1c, 0, []⟩, ⟨HEAD_STAT_cfg_bad, .ro, 0, []⟩, ⟨HEAD_STAT_bta_stuck, .ro, 0, []⟩, ⟨HEAD_STAT_underrun, .w1c, 0, []⟩]⟩,
   ⟨"HEAD_CNT", 0x40110084, 4, 0x10000, 1, 0,
     [⟨HEAD_CNT_underrun, .rc, 0, []⟩, ⟨HEAD_CNT_te_reject, .rc, 0, []⟩, ⟨HEAD_CNT_te_miss, .rc, 0, []⟩]⟩,
   ⟨"HEAD_PKT_CTRL", 0x40110090, 4, 0x10000, 1, 0,
     [⟨HEAD_PKT_CTRL_go, .w1s, 0, []⟩, ⟨HEAD_PKT_CTRL_bta, .rw, 0, []⟩, ⟨HEAD_PKT_CTRL_lp, .rw, 0, []⟩, ⟨HEAD_PKT_CTRL_err, .w1c, 0, []⟩, ⟨HEAD_PKT_CTRL_resp_len, .ro, 0, []⟩, ⟨HEAD_PKT_CTRL_dtype, .rw, 0, []⟩, ⟨HEAD_PKT_CTRL_wc, .rw, 0, []⟩]⟩,
   ⟨"HEAD_PKT_DATA", 0x40110094, 4, 0x10000, 4, 0x4,
     [⟨HEAD_PKT_DATA_bytes, .rw, 0, []⟩]⟩,
   ⟨"HEAD_ACTIVE_TOL", 0x401100a0, 4, 0x10000, 1, 0,
     [⟨HEAD_ACTIVE_TOL_ns, .rw, 0x12c, []⟩]⟩,
   ⟨"HEAD_WIT_CTRL", 0x40110100, 4, 0x10000, 1, 0,
     [⟨HEAD_WIT_CTRL_enable, .rw, 0, []⟩, ⟨HEAD_WIT_CTRL_log_en, .rw, 0, []⟩]⟩,
   ⟨"HEAD_WIT_STAT", 0x40110104, 4, 0x10000, 1, 0,
     [⟨HEAD_WIT_STAT_table_full, .ro, 0, []⟩, ⟨HEAD_WIT_STAT_mismatch, .w1c, 0, []⟩, ⟨HEAD_WIT_STAT_log_lost, .w1c, 0, []⟩, ⟨HEAD_WIT_STAT_stuck, .w1c, 0, []⟩, ⟨HEAD_WIT_STAT_invalid_rows, .ro, 0, []⟩]⟩,
   ⟨"HEAD_WIT_CNT", 0x40110108, 4, 0x10000, 1, 0,
     [⟨HEAD_WIT_CNT_mismatch, .rc, 0, []⟩, ⟨HEAD_WIT_CNT_log_lost, .rc, 0, []⟩]⟩,
   ⟨"HEAD_WIT_SEQ", 0x4011010c, 4, 0x10000, 1, 0,
     [⟨HEAD_WIT_SEQ_seq, .ro, 0, []⟩]⟩,
   ⟨"HEAD_WIT_LOG_BASE", 0x40110110, 4, 0x10000, 1, 0,
     [⟨HEAD_WIT_LOG_BASE_base, .rw, 0, []⟩]⟩,
   ⟨"HEAD_WIT_LOG_SIZE", 0x40110114, 4, 0x10000, 1, 0,
     [⟨HEAD_WIT_LOG_SIZE_size, .rw, 0, [(1, 1048575)]⟩]⟩,
   ⟨"HEAD_WIT_LOG_WR", 0x40110118, 4, 0x10000, 1, 0,
     [⟨HEAD_WIT_LOG_WR_offset, .ro, 0, []⟩]⟩,
   ⟨"HEAD_WIT_LOG_RD", 0x4011011c, 4, 0x10000, 1, 0,
     [⟨HEAD_WIT_LOG_RD_offset, .rw, 0, []⟩]⟩]

def rowsHEAD2 : List RegRow :=
  [⟨"HEAD_WIT_ROW", 0x40112000, 4, 0x10000, 2160, 0x4,
     [⟨HEAD_WIT_ROW_crc, .ro, 0, []⟩]⟩,
   ⟨"HEAD_WIT_RING", 0x40111000, 4, 0x10000, 1024, 0x4,
     [⟨HEAD_WIT_RING_word, .ro, 0, []⟩]⟩]

/-- The register map of block HEAD. -/
def rowsHEAD : List RegRow := rowsHEAD0 ++ rowsHEAD1 ++ rowsHEAD2

def rowsKIND0 : List RegRow :=
  [⟨"KIND_CTRL", 0x40180000, 1, 0, 1, 0,
     [⟨KIND_CTRL_stall_en, .rw, 1, []⟩, ⟨KIND_CTRL_bad_table, .w1c, 0, []⟩, ⟨KIND_CTRL_next, .rw, 0, []⟩, ⟨KIND_CTRL_cur, .ro, 0, []⟩]⟩,
   ⟨"KIND_POOL_LO", 0x40180010, 1, 0, 1, 0,
     [⟨KIND_POOL_LO_pool, .rw, 0xffffffff, []⟩]⟩,
   ⟨"KIND_POOL_HI", 0x40180014, 1, 0, 1, 0,
     [⟨KIND_POOL_HI_pool, .rw, 0xffffffff, []⟩]⟩,
   ⟨"KIND_FAULTED_LO", 0x40180018, 1, 0, 1, 0,
     [⟨KIND_FAULTED_LO_faulted, .ro, 0, []⟩]⟩,
   ⟨"KIND_FAULTED_HI", 0x4018001c, 1, 0, 1, 0,
     [⟨KIND_FAULTED_HI_faulted, .ro, 0, []⟩]⟩,
   ⟨"KIND_STALL", 0x40180020, 1, 0, 1, 0,
     [⟨KIND_STALL_fired, .w1c, 0, []⟩, ⟨KIND_STALL_count, .rc, 0, []⟩]⟩,
   ⟨"KIND_ABANDON", 0x40180030, 1, 0, 1, 0,
     [⟨KIND_ABANDON_refused, .w1c, 0, []⟩, ⟨KIND_ABANDON_end, .wo, 0, []⟩]⟩,
   ⟨"KIND_SLOT", 0x40180100, 2, 0x80, 32, 0x4,
     [⟨KIND_SLOT_entry3, .rw, 0, []⟩, ⟨KIND_SLOT_entry2, .rw, 0, []⟩, ⟨KIND_SLOT_entry1, .rw, 0, []⟩, ⟨KIND_SLOT_entry0, .rw, 0, []⟩]⟩,
   ⟨"KIND_T_CTRL", 0x40181000, 64, 0x20, 1, 0,
     [⟨KIND_T_CTRL_start, .w1s, 0, []⟩, ⟨KIND_T_CTRL_free, .w1s, 0, []⟩, ⟨KIND_T_CTRL_refused, .w1c, 0, []⟩]⟩,
   ⟨"KIND_T_PC", 0x40181004, 64, 0x20, 1, 0,
     [⟨KIND_T_PC_value, .rw, 0, []⟩]⟩,
   ⟨"KIND_T_SP", 0x40181008, 64, 0x20, 1, 0,
     [⟨KIND_T_SP_value, .rw, 0, []⟩]⟩,
   ⟨"KIND_SNAP", 0x40180800, 64, 0x4, 1, 0,
     [⟨KIND_SNAP_state, .ro, 0, []⟩, ⟨KIND_SNAP_wait, .ro, 0, []⟩, ⟨KIND_SNAP_resource, .ro, 0, []⟩, ⟨KIND_SNAP_on_valid, .ro, 0, []⟩, ⟨KIND_SNAP_waits_on, .ro, 0, []⟩]⟩,
   ⟨"KIND_T_STAT", 0x4018100c, 64, 0x20, 1, 0,
     [⟨KIND_T_STAT_state, .ro, 0, []⟩, ⟨KIND_T_STAT_wait, .ro, 0, []⟩, ⟨KIND_T_STAT_resource, .ro, 0, []⟩, ⟨KIND_T_STAT_on_valid, .ro, 0, []⟩, ⟨KIND_T_STAT_waits_on, .ro, 0, []⟩]⟩,
   ⟨"KIND_T_FAULT", 0x40181010, 64, 0x20, 1, 0,
     [⟨KIND_T_FAULT_cause, .ro, 0, []⟩]⟩,
   ⟨"KIND_T_FPC", 0x40181014, 64, 0x20, 1, 0,
     [⟨KIND_T_FPC_addr, .ro, 0, []⟩]⟩,
   ⟨"KIND_T_ISSUE", 0x40181018, 64, 0x20, 1, 0,
     [⟨KIND_T_ISSUE_count, .rc, 0, []⟩]⟩]

def rowsKIND1 : List RegRow :=
  [⟨"KIND_CH", 0x40182000, 128, 0x4, 1, 0,
     [⟨KIND_CH_alloc, .ro, 0, []⟩, ⟨KIND_CH_out_open, .ro, 0, []⟩, ⟨KIND_CH_in_open, .ro, 0, []⟩, ⟨KIND_CH_route_held, .ro, 0, []⟩, ⟨KIND_CH_owner, .ro, 0, []⟩, ⟨KIND_CH_routed, .ro, 0, []⟩, ⟨KIND_CH_dest, .ro, 0, []⟩, ⟨KIND_CH_tokens, .ro, 0, []⟩]⟩,
   ⟨"KIND_LOCK", 0x40182400, 32, 0x4, 1, 0,
     [⟨KIND_LOCK_held, .ro, 0, []⟩, ⟨KIND_LOCK_holder, .ro, 0, []⟩]⟩,
   ⟨"KIND_KEND_RX", 0x40183000, 16, 0x10, 1, 0,
     [⟨KIND_KEND_RX_empty, .ro, 1, []⟩, ⟨KIND_KEND_RX_token, .rc, 0, []⟩]⟩,
   ⟨"KIND_KEND_TX", 0x40183004, 16, 0x10, 1, 0,
     [⟨KIND_KEND_TX_token, .wo, 0, []⟩]⟩,
   ⟨"KIND_KEND_DEST", 0x40183008, 16, 0x10, 1, 0,
     [⟨KIND_KEND_DEST_end, .rw, 0, []⟩]⟩,
   ⟨"KIND_KEND_STAT", 0x4018300c, 16, 0x10, 1, 0,
     [⟨KIND_KEND_STAT_in_open, .ro, 0, []⟩, ⟨KIND_KEND_STAT_tx_ovf, .w1c, 0, []⟩, ⟨KIND_KEND_STAT_src, .ro, 0, []⟩, ⟨KIND_KEND_STAT_tx_count, .ro, 0, []⟩, ⟨KIND_KEND_STAT_rx_count, .ro, 0, []⟩]⟩]

/-- The register map of block KIND. -/
def rowsKIND : List RegRow := rowsKIND0 ++ rowsKIND1

def rowsKPORT0 : List RegRow :=
  [⟨"KPORT_EN", 0x40190000, 6, 0x4, 1, 0,
     [⟨KPORT_EN_en, .rw, 0, []⟩]⟩,
   ⟨"KPORT_LOCK", 0x40190020, 1, 0, 1, 0,
     [⟨KPORT_LOCK_lock, .w1s, 0, []⟩]⟩,
   ⟨"KPORT_CB", 0x40190040, 8, 0x8, 1, 0,
     [⟨KPORT_CB_run, .ro, 0, []⟩, ⟨KPORT_CB_pin_src, .ro, 0, []⟩, ⟨KPORT_CB_pre, .ro, 0, []⟩, ⟨KPORT_CB_src_port, .ro, 0, []⟩, ⟨KPORT_CB_gate_port, .ro, 0x7f, []⟩]⟩,
   ⟨"KPORT_CB_TIME", 0x40190044, 8, 0x8, 1, 0,
     [⟨KPORT_CB_TIME_hi, .ro, 4, []⟩, ⟨KPORT_CB_TIME_lo, .ro, 4, []⟩]⟩,
   ⟨"KPORT_CFG", 0x40191000, 96, 0x10, 1, 0,
     [⟨KPORT_CFG_owned, .ro, 0, []⟩, ⟨KPORT_CFG_owner, .ro, 0, []⟩, ⟨KPORT_CFG_mode, .ro, 0, []⟩, ⟨KPORT_CFG_cond, .ro, 0, []⟩, ⟨KPORT_CFG_width, .ro, 0, []⟩, ⟨KPORT_CFG_clock, .ro, 8, []⟩, ⟨KPORT_CFG_invert, .ro, 0, []⟩, ⟨KPORT_CFG_msb_first, .ro, 0, []⟩, ⟨KPORT_CFG_falling, .ro, 0, []⟩, ⟨KPORT_CFG_filt, .ro, 0, []⟩, ⟨KPORT_CFG_delay, .ro, 0, []⟩]⟩,
   ⟨"KPORT_STAT", 0x40191004, 96, 0x10, 1, 0,
     [⟨KPORT_STAT_trip, .w1c, 0, []⟩, ⟨KPORT_STAT_contend, .w1c, 0, []⟩, ⟨KPORT_STAT_overrun, .w1c, 0, []⟩, ⟨KPORT_STAT_underrun, .w1c, 0, []⟩, ⟨KPORT_STAT_late, .w1c, 0, []⟩, ⟨KPORT_STAT_pending, .ro, 0, []⟩, ⟨KPORT_STAT_ready, .ro, 0, []⟩, ⟨KPORT_STAT_level, .ro, 0, []⟩, ⟨KPORT_STAT_timer, .ro, 0, []⟩]⟩,
   ⟨"KPORT_MISS", 0x40191008, 96, 0x10, 1, 0,
     [⟨KPORT_MISS_port_miss, .rc, 0, []⟩, ⟨KPORT_MISS_contend, .rc, 0, []⟩, ⟨KPORT_MISS_trips, .rc, 0, []⟩]⟩,
   ⟨"KPORT_ACT", 0x4019100c, 96, 0x10, 1, 0,
     [⟨KPORT_ACT_actuator, .ro, 0, []⟩, ⟨KPORT_ACT_level, .rw, 0, []⟩, ⟨KPORT_ACT_maxon, .rw, 0, []⟩]⟩]

/-- The register map of block KPORT. -/
def rowsKPORT : List RegRow := rowsKPORT0

def rowsLEDGER0 : List RegRow :=
  [⟨"LEDGER_SQ_BASE", 0x40200000, 1, 0, 1, 0,
     [⟨LEDGER_SQ_BASE_base, .rw, 0, []⟩]⟩,
   ⟨"LEDGER_CQ_BASE", 0x40200010, 1, 0, 1, 0,
     [⟨LEDGER_CQ_BASE_base, .rw, 0, []⟩]⟩,
   ⟨"LEDGER_SQ_CFG", 0x40200004, 1, 0, 1, 0,
     [⟨LEDGER_SQ_CFG_ovf, .w1c, 0, []⟩, ⟨LEDGER_SQ_CFG_log2, .rw, 4, [(4, 12)]⟩]⟩,
   ⟨"LEDGER_CQ_CFG", 0x40200014, 1, 0, 1, 0,
     [⟨LEDGER_CQ_CFG_ovf, .w1c, 0, []⟩, ⟨LEDGER_CQ_CFG_log2, .rw, 4, [(4, 12)]⟩]⟩,
   ⟨"LEDGER_SQ_TAIL", 0x40200008, 1, 0, 1, 0,
     [⟨LEDGER_SQ_TAIL_index, .rw, 0, []⟩]⟩,
   ⟨"LEDGER_SQ_HEAD", 0x4020000c, 1, 0, 1, 0,
     [⟨LEDGER_SQ_HEAD_index, .ro, 0, []⟩]⟩,
   ⟨"LEDGER_CQ_HEAD", 0x40200018, 1, 0, 1, 0,
     [⟨LEDGER_CQ_HEAD_index, .rw, 0, []⟩]⟩,
   ⟨"LEDGER_CQ_TAIL", 0x4020001c, 1, 0, 1, 0,
     [⟨LEDGER_CQ_TAIL_index, .ro, 0, []⟩]⟩,
   ⟨"LEDGER_SEEN_BASE", 0x40200020, 1, 0, 1, 0,
     [⟨LEDGER_SEEN_BASE_base, .rw, 0, []⟩]⟩,
   ⟨"LEDGER_SEEN_CFG", 0x40200024, 1, 0, 1, 0,
     [⟨LEDGER_SEEN_CFG_bits, .rw, 0x11, [(17, 21)]⟩]⟩,
   ⟨"LEDGER_SEEN_STAT", 0x40200028, 1, 0, 1, 0,
     [⟨LEDGER_SEEN_STAT_full, .w1c, 0, []⟩, ⟨LEDGER_SEEN_STAT_victims, .ro, 0, []⟩, ⟨LEDGER_SEEN_STAT_evictions, .rc, 0, []⟩]⟩,
   ⟨"LEDGER_SEEN_SALT", 0x40200030, 4, 0x4, 1, 0,
     [⟨LEDGER_SEEN_SALT_salt, .wo, 0, []⟩]⟩,
   ⟨"LEDGER_FLOOR_SEL", 0x40200040, 1, 0, 1, 0,
     [⟨LEDGER_FLOOR_SEL_ctx, .rw, 0, []⟩, ⟨LEDGER_FLOOR_SEL_node, .rw, 0, []⟩]⟩,
   ⟨"LEDGER_FLOOR_LO", 0x40200044, 1, 0, 1, 0,
     [⟨LEDGER_FLOOR_LO_seq, .rw, 0, []⟩]⟩,
   ⟨"LEDGER_FLOOR_HI", 0x40200048, 1, 0, 1, 0,
     [⟨LEDGER_FLOOR_HI_epoch, .rw, 0, []⟩, ⟨LEDGER_FLOOR_HI_refused, .w1c, 0, []⟩, ⟨LEDGER_FLOOR_HI_seq_hi, .rw, 0, []⟩]⟩,
   ⟨"LEDGER_CORD_SEQ_LO", 0x40200050, 1, 0, 1, 0,
     [⟨LEDGER_CORD_SEQ_LO_value, .ro, 0, []⟩]⟩]

def rowsLEDGER1 : List RegRow :=
  [⟨"LEDGER_CORD_SEQ_HI", 0x40200054, 1, 0, 1, 0,
     [⟨LEDGER_CORD_SEQ_HI_value, .ro, 0, []⟩]⟩,
   ⟨"LEDGER_CORD_TAIL_LO", 0x40200058, 1, 0, 1, 0,
     [⟨LEDGER_CORD_TAIL_LO_value, .rw, 0, []⟩]⟩,
   ⟨"LEDGER_CORD_TAIL_HI", 0x4020005c, 1, 0, 1, 0,
     [⟨LEDGER_CORD_TAIL_HI_value, .rw, 0, []⟩]⟩,
   ⟨"LEDGER_CORD_CAP", 0x40200060, 1, 0, 1, 0,
     [⟨LEDGER_CORD_CAP_entries, .rw, 0, []⟩]⟩,
   ⟨"LEDGER_RT_BUSY", 0x40200070, 1, 0, 1, 0,
     [⟨LEDGER_RT_BUSY_busy, .ro, 0, []⟩]⟩,
   ⟨"LEDGER_CNT_0", 0x40200080, 1, 0, 1, 0,
     [⟨LEDGER_CNT_0_sig_bad, .rc, 0, []⟩, ⟨LEDGER_CNT_0_dup, .rc, 0, []⟩]⟩,
   ⟨"LEDGER_CNT_1", 0x40200084, 1, 0, 1, 0,
     [⟨LEDGER_CNT_1_stale, .rc, 0, []⟩, ⟨LEDGER_CNT_1_auth_fail, .rc, 0, []⟩]⟩,
   ⟨"LEDGER_CNT_2", 0x40200088, 1, 0, 1, 0,
     [⟨LEDGER_CNT_2_reissued, .rc, 0, []⟩, ⟨LEDGER_CNT_2_xl_fail, .rc, 0, []⟩]⟩,
   ⟨"LEDGER_EVT", 0x40200090, 1, 0, 1, 0,
     [⟨LEDGER_EVT_reissue, .w1c, 0, []⟩, ⟨LEDGER_EVT_auth, .w1c, 0, []⟩, ⟨LEDGER_EVT_key_fault, .w1c, 0, []⟩, ⟨LEDGER_EVT_bad_cmd, .w1c, 0, []⟩]⟩,
   ⟨"LEDGER_XL_PROG", 0x40204000, 4096, 0x4, 1, 0,
     [⟨LEDGER_XL_PROG_word, .rw, 0, []⟩]⟩,
   ⟨"LEDGER_SEEN_ALT_BASE", 0x402000a0, 1, 0, 1, 0,
     [⟨LEDGER_SEEN_ALT_BASE_base, .rw, 0, []⟩]⟩,
   ⟨"LEDGER_SEEN_ALT_CFG", 0x402000a4, 1, 0, 1, 0,
     [⟨LEDGER_SEEN_ALT_CFG_enable, .rw, 0, []⟩, ⟨LEDGER_SEEN_ALT_CFG_bits, .rw, 0x11, [(17, 21)]⟩]⟩,
   ⟨"LEDGER_SEEN_ALT_SALT", 0x402000b0, 4, 0x4, 1, 0,
     [⟨LEDGER_SEEN_ALT_SALT_salt, .wo, 0, []⟩]⟩]

/-- The register map of block LEDGER. -/
def rowsLEDGER : List RegRow := rowsLEDGER0 ++ rowsLEDGER1

def rowsFLOOR0 : List RegRow :=
  [⟨"FLOOR_CTRL", 0x40210000, 2, 0x100, 1, 0,
     [⟨FLOOR_CTRL_enable, .rw, 0, []⟩, ⟨FLOOR_CTRL_fallback, .rw, 1, []⟩, ⟨FLOOR_CTRL_mode, .rw, 0, [(0, 2)]⟩]⟩,
   ⟨"FLOOR_STAT", 0x40210004, 2, 0x100, 1, 0,
     [⟨FLOOR_STAT_link, .ro, 0, []⟩, ⟨FLOOR_STAT_speed, .ro, 0, []⟩, ⟨FLOOR_STAT_an_done, .ro, 0, []⟩, ⟨FLOOR_STAT_trained, .ro, 0, []⟩, ⟨FLOOR_STAT_lock, .ro, 0, []⟩, ⟨FLOOR_STAT_changed, .w1c, 0, []⟩]⟩,
   ⟨"FLOOR_MAC_LO", 0x40210008, 2, 0x100, 1, 0,
     [⟨FLOOR_MAC_LO_mac, .rw, 0, []⟩]⟩,
   ⟨"FLOOR_MAC_HI", 0x4021000c, 2, 0x100, 1, 0,
     [⟨FLOOR_MAC_HI_mac, .rw, 0, []⟩]⟩,
   ⟨"FLOOR_TXQ_BASE", 0x40210010, 2, 0x100, 1, 0,
     [⟨FLOOR_TXQ_BASE_base, .rw, 0, []⟩]⟩,
   ⟨"FLOOR_RXQ_BASE", 0x40210014, 2, 0x100, 1, 0,
     [⟨FLOOR_RXQ_BASE_base, .rw, 0, []⟩]⟩,
   ⟨"FLOOR_Q_CFG", 0x40210018, 2, 0x100, 1, 0,
     [⟨FLOOR_Q_CFG_rx_log2, .rw, 6, [(4, 12)]⟩, ⟨FLOOR_Q_CFG_tx_log2, .rw, 6, [(4, 12)]⟩]⟩,
   ⟨"FLOOR_TXQ_TAIL", 0x4021001c, 2, 0x100, 1, 0,
     [⟨FLOOR_TXQ_TAIL_index, .rw, 0, []⟩]⟩,
   ⟨"FLOOR_TXQ_HEAD", 0x40210020, 2, 0x100, 1, 0,
     [⟨FLOOR_TXQ_HEAD_index, .ro, 0, []⟩]⟩,
   ⟨"FLOOR_RXQ_HEAD", 0x40210024, 2, 0x100, 1, 0,
     [⟨FLOOR_RXQ_HEAD_index, .rw, 0, []⟩]⟩,
   ⟨"FLOOR_RXQ_TAIL", 0x40210028, 2, 0x100, 1, 0,
     [⟨FLOOR_RXQ_TAIL_index, .ro, 0, []⟩]⟩,
   ⟨"FLOOR_TXTS_LO", 0x40210030, 2, 0x100, 1, 0,
     [⟨FLOOR_TXTS_LO_value, .ro, 0, []⟩]⟩,
   ⟨"FLOOR_TXTS_HI", 0x40210034, 2, 0x100, 1, 0,
     [⟨FLOOR_TXTS_HI_value, .ro, 0, []⟩]⟩,
   ⟨"FLOOR_TXTS_ID", 0x40210038, 2, 0x100, 1, 0,
     [⟨FLOOR_TXTS_ID_valid, .w1c, 0, []⟩, ⟨FLOOR_TXTS_ID_seq_id, .ro, 0, []⟩]⟩,
   ⟨"FLOOR_TS_ADJ", 0x4021003c, 2, 0x100, 1, 0,
     [⟨FLOOR_TS_ADJ_rx, .rw, 0, []⟩, ⟨FLOOR_TS_ADJ_tx, .rw, 0, []⟩]⟩,
   ⟨"FLOOR_CNT_0", 0x40210040, 2, 0x100, 1, 0,
     [⟨FLOOR_CNT_0_tx_frames, .rc, 0, []⟩, ⟨FLOOR_CNT_0_rx_frames, .rc, 0, []⟩]⟩]

def rowsFLOOR1 : List RegRow :=
  [⟨"FLOOR_CNT_1", 0x40210044, 2, 0x100, 1, 0,
     [⟨FLOOR_CNT_1_fcs_err, .rc, 0, []⟩, ⟨FLOOR_CNT_1_dropped, .rc, 0, []⟩]⟩,
   ⟨"FLOOR_ETYPE", 0x40210800, 1, 0, 1, 0,
     [⟨FLOOR_ETYPE_tag_en, .rw, 0, []⟩, ⟨FLOOR_ETYPE_pcp, .rw, 0, []⟩, ⟨FLOOR_ETYPE_vid, .rw, 0, []⟩, ⟨FLOOR_ETYPE_etype, .rw, 0x88b5, [(1536, 35062), (35064, 65535)]⟩]⟩]

/-- The register map of block FLOOR. -/
def rowsFLOOR : List RegRow := rowsFLOOR0 ++ rowsFLOOR1

def rowsHOST0 : List RegRow :=
  [⟨"HOST_LINK", 0x40220000, 1, 0, 1, 0,
     [⟨HOST_LINK_up, .ro, 0, []⟩, ⟨HOST_LINK_gen, .ro, 0, []⟩, ⟨HOST_LINK_width, .ro, 0, []⟩, ⟨HOST_LINK_changed, .w1c, 0, []⟩, ⟨HOST_LINK_flr, .w1c, 0, []⟩]⟩,
   ⟨"HOST_WIN_BASE", 0x40220010, 4, 0x8, 1, 0,
     [⟨HOST_WIN_BASE_base, .rw, 0, []⟩]⟩,
   ⟨"HOST_WIN_CFG", 0x40220014, 4, 0x8, 1, 0,
     [⟨HOST_WIN_CFG_enable, .rw, 0, []⟩, ⟨HOST_WIN_CFG_write, .rw, 0, []⟩, ⟨HOST_WIN_CFG_size, .rw, 0, [(1, 1024)]⟩]⟩,
   ⟨"HOST_BAR4", 0x40220030, 1, 0, 1, 0,
     [⟨HOST_BAR4_csram_en, .rw, 0, []⟩, ⟨HOST_BAR4_ls_en, .rw, 0, []⟩, ⟨HOST_BAR4_write, .rw, 0, []⟩]⟩,
   ⟨"HOST_ERR_ADDR", 0x40220040, 1, 0, 1, 0,
     [⟨HOST_ERR_ADDR_offset, .ro, 0, []⟩]⟩,
   ⟨"HOST_ERR_INFO", 0x40220044, 1, 0, 1, 0,
     [⟨HOST_ERR_INFO_valid, .w1c, 0, []⟩, ⟨HOST_ERR_INFO_bar, .ro, 0, []⟩, ⟨HOST_ERR_INFO_wr, .ro, 0, []⟩, ⟨HOST_ERR_INFO_cause, .ro, 0, []⟩]⟩,
   ⟨"HOST_CNT", 0x40220048, 1, 0, 1, 0,
     [⟨HOST_CNT_refused, .rc, 0, []⟩, ⟨HOST_CNT_aer, .rc, 0, []⟩]⟩]

/-- The register map of block HOST. -/
def rowsHOST : List RegRow := rowsHOST0

def rowsDBG0 : List RegRow :=
  [⟨"DBG_AUTH", 0x40300000, 1, 0, 1, 0,
     [⟨DBG_AUTH_go, .w1s, 0, []⟩, ⟨DBG_AUTH_lock, .w1s, 0, []⟩, ⟨DBG_AUTH_unlocked, .ro, 0, []⟩, ⟨DBG_AUTH_fails, .ro, 0, []⟩]⟩,
   ⟨"DBG_AUTH_NONCE", 0x40300010, 8, 0x4, 1, 0,
     [⟨DBG_AUTH_NONCE_nonce, .ro, 0, []⟩]⟩,
   ⟨"DBG_AUTH_DATA", 0x40300040, 32, 0x4, 1, 0,
     [⟨DBG_AUTH_DATA_data, .wo, 0, []⟩]⟩,
   ⟨"DBG_CTRL", 0x40300100, 1, 0, 1, 0,
     [⟨DBG_CTRL_wdog_freeze, .rw, 1, []⟩, ⟨DBG_CTRL_brk_halt, .rw, 0, []⟩, ⟨DBG_CTRL_tmr_freeze, .rw, 0, []⟩]⟩,
   ⟨"DBG_KILN_CTRL", 0x40300110, 1, 0, 1, 0,
     [⟨DBG_KILN_CTRL_halt, .w1s, 0, []⟩, ⟨DBG_KILN_CTRL_resume, .w1s, 0, []⟩, ⟨DBG_KILN_CTRL_step, .w1s, 0, []⟩, ⟨DBG_KILN_CTRL_halted, .ro, 0, []⟩, ⟨DBG_KILN_CTRL_mem_err, .w1c, 0, []⟩]⟩,
   ⟨"DBG_HIT", 0x40300118, 1, 0, 1, 0,
     [⟨DBG_HIT_value, .ro, 0, []⟩]⟩,
   ⟨"DBG_MEM_ADDR", 0x40300120, 1, 0, 1, 0,
     [⟨DBG_MEM_ADDR_value, .rw, 0, []⟩]⟩,
   ⟨"DBG_MEM_DATA", 0x40300124, 1, 0, 1, 0,
     [⟨DBG_MEM_DATA_value, .rw, 0, []⟩]⟩,
   ⟨"DBG_KILN_REG", 0x40300200, 28, 0x4, 1, 0,
     [⟨DBG_KILN_REG_value, .rw, 0, []⟩]⟩,
   ⟨"DBG_BP", 0x40300300, 4, 0x4, 1, 0,
     [⟨DBG_BP_addr, .rw, 0, []⟩, ⟨DBG_BP_enable, .rw, 0, []⟩]⟩,
   ⟨"DBG_WP_LO", 0x40300320, 4, 0x10, 1, 0,
     [⟨DBG_WP_LO_addr, .rw, 0, []⟩]⟩,
   ⟨"DBG_WP_HI", 0x40300324, 4, 0x10, 1, 0,
     [⟨DBG_WP_HI_addr, .rw, 0, []⟩]⟩,
   ⟨"DBG_WP_CTRL", 0x40300328, 4, 0x10, 1, 0,
     [⟨DBG_WP_CTRL_enable, .rw, 0, []⟩, ⟨DBG_WP_CTRL_halt, .rw, 0, []⟩, ⟨DBG_WP_CTRL_kind, .rw, 0, [(1, 3)]⟩]⟩,
   ⟨"DBG_THR_HALT_LO", 0x40300400, 1, 0, 1, 0,
     [⟨DBG_THR_HALT_LO_threads, .w1s, 0, []⟩]⟩,
   ⟨"DBG_THR_HALT_HI", 0x40300404, 1, 0, 1, 0,
     [⟨DBG_THR_HALT_HI_threads, .w1s, 0, []⟩]⟩,
   ⟨"DBG_THR_RESUME_LO", 0x40300408, 1, 0, 1, 0,
     [⟨DBG_THR_RESUME_LO_threads, .w1s, 0, []⟩]⟩]

def rowsDBG1 : List RegRow :=
  [⟨"DBG_THR_RESUME_HI", 0x4030040c, 1, 0, 1, 0,
     [⟨DBG_THR_RESUME_HI_threads, .w1s, 0, []⟩]⟩,
   ⟨"DBG_THR_SEL", 0x40300410, 1, 0, 1, 0,
     [⟨DBG_THR_SEL_thread, .rw, 0, []⟩]⟩,
   ⟨"DBG_THR_REG", 0x40300440, 18, 0x4, 1, 0,
     [⟨DBG_THR_REG_value, .ro, 0, []⟩]⟩,
   ⟨"DBG_TRACE_CTRL", 0x40300500, 1, 0, 1, 0,
     [⟨DBG_TRACE_CTRL_enable, .rw, 0, []⟩, ⟨DBG_TRACE_CTRL_pins, .rw, 0, []⟩, ⟨DBG_TRACE_CTRL_lost, .rc, 0, []⟩]⟩,
   ⟨"DBG_TRACE_BASE", 0x40300504, 1, 0, 1, 0,
     [⟨DBG_TRACE_BASE_value, .rw, 0, []⟩]⟩,
   ⟨"DBG_TRACE_SIZE", 0x40300508, 1, 0, 1, 0,
     [⟨DBG_TRACE_SIZE_value, .rw, 0, []⟩]⟩,
   ⟨"DBG_TRACE_WR", 0x4030050c, 1, 0, 1, 0,
     [⟨DBG_TRACE_WR_value, .ro, 0, []⟩]⟩,
   ⟨"DBG_BENCH", 0x40300600, 1, 0, 1, 0,
     [⟨DBG_BENCH_start, .w1s, 0, []⟩, ⟨DBG_BENCH_done, .w1c, 0, []⟩, ⟨DBG_BENCH_result, .ro, 0, []⟩]⟩]

/-- The register map of block DBG. -/
def rowsDBG : List RegRow := rowsDBG0 ++ rowsDBG1

/-- The register map of the 64 KB space that starts at `b × 0x1_0000`, with its base offset folded in (Table 2-9). The four heads share one map. -/
def rowsAt (b : Nat) : List RegRow :=
  match b with
  | 0x4000 => rowsSYS
  | 0x4001 => rowsCLK
  | 0x4002 => rowsRST
  | 0x4003 => rowsPWR
  | 0x4004 => rowsFUSE
  | 0x4005 => rowsPIN
  | 0x4006 => rowsTMR
  | 0x4007 => rowsTB
  | 0x4008 => rowsADC
  | 0x4009 => rowsINTC
  | 0x400a => rowsMBX
  | 0x400b => rowsDMA
  | 0x400c => rowsBLK
  | 0x400d => rowsAUD
  | 0x400e => rowsMEM
  | 0x400f => rowsFAB
  | 0x4010 => rowsSCENE
  | 0x4011 => rowsHEAD
  | 0x4012 => rowsHEAD
  | 0x4013 => rowsHEAD
  | 0x4014 => rowsHEAD
  | 0x4018 => rowsKIND
  | 0x4019 => rowsKPORT
  | 0x4020 => rowsLEDGER
  | 0x4021 => rowsFLOOR
  | 0x4022 => rowsHOST
  | 0x4030 => rowsDBG
  | _ => []

/-- Whether the register row holds address `a`: the outer stride first, the inner one within it (a stride of 0 is a single register). -/
def RegRow.has (r : RegRow) (a : Nat) : Bool :=
  r.base ≤ a && (a - r.base) / r.s0 < r.n0 && (a - r.base) % r.s0 % r.s1 == 0 && (a - r.base) % r.s0 / r.s1 < r.n1

/-- The row of the register at address `a`, if one is listed (R44). -/
def regRow (a : Nat) : Option RegRow := (rowsAt (a / 0x10000)).find? (fun r => r.has a)

/-- The reset value of a register from its row (R11). -/
def RegRow.reset (r : RegRow) : BitVec 32 :=
  r.fields.foldl (fun w f => setF w f.fld f.rst) 0

/-- The value a register address reads as before anything has written it: its Reset column (R11). -/
def regReset (a : Nat) : BitVec 32 :=
  match regRow a with
  | some r => r.reset
  | none => 0

end Sys2Proof.Machine
end

