-- ==== Sys2Proof/Machine/State.lean ====
section
/-! DEFINITION. The state of the device, as plain data. -/

namespace Sys2Proof.Machine

/-! ## Heads, scene and witness (chapters 4 to 8) -/

/-- The on-chip key of a sprite descriptor (R87). -/
structure SprKey where
  enable : Bool
  last   : Bool
  x      : Nat
  y      : Nat
  h8     : Nat
  affine : Bool
  boxEn  : Bool
  boxH8  : Nat
deriving DecidableEq, Repr

/-- A sprite descriptor, its four words (Table 4-4). -/
structure Sprite where
  index : Nat
  w0 : Nat
  w1 : Nat
  w2 : Nat
  w3 : Nat
deriving DecidableEq, Repr

/-- A read of an OTC object that a fetcher has made and holds for the lines that follow (R79): the mark of its fetcher, block row and address (`Look.by`,
`otcMark`), the length, and the value, none where the read failed. -/
structure OtcRead where
  addr : Nat
  len  : Nat
  val  : Option Nat
deriving DecidableEq, Repr

/-- The evaluation of a line (R83, R84, R87): the sprites accepted for it, and, where the mosaic of the sprite plane takes the line's pixels from another line,
that line and the sprites accepted for it (R124). -/
structure SprEval where
  line  : Nat
  list  : List Sprite
  plane : Option (Int × List Sprite)
deriving DecidableEq, Repr

/-- A palette copy under way (R94): whether it waits for the end of the frame, the next entry's index, the address it comes from, and the beats of eight
entries still to be read. -/
structure PalJob where
  waits : Bool
  entry : Nat
  src   : Nat
  left  : Nat
deriving DecidableEq, Repr

/-- An inline BWR that has issued and waits for the data words it has not written yet (R102): how many, the space, and the next target. -/
structure BeamBwr where
  left : Nat
  pal  : Bool
  next : Nat
deriving DecidableEq, Repr

/-- What a beam sequencer waits for: nothing, its target line, or the pair of a column (R104). -/
inductive BeamWait where
  | none
  | line
  | col (x : Nat)
deriving DecidableEq, Repr

/-- A line in the line store of a head (R154), with the frame it belongs to. -/
structure StoreLine where
  frame : Nat
  line  : Nat
  bytes : List Byte
deriving DecidableEq, Repr

/-- A row sent by a head, until its frame's digest is formed (R163, R174). -/
structure SentRow where
  frame : Nat
  row : Nat
  crc : Nat
  under : Bool
  checked : Bool
  failed : Bool
deriving DecidableEq, Repr

/-- A line packet on the lanes (R150): the frame and line it carries, its start, and whether a slot of the line store holds the line. -/
structure Packet where
  frame : Nat
  line : Nat
  start : Nat
  slot : Bool
deriving DecidableEq, Repr

/-- The DCS commands that a head issues itself (Table 7-2). -/
inductive Dcs where
  | setTearOn
  | setColumnAddress (first last : Nat)
  | setPageAddress (first last : Nat)
  | writeMemoryStart
  | writeMemoryContinue
deriving DecidableEq, Repr

/-- What a head puts on its lanes, in order (R140, R141, R144, R157): LP-11, the deskew burst, a DCS command, the sync-event packets of a video line, the
packet of a line with its bytes, a firmware packet with its bytes, in LP escape mode or not, or a turnaround, with which the bus is the panel's. -/
inductive LaneItem where
  | lp11
  | deskew
  | dcs (c : Dcs)
  | sync
  | line (laneRate : Bool) (packet : List Byte)
  | packet (lp : Bool) (packet : List Byte)
  | turnaround
deriving DecidableEq, Repr

/-- The times of a frame that a flip record gives (R159): its number, Sent and Seen. -/
structure FlipRec where
  frame : Nat
  sent  : Nat
  seen  : Nat
deriving DecidableEq, Repr

/-- A frame whose last row has been checked, as the digest will cover it (R169): the row table then, and what the ring entry reports. -/
structure DigestJob where
  frame : Nat
  table : List Nat
  allValid : Bool
  rows : List SentRow
  full : Bool
  sent : Nat
  seen : Nat
  /-- Whether its log block was abandoned by a write of the log's settings (R175). -/
  gap : Bool
deriving DecidableEq, Repr

/-- The hidden state of a head: what its registers do not show. -/
structure HeadSt where
  /-- The composition line now in progress, H or more between frames (R100). -/
  line : Nat
  /-- Scene cycles since that line's setup window opened. -/
  cyc  : Nat
  /-- Whether a frame boundary has opened a frame since the block started. -/
  inFrame : Bool
  /-- Old values of line-class registers written during the line, which the line still uses (R98, R113). -/
  lineOld : List (Nat × Word)
  /-- Old values of gamma entries and scaler coefficients written during the line (R135). -/
  arrOld  : List (Nat × Nat)
  /-- Shadow writes collected while UPDATE.hold is 1, and those released for the next boundary (R98). -/
  held    : List (Nat × Word)
  ready   : List (Nat × Word)
  /-- The sprite table base and count in effect (R88), and the keys (R87). -/
  sprBase : Nat
  sprCount : Nat
  keys    : List (Nat × SprKey)
  /-- The lines evaluated for sprites, from the line in progress on (R83). -/
  evals   : List SprEval
  /-- Whether SPR_TABLE or SPR_CTRL.count has been written since the keys were last reloaded (R88). -/
  sprDirty : Bool
  /-- The OTC reads held from the line last fetched, and that line (R79). -/
  otc     : List OtcRead
  otcLine : Option Nat
  /-- The working hit rows, the first line with a hit, and whether some line of the frame was not evaluated (R89 to R91). -/
  hits    : List (Nat × Nat)
  hitLine : Option Nat
  skipped : Bool
  /-- Per band, the palettes used when it was last composed (R96). -/
  bandPal : List (Nat × Nat)
  /-- Per layer, the frame in which a beam list last wrote its SCROLL. -/
  scrollBeam : List (Nat × Nat)
  /-- Writes of the line to palette entries, the background and POST_CTRL in the order they came: column from which they apply, target, value (R93,
  R111, R135). -/
  pix     : List (Nat × Nat × Word)
  /-- A palette copy under way (R94). -/
  palJob  : Option PalJob
  /-- The beam sequencer (R101 to R106): settings in effect, program counter, counters, target line, buffer and wait. -/
  beamBase : Nat
  beamLen  : Nat
  pc      : Nat
  cnt     : List Nat
  target  : Nat
  buf     : List Word
  skip    : Nat
  wait    : BeamWait
  /-- Words of a command passed over, or of a BWR, that are still to come; whether the buffer is being refilled (R102, R104). -/
  drop    : Nat
  bwr     : Option BeamBwr
  refill  : Bool
  /-- The settings that a start samples (R160). -/
  mode    : Nat
  lanes   : Nat
  format  : Nat
  rate    : Nat
  /-- The start commands still to be sent after deskew (R160), and whether the deskew burst has ended. -/
  starting : Bool
  deskewed : Bool
  /-- What the head's last event put on its lanes. -/
  out     : List LaneItem
  /-- The beam model: phase, last sample, accepted and rejected counts, periods missed (R146, R147), and whether the head gave up the sample of the
  period for a line packet (R145). -/
  tTE     : Nat
  tLast   : Option Nat
  accepted : Nat
  rejects : Nat
  missed  : Nat
  teSkip  : Bool
  /-- The race of the frame: frame set, whether it pushes, chase or lead, margin in use, boundary time, line period T (R149 to R152). -/
  fset    : Nat
  pushOk  : Bool
  raceBad : Bool
  chase   : Bool
  marg    : Nat
  fbTime  : Nat
  lineT   : Nat
  /-- Frames since the last full frame, and the full frames that are due (R153). -/
  sinceFull : Nat
  firstFrame : Bool
  firstLock : Bool
  forceFull : Bool
  fullNow : Bool
  /-- The line store, the frame being sent and its next line to send, the line of a video frame that starts next and whether a frame boundary has come at its
  start (R157), the packet on the lanes, the start of the last one (R150, R154). -/
  slots   : List StoreLine
  sendFrame : Nat
  sendNext : Nat
  vline   : Nat
  vbound  : Bool
  pkt     : Option Packet
  lastStart : Option Nat
  /-- Bands pushed in this frame and in the one before (R148). -/
  pushed  : Nat
  pushedPrev : Nat
  /-- The bus handed to the panel: since when (R145). -/
  bta     : Option Nat
  /-- The level of HEAD_n_RESET_N: true is low (R161). -/
  resetLow : Bool
  /-- The last row sent (frame, line, end of its burst) of a frame not yet recorded, and the flip records, the latest first (R159). -/
  lastRow : Option (Nat × Nat × Nat)
  flips   : List FlipRec
  /-- The witness (R165 to R170): row validity, rows sent, per band consecutive failing frames, the frames in which race_suspect was set, digests due. -/
  rowValid : List (Nat × Bool)
  rows    : List SentRow
  failRun : List (Nat × Nat)
  suspect : List Nat
  jobs    : List DigestJob
deriving DecidableEq, Repr

/-- A head before anything has happened to it. -/
def HeadSt.init : HeadSt :=
  { line := 0, cyc := 0, inFrame := false, lineOld := [], arrOld := [], held := [], ready := [], sprBase := 0, sprCount := 0, keys := [],
    evals := [], sprDirty := false, otc := [], otcLine := none, hits := [], hitLine := none, skipped := false, bandPal := [], scrollBeam := [], pix := [], palJob := none,
    beamBase := 0, beamLen := 0, pc := 0, cnt := [0, 0, 0, 0], target := 0, buf := [], skip := 0, wait := .none, drop := 0, bwr := none, refill := false,
    mode := 0, lanes := 2, format := 3, rate := 1000, starting := false, deskewed := false, out := [], tTE := 0, tLast := none, accepted := 0, rejects := 0, missed := 0, teSkip := false,
    fset := 0, pushOk := false, raceBad := false, chase := false, marg := 0, fbTime := 0, lineT := 0, sinceFull := 0, firstFrame := false, firstLock := false,
    forceFull := false, fullNow := false, slots := [], sendFrame := 0, sendNext := 0, vline := 0, vbound := false, pkt := none, lastStart := none, pushed := 0, pushedPrev := 0, bta := none,
    resetLow := true, lastRow := none, flips := [], rowValid := [], rows := [], failRun := [],
    suspect := [], jobs := [] }

/-! ## Block engine and DMA (chapter 9) -/

/-- What the block engine waits for: nothing, a trigger, a trigger that has come, a line of a head, or a head's boundary and then a line. -/
inductive BlkWait where
  | none
  | trig (t : Nat)
  | hit
  | line (head line : Nat)
  | boundary (head line : Nat)
deriving DecidableEq, Repr

/-- A drawing command under way: its eight words, the spans of destination pixels not yet moved (row, first pixel, pixels), and the bytes of a pixel that
straddles a 256-byte boundary which the next burst writes, with their address (R183). -/
structure BlkJob where
  words : List Nat
  spans : List (Nat × Nat × Nat)
  tail : Option (Nat × List Byte)
deriving DecidableEq, Repr

/-- The block engine: its list's start, the index of its command in the list, the command under way, and its wait. -/
structure BlkSt where
  base : Nat
  idx : Nat
  job : Option BlkJob
  wait : BlkWait
deriving DecidableEq, Repr

/-- Where a DMA channel stands with its descriptor. -/
inductive DmaPhase where
  | load | lineStart | move | ended
deriving DecidableEq, Repr

/-- A DMA channel: the descriptor at hand, as address bits [31:5], its phase, the descriptor's working words (R187), whether its overlap leaves the result
unspecified (R188), the burst issued and not done (bytes), whether the wrapper at its source passed it when it was issued and which block's wrapper that
is (R32), the bytes of a fixed source's word that the last burst left over, a request to abort after the burst, and the bursts it has waited. -/
structure DmaCh where
  desc : Nat
  phase : DmaPhase
  words : List Nat
  undef : Bool
  burst : Option Nat
  opened : Bool
  via : Option Nat
  carry : List Byte
  abort : Bool
  waited : Nat
deriving DecidableEq, Repr

/-- A DMA channel at reset. -/
def DmaCh.init : DmaCh := ⟨0, .load, [], false, none, false, none, [], false, 0⟩

/-! ## Audio (chapter 10) -/

/-- A sounding voice: the base and format sampled at key-on, its position in 1/65,536 samples, the value it holds after a fault, and its
last output value (R199 to R201). -/
structure Voice where
  start : Nat
  format : Nat
  pos : Nat
  held : Option Int
  last : Int
deriving DecidableEq, Repr

/-- A block to be rendered: its number, the register values latched for it, the input samples received in the block before, and the ports
that were master or locked (R194, R205). -/
structure AudJob where
  block : Nat
  vals : List (Nat × Word)
  ins : List (Nat × List Int)
  live : Nat
deriving DecidableEq, Repr

/-- The hidden state of the audio island: the values and live ports of the block rendered before, the values latched for the block now playing and those
after it (R194), the renders outstanding, the blocks rendered, the voices, the effect registers, write pointers and writes due, the factors, the last frame rendered
(R195), and the integrators of each PDM output's modulator with its bits for the block now playing (R212). -/
structure AudSt where
  prev : List (Nat × Word)
  prevLive : Nat
  latches : List (Nat × List (Nat × Word))
  jobs : List AudJob
  done : List (Nat × List (List Int))
  voices : List (Nat × Voice)
  fx : List (Nat × Word)
  wp : List (Nat × Nat)
  dwr : List (Nat × Word)
  factor : List (Nat × Nat)
  lastOut : List Int
  mods : List (Nat × List Int)
  pdm : List (Nat × List Bool)
deriving DecidableEq, Repr

/-- The audio island at reset. -/
def AudSt.init : AudSt := ⟨[], 0, [], [], [], [], [], [], [], [], [], [], []⟩

/-- The shape of a serial frame (R209): its slots and their width in bits, whether FS is one BCLK wide, and the BCLKs from FS to slot 0. -/
structure SpShape where
  slots : Nat
  bits  : Nat
  pulse : Bool
  delay : Nat
deriving DecidableEq, Repr

/-- A serial port: its raw FIFOs, the shape and words of the frame last sent, the frames received in the block and in the one before, and the number sent in the
block (R209 to R211); the phases of its two rate converters, and per slot the converted samples that the group delay of the input's still holds (R210). -/
structure SpSt where
  tx : List Nat
  rx : List Nat
  shape : Option SpShape
  out : List Nat
  got : List (List Nat)
  past : List (List Nat)
  idx : Nat
  phIn : Nat
  phOut : Nat
  line : List (Nat × List Int)
deriving DecidableEq, Repr

/-- A serial port at reset. -/
def SpSt.init : SpSt := ⟨[], [], none, [], [], [], 0, 0, 0, []⟩

/-! ## Flags and Kindling (chapters 11, 13 and 14) -/

/-- The four flags of a processor (R215). -/
structure Flags where
  n : Bool
  z : Bool
  c : Bool
  v : Bool
deriving DecidableEq, Repr

/-- The states of a thread (Table 13-1). -/
inductive ThrState where
  | free | ready | blocked | halted | faulted
deriving DecidableEq, Repr

/-- A Kindling thread: its state, the state it had when the debugger halted it, its registers g0 to g15, program counter and flags, the
resources it has armed with their vectors, its parent, the wait code and resource of a blocked instruction, the cycle of its last
issue, whether a halt, or a halt after one instruction, awaits its next slot (R265, R273, R285, R289), and the Kindling cycles for which it has been
stall-blocked without a break (R287). -/
structure Thr where
  state : ThrState
  before : ThrState
  g : List (Nat × Word)
  pc : Word
  flags : Flags
  events : List (Nat × Word)
  parent : Option Nat
  wait : Nat
  res : Nat
  issued : Option Nat
  halt : Bool
  calm : Nat
deriving DecidableEq, Repr

/-- A free thread that holds no context. -/
def Thr.init : Thr := ⟨.free, .free, [], 0, ⟨false, false, false, false⟩, [], none, 0, 0, none, false, 0⟩

/-- A channel end: allocation and owner, inbound tokens, destination and one held until the route closes, whether its outbound route is
open, and whether a CT_ABORT of it waits to leave (R277 to R281, R291). -/
structure ChEnd where
  alloc : Bool
  owner : Nat
  buf : List Nat
  dest : Option Nat
  held : Option Nat
  out : Bool
  abort : Bool
deriving DecidableEq, Repr

/-- A channel end that is not allocated. -/
def ChEnd.init : ChEnd := ⟨false, 0, [], none, none, false, false⟩

/-- A Kiln end: received and queued tokens, destination in effect, whether the message it sends is open, the source of the open or last
route (R283), and the threads that sent the closed messages among the received tokens, as lock IDs (R350). -/
structure KEnd where
  rx : List Nat
  tx : List Nat
  dest : Nat
  out : Bool
  src : Nat
  ids : List Nat
deriving DecidableEq, Repr

/-- A Kiln end at reset. -/
def KEnd.init : KEnd := ⟨[], [], 0, false, 0, []⟩

/-- What holds a destination, or has been granted it next, and the senders that wait for it in the order they began (R280); whether the holder's route into
it is open, from its first token until its last end marker has entered. A sender is a channel end e as e, or Kiln end k as 128 + k; a destination is a channel end
as its number, or Kiln end k as 256 + k. -/
structure Inbound where
  holder : Option Nat
  waiters : List Nat
  opened : Bool
deriving DecidableEq, Repr

/-- A destination that nothing holds or waits for. -/
def Inbound.init : Inbound := ⟨none, [], false⟩

/-- A token on its way: the token, its sender as a destination's holder is numbered, the thread that sent it, and how many stores threads had made before it
left (R271). -/
structure Flying where
  tok : Nat
  src : Nat
  thr : Option Nat
  after : Nat
deriving DecidableEq, Repr

/-- A thread's store that others do not see yet: its number, the cycle from which they do, the thread, home address and bytes (R266). -/
structure ThrStore where
  num : Nat
  due : Nat
  thr : Nat
  addr : Nat
  bytes : List Byte
deriving DecidableEq, Repr

/-- What is left of a store over whose bytes at `a`, `n` of them, a later store has gone (R271). -/
def ThrStore.without (e : ThrStore) (a n : Nat) : List ThrStore :=
  if a + n ≤ e.addr || e.addr + e.bytes.length ≤ a then [e]
  else (List.range e.bytes.length).filterMap fun k =>
    if a ≤ e.addr + k && e.addr + k < a + n then none else e.bytes[k]?.map (fun b => { e with addr := e.addr + k, bytes := [b] })

/-- A message whose end marker has reached Kiln (R18, R176): its Kiln end, its sending end, the head that end was bound to then, and the Kindling cycle. -/
structure Arrival where
  kend : Nat
  src : Nat
  head : Option Nat
  at_ : Nat
deriving DecidableEq, Repr

/-- A hardware lock: its holder and waiters (R284). -/
structure Lock where
  holder : Option Nat
  waiters : List Nat
deriving DecidableEq, Repr

/-- What a port captured: its timer, and timebase bits [15:0] (R305). -/
structure Capture where
  timer : Nat
  tb : Nat
deriving DecidableEq, Repr

/-- A clock of Kindling ports (R295, R296): the rising and falling edges that it has had, the cycles that its prescaler has counted since run was set, its
phase while it runs (whether its output is high, and the prescaled cycles of the phase that have passed), and whether run has been cleared and the block stops
at the end of its low phase. Clock 8 is the Kindling clock. -/
structure Clk where
  ticks : Nat
  falls : Nat
  pre : Nat
  phase : Option (Bool × Nat)
  stop : Bool
deriving DecidableEq, Repr

/-- A clock that has not run. -/
def Clk.init : Clk := ⟨0, 0, 0, none, false⟩

/-- A Kindling port beside its registers: how far its timer stands ahead of its clock's count of ticks, the filtered level, compare settings, a condition met
with its captured level and capture, the capture latched by IN and that of the last output, the transfer register with its capture, an output shift register
that holds a word with its clock's count of active edges at the load, the output time set, a timed output pending and whether its tick has come and it waits for
the transfer register, the value that it puts out before invert, and whether a guard trip, or its own maximum-on trip, holds its pin inactive until its next OUT
(R294 to R309, R322). -/
structure Port where
  base : Nat
  level : Bool
  cmpLevel : Bool
  cmpGate : Nat
  cmpTime : Nat
  met : Option (Bool × Capture)
  latch : Option Capture
  outCap : Option Capture
  xfer : Option Nat
  xcap : Option Capture
  shift : Option (Nat × Nat)
  outTime : Option Nat
  pend : Option (Nat × Nat)
  due : Bool
  drive : Option Bool
  inactive : Bool
  stopped : Bool
deriving DecidableEq, Repr

/-- A port after a reset of the Kindling block (R39). -/
def Port.init : Port := ⟨0, false, false, 0, 0, none, none, none, none, none, none, none, none, false, none, false, false⟩

/-- A port whose shift and transfer registers and pending output are dropped. -/
def Port.emptied (p : Port) : Port := { p with xfer := none, xcap := none, shift := none, pend := none, due := false }

/-- Kindling beside its registers: the cycle, the thread to which the current slot is given, the last borrower, whether the stall detector
is armed, threads, channel ends, Kiln ends, destinations, tokens on their way, locks, the stores
that others do not see yet and the number of the next one, the messages at Kiln ends that wait for it, in the order their end markers came, and the clocks of
the ports. -/
structure Kind where
  cyc : Nat
  slot : Option Nat
  borrower : Nat
  armed : Bool
  thr : List (Nat × Thr)
  ends : List (Nat × ChEnd)
  kends : List (Nat × KEnd)
  into : List (Nat × Inbound)
  flight : List (Nat × Flying)
  locks : List (Nat × Lock)
  stores : List ThrStore
  storeNum : Nat
  arrived : List Arrival
  clks : List (Nat × Clk)
deriving DecidableEq, Repr

/-- Kindling after its block starts (R265, R269). -/
def Kind.init : Kind := ⟨0, none, 63, true, [], [], [], [], [], [], [], 0, [], []⟩

/-- The response that the last access command got: its data, whether it was an error response or a poison response. -/
structure Resp where
  data : Nat
  err : Bool
  poison : Bool
deriving DecidableEq, Repr

/-! ## Timers, interrupts, mailboxes and pins (chapters 15 to 17) -/

/-- A timer beside its registers: the count held in its cascade shadow, the timebase value of its newest capture, the level that its
output has (R331, R334, R335), the pin-control cycles that its divider has counted (R330), and the edges that its prescaler has (R333). -/
structure Tmr where
  shadow : Word
  capTb : Word
  out : Bool
  div : Nat
  edges : Nat
deriving DecidableEq, Repr

/-- A timer at reset. -/
def Tmr.init : Tmr := ⟨0, 0, false, 0, 0⟩

/-- An entry of the MSI-X table (R352): message address and data, and whether the vector is masked. -/
structure Msix where
  addr : Nat
  data : Nat
  masked : Bool
deriving DecidableEq, Repr

/-- An entry of the MSI-X table after reset, a link-down or an FLR (R433). -/
def Msix.init : Msix := ⟨0, 0, true⟩

/-- The link side of the host interface: the MSI-X table, the pending bits, the messages sent per vector, and whether the function is in D0. -/
structure HostSt where
  msix : List (Nat × Msix)
  pba : List (Nat × Bool)
  sent : List (Nat × Nat)
  d0 : Bool
deriving DecidableEq, Repr

/-- The host interface at reset. -/
def HostSt.init : HostSt := ⟨[], [], [], true⟩

/-! ## Kiln (chapters 11 and 12) -/

/-- A side-unit operation that has issued and not completed (R249, R257): its word, operand values and address, whether no later instruction has
issued (R250), and whether it issued at Supervisor, which says what g13 among its destinations names (R259). -/
structure KSide where
  word : Word
  ra : Word
  rb : Word
  addr : Word
  fresh : Bool
  sup : Bool
deriving DecidableEq, Repr

/-- A load from outside the TCMs whose data has not returned (R243): address, bytes, sign extension, destination, the base register's new value,
the instruction's length, whether it has asked for its data or waits for a buffered store to leave (R245), whether the wrapper at the address passed the request and which block's wrapper that is (R32), and whether the wrapper has
completed it with an error response (R36, R37). -/
structure KLoad where
  addr : Nat
  size : Nat
  sext : Bool
  rd : Nat
  base : Option (Nat × Word)
  len : Nat
  asked : Bool
  opened : Bool
  via : Option Nat
  failed : Bool
deriving DecidableEq, Repr

/-- Kiln (R214, R215, R264): general registers with g13 in its two banks, pc, status and the system registers of Table 12-6; the store buffer,
oldest entry first (R244); the side-unit operation; whether a divide by zero was reported with no later instruction issued (R250); imprecise exceptions
reported and not taken, with info and frame word 7 (R252); the bytes that fetch holds where a store has since changed memory (R247); the load that
holds the pipeline; the length of the WAIT that it waits in; lockup (R263); halted, a halt that awaits a boundary, and a step to be made (R525, R526). -/
structure Kiln where
  g : List (Nat × Word)
  usp : Word
  ssp : Word
  pc : Word
  status : Word
  vbar : Word
  svcPc : Word
  svcStatus : Word
  svcNum : Word
  svcVec : Word
  origin : Word
  sidePc : Word
  sb : List (Nat × List Byte)
  side : Option KSide
  zeroFresh : Bool
  held : List (Nat × Byte)
  late : List (Nat × Word × Word)
  load : Option KLoad
  waiting : Bool
  waitLen : Nat
  lockup : Bool
  halted : Bool
  haltReq : Bool
  step : Bool
deriving DecidableEq, Repr

/-- Kiln at reset: at the start of the boot ROM, in Supervisor (R215, R264, R460). -/
def Kiln.init : Kiln :=
  { g := [], usp := 0, ssp := 0x00220000, pc := 0, status := 0x10, vbar := 0, svcPc := 0, svcStatus := 0, svcNum := 0, svcVec := 0, origin := 0,
    sidePc := 0, sb := [], side := none, zeroFresh := false, held := [], late := [], load := none, waiting := false, waitLen := 0, lockup := false, halted := false,
    haltReq := false, step := false }

/-! ## Falornyr (chapters 19 to 22 and 25) -/

/-- A DATA frame that a session has not seen covered by cum_ack: a number of its own that it keeps in a new session, its seq, its body, how often it has been
sent, the path that carried it last, whether it waits for a link, and whether a sack covers it, after which it is not sent again (R412 to R414, R416). -/
structure FwFrame where
  id : Nat
  seq : Nat
  body : List Byte
  sends : Nat
  path : Nat
  waits : Bool
  sacked : Bool
deriving DecidableEq, Repr

/-- A session with a peer (R408 to R414): the nonce of this node's HELLO and whether it has been sent, what the peer's HELLO gave (nonce, epoch,
role, rank), whether HELLOs are sent, whether the key is derived and the session established, the next seq, the lowest seq held, the frames
held and the bodies that wait for room, the peer's seqs received (all up to cum, and those above), the replay window (highest counter and those
marked), and whether each path is up. -/
structure FwSess where
  nonce : List Byte
  sentHello : Bool
  peer : Option (List Byte × Nat × Nat × Nat)
  opening : Bool
  live : Bool
  est : Bool
  next : Nat
  base : Nat
  held : List FwFrame
  wait : List (Nat × List Byte)
  cum : Nat
  got : List Nat
  high : Nat
  marks : List Nat
  up0 : Bool
  up1 : Bool
deriving DecidableEq, Repr

/-- No session. -/
def FwSess.init : FwSess := ⟨[], false, none, false, false, false, 1, 1, [], [], 0, [], 0, [], false, false⟩

/-- What a record of Falornyr's is for: an event, the epoch that it opens with the records (entry and payload) to resend then, or a node's floor that it
raises. -/
inductive SealFor where
  | event
  | epoch (olds : List (List Byte × List Byte))
  | raise (node point : Nat)
deriving DecidableEq, Repr

/-- A record to be sealed: the command tag, the record, its payload, what it is for, the resubmissions made, the status for which it waits, and the
time at which it is due again (R503, R504). -/
structure SealJob where
  tag : Nat
  record : List Byte
  payload : List Byte
  why : SealFor
  tries : Nat
  wait : Option Nat
  due : Nat
deriving DecidableEq, Repr

/-- A pending entry (R397): the TXID, its current tag, the Cord entry, its payload, and the resends made. -/
structure Pend where
  txid : Nat
  tag : Nat
  entry : List Byte
  payload : List Byte
  resends : Nat
deriving DecidableEq, Repr

/-- An entry for the Keeper's next batch (R400, R401, R416): the TXID, the tag that it answers, the status, the node to which it goes, and the
frames (standby and frame number) that must be covered before it may be acknowledged. -/
structure BatchEnt where
  txid : Nat
  tag : Nat
  status : Nat
  node : Nat
  waits : List (Nat × Nat)
deriving DecidableEq, Repr

/-- A batch being assembled (R420): the peer, the batch id, what its head gave (the body's length, the record and the seal), and the parts so far by offset. -/
structure Asm where
  peer : Nat
  id : Nat
  head : Option (Nat × List Byte × List Byte)
  parts : List (Nat × List Byte)
deriving DecidableEq, Repr

/-- What a ledger command of Falornyr's own other than a SEAL of its records is for: the ADMIT of a RECORD (its node and tag, the entry and the payload), of a
REPLICA, a SEEN_INSERT, the BATCH of a body with its entries, or the VERIFY of a batch (its body). -/
inductive AskFor where
  | record (node tag : Nat) (entry payload : List Byte)
  | replica
  | seen
  | batch (es : List BatchEnt) (body : List Byte)
  | verify (body : List Byte)
deriving DecidableEq, Repr

/-- A ledger command of Falornyr's own in the island: its tag (R503), and what it is for. -/
structure Ask where
  tag : Nat
  what : AskFor
deriving DecidableEq, Repr

/-- Falornyr's IEEE 1588 ordinary clock (R422): the port and the identity of its master with the rank of its Announce, the sequenceId of the last Sync and the times
of the exchange in ns (Sync sent and received, Delay_Req sent), the sequenceId of its own Delay_Req, and the next sequenceId that it gives. -/
structure PtpClock where
  master : Option (Nat × List Byte × Nat)
  sync : Nat
  t1 : Option Nat
  t2 : Option Nat
  t3 : Option Nat
  req : Nat
  next : Nat
deriving DecidableEq, Repr

/-- A clock that has heard nothing. -/
def PtpClock.init : PtpClock := ⟨none, 0, none, none, none, 0, 0⟩

/-- The image that runs (R461, R462): what its header says, its body, and its profile records. -/
structure Image where
  version : Nat
  rollback : Nat
  code : List Byte
  profiles : List (Nat × Profile)
deriving DecidableEq, Repr

/-- A host command that Falornyr has copied from a request mailbox and not answered (R436 to R439): mailbox, header, len, parameters or what its work
keeps, whether its work has begun, and whether it has been answered with OVERTIME while its work goes on (R440). -/
structure HostCmd where
  mbx : Nat
  hdr : Nat
  len : Nat
  params : List Nat
  begun : Bool
  told : Bool
deriving DecidableEq, Repr

/-- What Falornyr keeps. Mailboxes (R438, R439, R443, R444): the request mailboxes with go set, in that order, the commands copied from them, per request
mailbox the sequence of the last command and its response once it has one, responses and notification entries that wait, and the next notification's sequence. The image that runs, whether Falornyr runs, whether a
warm restart is under way, and the profile that it enters. The node (R384, R415, R418): number, role, rank, epoch and whether it is open, whether its Seen table has been rebuilt since the boot (R404), next sequence, tag counter, Keeper
table, active Keeper, term, standbys in sync, and whether this standby is. Transactions (chapter 19), among them the ledger commands asked for, the completions that
wait while Falornyr does not serve (tag, ring index, status, journal sequence), the TXIDs rejected and the recovered entries handed to host software (R396, R399). Sessions, frames that
wait for a transmit descriptor (port, timestamp asked, bytes) and the next receive descriptor of each port, messages and frame
numbers of the floor link. Witness bindings and the q at which each witness was enabled (R173, R176). Thread policy
(R505). Health counters, thresholds, counters posted, heartbeat (R511 to R513). Certificate, version and verdict of the staged image, power limit, registers that Dusk
replaced (R490), IEEE 1588. -/
structure Fw where
  goes : List Nat
  cmds : List HostCmd
  last : List (Nat × (Nat × Option (List Nat)))
  resps : List (List Nat)
  notes : List (Nat × Nat)
  noteSeq : Nat
  image : Option Image
  running : Bool
  restart : Bool
  goal : Nat
  node : Nat
  role : Nat
  rank : Nat
  epoch : Nat
  epochOpen : Bool
  rebuilt : Bool
  nextSeq : Nat
  tagCtr : Nat
  keepers : List (Nat × Nat)
  active : Option Nat
  term : Nat
  inSync : List Nat
  synced : Bool
  stop : List Nat
  jobTag : Nat
  jobs : List SealJob
  pend : List Pend
  batch : List BatchEnt
  batchId : Nat
  asms : List Asm
  raised : List (Nat × Nat)
  asks : List Ask
  ended : List (Nat × Nat × Nat × Nat)
  rejects : List Nat
  handed : List (List Byte)
  out : List (Nat × Bool × List Byte)
  rxAt : List (Nat × Nat)
  sess : List (Nat × FwSess)
  inbox : List (Nat × Nat × List Byte)
  frameId : Nat
  bind : List (Nat × Nat)
  witAt : List (Nat × Nat)
  starts : List (Nat × (Word × Word))
  policy : List (Nat × Nat)
  restarts : List (Nat × List Nat)
  health : List (Nat × Nat)
  thresholds : List (Nat × Nat)
  posted : List (Nat × Bool)
  beat : Nat
  cert : List Byte
  staged : Option (Nat × Bool)
  limit : Nat
  saved : List (Nat × Word)
  ptp : Nat × Nat × Bool
  ptpLock : Bool
  clock : PtpClock
  /-- An address of Falornyr's code that faulted and awaits its repair, and whether its data, stack or vector table has faulted (R509). -/
  mend : Option Nat
  broken : Bool
deriving DecidableEq, Repr

/-- Falornyr before it starts. -/
def Fw.init : Fw :=
  { goes := [], cmds := [], last := [], resps := [], notes := [], noteSeq := 0, image := none, running := false, restart := false, goal := 0, node := 0, role := 0, rank := 0, epoch := 0,
    epochOpen := false, rebuilt := false, nextSeq := 0, tagCtr := 0, keepers := [], active := none, term := 1, inSync := [], synced := false, stop := [],
    jobTag := 0, jobs := [], pend := [], batch := [], batchId := 0, asms := [], raised := [], asks := [], ended := [], rejects := [], handed := [], out := [], rxAt := [], sess := [], inbox := [], frameId := 0,
    bind := [], witAt := [], starts := [], policy := [], restarts := [], health := [], thresholds := [], posted := [], beat := 0, cert := [],
    staged := none, limit := 0, saved := [], ptp := (0, 0, false), ptpLock := false, clock := PtpClock.init, mend := none, broken := false }

/-! ## The ledger island (chapter 18) -/

/-- A session slot: AES key, IV prefix and send counter (Table 18-4). -/
structure Sess where
  key : List Byte
  iv : List Byte
  ctr : Nat
deriving DecidableEq, Repr

/-- A parsed field of a translation: its raw bytes, its digits (by value, 16 for a character that is no digit), and whether it is binary. -/
structure XlField where
  raw : List Byte
  digits : List Nat
  bin : Bool
deriving DecidableEq, Repr

/-- A translation engine at work (R373): the input and its cursor, the dst buffer, x0 to x7, t, the set bits of B, the bits of B whose
bitmaps have been read, the field table, the program counter, the instructions executed, and once it has stopped the status and detail. -/
structure Xl where
  input : List Byte
  cur : Nat
  out : List Byte
  x : List Nat
  t : Bool
  set : List Nat
  maps : List Nat
  f : List (Nat × XlField)
  pc : Nat
  n : Nat
  stop : Option (Nat × Nat)
deriving DecidableEq, Repr

/-- A command in the island (R354, R355): its sixteen words, the src bytes of a command of Falornyr's own, whether it has been dispatched and
to which engine, what it keeps from its dispatch (peer entry, session, Seen salt), and once it has ended its status, detail and the value
of words 2 and 3; the record and seal of an ADMIT that has verified stay in `held` until it commits. -/
structure LCmd where
  words : List Nat
  own : Option (List Byte)
  started : Bool
  eng : Option Nat
  peer : Option (List Byte)
  sess : Option Sess
  salt : List Byte
  held : Option (List Byte)
  res : Option (Nat × Nat × Option Nat)
deriving DecidableEq, Repr

/-- The ledger island beside its registers: the commands in it in ring order, the device keys (signing and agreement) and whether their
derivation runs, peer entries, sessions, victim store (context and TXID), floors by context and node (epoch and sequence as one number), the
staged low words of floor and tail, journal sequence and tail, the chain value H, and the translation engines at work. -/
structure Led where
  cmds : List LCmd
  dev : Option (Nat × List Byte)
  loading : Bool
  peers : List (Nat × List Byte)
  sess : List (Nat × Sess)
  victims : List (Nat × Nat)
  floors : List (Nat × Nat)
  floorLo : Nat
  tailLo : Nat
  seq : Nat
  tail : Nat
  chain : List Byte
  xl : List (Nat × Xl)
deriving DecidableEq, Repr

/-- The ledger island at reset. -/
def Led.init : Led := ⟨[], none, false, [], [], [], [], 0, 0, 0, 0, [], []⟩

/-! ## Clocks, fuses, power and test (chapters 22 to 24 and 26) -/

/-- Where the Ember island stands (R487 to R494): held in power-on reset, RESET_N low, a fuse load due or under way, three loads failed, rail k to
be enabled, the power good of rail k awaited, the islands released, rail k to be lowered, Midnight. -/
inductive EmberPhase where
  | off
  | held
  | load
  | dead
  | up (k : Nat)
  | good (k : Nat)
  | run
  | down (k : Nat)
  | midnight
deriving DecidableEq, Repr

/-- The Ember island and the clocks beside their registers: the phase, the level of the reset under way, the words that a fuse load has read,
the field-segment cells that FUSE_PROG has set, the words of the last load that passed, the level of the PROFILE_SEL pins latched, the trim that
FRC has reached, whether PLL_FABRIC has locked since the reset, the last temperatures of the four sensors in degrees, whether the cool-down of a trip
still runs, the wakes latched (pins in bits 3 to 0, RTC in bit 4), whether the release must load the fuses and raise the rails, and the core voltage set
in mV with the mantissa last sent for it (R495). -/
structure Ember where
  phase : EmberPhase
  level : Nat
  staged : Option (List Word)
  cells : List (Nat × Word)
  fused : List (Nat × Word)
  frc : Int
  tbOn : Bool
  temps : List Int
  cooling : Bool
  wakes : Nat
  again : Bool
  vset : Nat
  vsent : Nat
deriving DecidableEq, Repr

/-- The Ember island at the release of a power-on reset: a fuse load is due. -/
def Ember.init : Ember := ⟨.load, 0, none, [], [], 0, false, [25, 25, 25, 25], false, 0, true, 800, 0⟩

/-- The JTAG port (R519 to R522): the instruction that was last selected, the bits that its last shift gave out, the boundary cells that
EXTEST drives, and the data and error bit that the next DBGACC shift gives. -/
structure Jtag where
  ir : Nat
  out : Nat
  cells : List (Nat × Bool)
  data : Nat
  err : Bool
deriving DecidableEq, Repr

/-- The JTAG port at reset. -/
def Jtag.init : Jtag := ⟨2, 0, [], 0, false⟩

/-! ## The state -/

/-- The state of the device and its command queue. A sparse map (a list of keys and values) lists only entries that differ from the default which the
accessor named beside it gives. -/
structure State where
  /-- The commands that wait, first in, first out. -/
  pending : List Instr
  /-- The model's own: how many free values have been drawn (`State.draw`). -/
  free : Nat
  /-- Every 32-bit register by address, `regReset` where unlisted (`State.reg`). -/
  regs : List (Nat × Word)
  /-- Every byte of QDR, CSRAM, TCM, line stores and Kindling memory by home address, `memUnlisted` where unlisted (`State.byte`). -/
  mem : List Host.Cell
  /-- Blocks held in reset, until BLOCK_RESET_RELEASE (R37). -/
  blkReset : List (Nat × Bool)
  /-- Words of memory stored with a failing check pattern, by home address: 1 poisoned (R58, R69). -/
  ecc : List (Nat × Nat)
  /-- Corrective write-backs that wait (R55, R56). -/
  wb : List (Nat × Nat)
  /-- Capture points of the QDR byte groups, in steps from where training set them (R65). -/
  capture : List (Nat × Int)
  /-- The granule that patrol scrub reads next, by channel (R59). -/
  scrubPos : List (Nat × Nat)
  /-- Palettes, gamma tables and scaler coefficients, `arrInit` where unlisted (`State.arrAt`). -/
  arr : List (Nat × Nat)
  /-- The four heads with their scene engines. -/
  heads : List (Nat × HeadSt)
  /-- The slot that each video pipe holds (R139). -/
  vslot : List (Nat × Nat)
  /-- Bands that a pipe in transit will mark where it joins (R139). -/
  pipeBands : List (Nat × Nat)
  /-- Video plane bases in use, and those held for the flip (R136). -/
  vidBase : List (Nat × Word)
  vidHeld : List (Nat × Word)
  /-- The response to the access made last. -/
  rd : Resp
  /-- The timebase (R327). -/
  tb : Nat
  /-- Pulses that interrupt sources have not yet delivered (R340). -/
  pulse : List (Nat × Bool)
  /-- The block engine. -/
  blk : BlkSt
  /-- The DMA channels, and per priority the channel served last, 15 where unlisted (R189). -/
  dma : List (Nat × DmaCh)
  dmaLast : List (Nat × Nat)
  /-- The audio island, and the serial ports. -/
  aud : AudSt
  sp : List (Nat × SpSt)
  /-- Kindling, and its ports. -/
  kind : Kind
  ports : List (Nat × Port)
  /-- The fraction of the timebase's rate that TB_ADJ has accumulated (R327), and the steps that the next edge adds (R328). -/
  tbAcc : Int
  tbSteps : List Int
  /-- The part of a pin-control cycle that has passed, in millionths. -/
  pinAcc : Nat
  /-- Timers beside their registers. -/
  tmr : List (Nat × Tmr)
  /-- ADC channels still to convert in this pass, and whether a pass is held (R336 to R338). -/
  adcTodo : List Nat
  adcHeld : Bool
  /-- Firings of each interrupt source in its storm window (R344). -/
  fires : List (Nat × Nat)
  /-- Levels of the external interrupt inputs. -/
  extl : List (Nat × Bool)
  /-- Pads retained through HOLD, with their levels and drive strengths (R326). -/
  retain : List (Nat × Bool)
  retDrive : List (Nat × Nat)
  /-- The last level that each pad's bus keeper has seen (R317, R319). -/
  keep : List (Nat × Bool)
  /-- The host link. -/
  host : HostSt
  /-- Kiln. -/
  kiln : Kiln
  /-- Falornyr. -/
  fw : Fw
  /-- The ledger island. -/
  led : Led
  /-- The high half of FLOOR_p_TXTS latched by a read of the low one (R329). -/
  txts : List (Nat × Nat)
  /-- The frame that each floor port sent last. -/
  wire : List (Nat × List Byte)
  /-- Floor ports that are trying the fallback rate (R406). -/
  trial : List (Nat × Bool)
  /-- The Ember island, clocks and fuses. -/
  ember : Ember
  /-- The JTAG port. -/
  jtag : Jtag
  /-- The timebase value at the watchdog's last kick (R515). -/
  wdog : Nat
  /-- The trace unit's FIFO, oldest record first, and the records dropped since its last overflow record (R531). -/
  trc : List (List Byte)
  trcLost : Nat
deriving DecidableEq, Repr

/-- The device after power-on reset, with its fuse load due: power-on recorded, the always-on rail good (R483, R487). Every other register holds its
reset value; values that the manual does not give are those of the notes' assumptions. -/
def State.reset : State :=
  { pending := [], free := 0,
    regs := [(RST_CAUSE, setF (regReset RST_CAUSE) RST_CAUSE_source 1), (PWR_STAT, setF (setF (regReset PWR_STAT) PWR_STAT_pg 1) PWR_STAT_en 1)],
    mem := [], blkReset := [], ecc := [], wb := [], capture := [], scrubPos := [], arr := [], heads := [], vslot := [], pipeBands := [],
    vidBase := [], vidHeld := [], rd := ⟨0, false, false⟩, tb := 0, pulse := [], blk := ⟨0, 0, none, .none⟩, dma := [], dmaLast := [],
    aud := AudSt.init, sp := [], kind := Kind.init, ports := [], tbAcc := 0, tbSteps := [], pinAcc := 0, tmr := [], adcTodo := [], adcHeld := false, fires := [], extl := [],
    retain := [], retDrive := [], keep := [], host := HostSt.init, kiln := Kiln.init, fw := Fw.init, led := Led.init, txts := [], wire := [], trial := [],
    ember := Ember.init, jtag := Jtag.init, wdog := 0, trc := [], trcLost := 0 }

/-- Why the block stops with a fault: it never does, since the manual gives every command an effect. -/
inductive Fault where
deriving DecidableEq, Repr

/-- Why the block refuses a command. -/
inductive Refusal where
  /-- Raised by the dispatch for a command that has no meaning yet; safe. -/
  | notModelled (mnemonic : String)
deriving DecidableEq, Repr

end Sys2Proof.Machine
end

