-- ==== Sys2Proof/Machine/Ops.lean ====
section
/-! DEFINITION. The named operations over the state: sparse maps, registers and their fields, bytes of memory, free values,
error responses, and the wires that follow the state. Every meaning is built from these. -/

namespace Sys2Proof.Machine

/-! ## Sparse maps -/

/-- The entry of a sparse map at a key, or the default there. -/
def smGet {α : Type} (d : Nat → α) : List (Nat × α) → Nat → α
  | [], k => d k
  | (k', v) :: m, k => if k' = k then v else smGet d m k

/-- A sparse map with the entries of a key removed. -/
def smErase {α : Type} (m : List (Nat × α)) (k : Nat) : List (Nat × α) := m.filter (fun e => e.1 != k)

/-- A sorted list with one entry put before the first larger key. -/
def smInsert {α : Type} (k : Nat) (v : α) : List (Nat × α) → List (Nat × α)
  | [] => [(k, v)]
  | e :: m => if k < e.1 then (k, v) :: e :: m else e :: smInsert k v m

/-- A sparse map with one key set: an entry equal to the default is not listed. -/
def smSet {α : Type} [DecidableEq α] (d : Nat → α) (m : List (Nat × α)) (k : Nat) (v : α) : List (Nat × α) :=
  if v = d k then smErase m k else smInsert k v (smErase m k)

/-- The canonical form of a sparse map: keys strictly rising, no entry equal to the default. -/
def smWf {α : Type} [DecidableEq α] (d : Nat → α) : List (Nat × α) → Bool
  | [] => true
  | [e] => decide (e.2 ≠ d e.1)
  | e :: e' :: m => decide (e.2 ≠ d e.1) && decide (e.1 < e'.1) && smWf d (e' :: m)

/-! ## Registers -/

/-- The word a register holds. -/
def State.reg (s : State) (a : Nat) : Word := smGet regReset s.regs a

/-- The state with one register holding `w`. -/
def State.setReg (s : State) (a : Nat) (w : Word) : State := { s with regs := smSet regReset s.regs a w }

/-- The value of one field of a register. -/
def State.fld (s : State) (a : Nat) (f : Fld) : Nat := getF (s.reg a) f

/-- The state with one field of a register set. -/
def State.setFld (s : State) (a : Nat) (f : Fld) (v : Nat) : State := s.setReg a (setF (s.reg a) f v)

/-- A one-bit field of a register, as a truth value. -/
def State.bit (s : State) (a : Nat) (f : Fld) : Bool := s.fld a f == 1

/-- The state with a one-bit field of a register set from a truth value. -/
def State.setBit (s : State) (a : Nat) (f : Fld) (b : Bool) : State := s.setFld a f (cond b 1 0)

/-- The largest value of a field. -/
def fldMax (f : Fld) : Nat := 2 ^ (f.hi + 1 - f.lo) - 1

/-- A saturating counter field counts up by `k`. -/
def State.countBy (s : State) (a : Nat) (f : Fld) (k : Nat) : State := s.setFld a f (min (fldMax f) (s.fld a f + k))

/-- A saturating counter field counts one event. -/
def State.count (s : State) (a : Nat) (f : Fld) : State := s.countBy a f 1

/-- The registers of an address predicate return to their reset values (R11). -/
def State.resetRegs (s : State) (p : Nat → Bool) : State := { s with regs := s.regs.filter (fun e => !p e.1) }

/-- Whether a value is a legal encoding of a field (R10; an empty list admits every value). -/
def FRow.legal (f : FRow) (v : Nat) : Bool := f.ok.isEmpty || f.ok.any (fun r => r.1 ≤ v && v ≤ r.2)

/-- One field of a register takes a written value by its access code (R7), a reserved encoding leaving it as it is (R10). -/
def FRow.write (w new : Word) (f : FRow) : Word :=
  match f.acc with
  | .rw => if f.legal (getF new f.fld) then setF w f.fld (getF new f.fld) else w
  | .w1c => setF w f.fld (getF w f.fld - (getF w f.fld &&& getF new f.fld))
  | .w1s => setF w f.fld (getF w f.fld ||| getF new f.fld)
  | .ro | .wo | .rc => w

/-- What a read of a field contributes to the word read (R7): a write-only field reads 0. -/
def FRow.read (w : Word) (f : FRow) : Nat :=
  match f.acc with
  | .wo => 0
  | _ => getF w f.fld * 2 ^ f.fld.lo

/-- What a read leaves of a field (R7): a read-clear field is cleared. -/
def FRow.afterRead (w : Word) (f : FRow) : Word :=
  match f.acc with
  | .rc => setF w f.fld 0
  | _ => w

/-- A register word written with `new`, field by field. -/
def RegRow.write (r : RegRow) (w new : Word) : Word := r.fields.foldl (fun w f => f.write w new) w

/-- The word a read of a register returns. -/
def RegRow.read (r : RegRow) (w : Word) : Word := BitVec.ofNat 32 (r.fields.foldl (fun n f => n + f.read w) 0)

/-- What a read leaves in a register. -/
def RegRow.afterRead (r : RegRow) (w : Word) : Word := r.fields.foldl FRow.afterRead w

/-- A register written by the access codes of its fields; an offset no map lists ignores the write (R44). -/
def State.writeCodes (s : State) (a : Nat) (w : Word) : State :=
  match regRow a with
  | some r => s.setReg a (r.write (s.reg a) w)
  | none => s

/-- A register's read-clear fields cleared by a read of it. -/
def State.readClears (s : State) (a : Nat) : State :=
  match regRow a with
  | some r => s.setReg a (r.afterRead (s.reg a))
  | none => s

/-- The word a read of a register returns; an offset no map lists reads 0 (R44). -/
def State.readCodes (s : State) (a : Nat) : Word :=
  match regRow a with
  | some r => r.read (s.reg a)
  | none => 0

/-! ## Bytes of memory -/

/-- What a byte of memory that nothing has written reads as: 0 (DESIGN CHOICE, assumption 3). -/
def memUnlisted (_ : Nat) : Byte := 0

/-- The byte of memory at a home address. -/
def State.byte (s : State) (a : Nat) : Byte := smGet memUnlisted s.mem a

/-- The state with one byte of memory set. -/
def State.setByte (s : State) (a : Nat) (b : Byte) : State := { s with mem := smSet memUnlisted s.mem a b }

/-- The canonical form of the memory. -/
def State.memWf (s : State) : Bool := smWf memUnlisted s.mem

/-- Bits `[hi:lo]` of a natural number. -/
def bitsN (n hi lo : Nat) : Nat := n / 2 ^ lo % 2 ^ (hi + 1 - lo)

/-- The signed value of the low `w` bits of a natural number. -/
def signed (w n : Nat) : Int := if n % 2 ^ w < 2 ^ (w - 1) then ((n % 2 ^ w : Nat) : Int) else ((n % 2 ^ w : Nat) : Int) - (2 ^ w : Nat)

/-- An integer cut to `w` bits. -/
def wrapTo (w : Nat) (i : Int) : Nat := (i % ((2 ^ w : Nat) : Int)).toNat

/-- An integer held within bounds. -/
def clampI (lo hi i : Int) : Int := if i < lo then lo else if hi < i then hi else i

/-- A little-endian number from its bytes. -/
def leOf : List Byte → Nat
  | [] => 0
  | b :: bs => b.toNat + 256 * leOf bs

/-- The `n` little-endian bytes of a number. -/
def leBytes : Nat → Nat → List Byte
  | 0, _ => []
  | n + 1, v => BitVec.ofNat 8 v :: leBytes n (v / 256)

/-- A big-endian number from its bytes. -/
def beOf (bs : List Byte) : Nat := bs.foldl (fun n b => 256 * n + b.toNat) 0

/-- The `n` big-endian bytes of a number. -/
def beBytes (n v : Nat) : List Byte := (leBytes n v).reverse

/-! ## On-chip arrays -/

/-- The reset contents of the on-chip arrays: palettes are 0 (R92), gamma tables the identity (R133), scaler coefficients linear (R131). -/
def arrInit (k : Nat) : Nat :=
  if k < 0x100000 then 0
  else if k < 0x200000 then (k % 0x400) * 4 + (k % 0x400) / 256
  else
    let phase := k % 0x200 / 8
    let vert := k % 0x400 / 0x200
    let first := if vert == 1 then 2 else 3
    if k % 8 == first then 1024 - 16 * phase else if k % 8 == first + 1 then 16 * phase else 0

/-- The entry of an on-chip array. -/
def State.arrAt (s : State) (k : Nat) : Nat := smGet arrInit s.arr k

/-- The state with an on-chip array entry set. -/
def State.setArr (s : State) (k v : Nat) : State := { s with arr := smSet arrInit s.arr k v }

/-! ## Free values -/

/-- A value the manual leaves open, and the state that has drawn it. -/
def State.draw (s : State) : Word × State := (Config.freeWord s.free, { s with free := s.free + 1 })

/-! ## Running a meaning -/

/-- The state with the queue it had before: no command's effect touches the commands that wait. -/
def keepQueue (s t : State) : State := { t with pending := s.pending }

/-! ## Pin inputs (R315, R316, R319) -/

/-- Whether function `f` (as PIN_CFG_n.func numbers it) sees pin `n`: it owns the pin, which is not in analogue mode. Else the input reads 0. -/
def State.pinSeen (s : State) (f n : Nat) : Bool := s.fld (PIN_CFG n) PIN_CFG_func == f && !s.bit (PIN_CFG n) PIN_CFG_analog

/-- Whether the primary source of input `i` of PIN_ISEL can change: timer `i`'s own pin, or that of an audio port's BCLK, FS or SD_IN. -/
def State.primarySeen (s : State) (i : Nat) : Bool :=
  if i < 16 then s.pinSeen 2 i else s.pinSeen 4 (32 + 4 * ((i - 16) / 3) + (i - 16) % 3)

/-- Whether the alternate source of input `i` can change: any pin that is not in analogue mode, whatever owns it. -/
def State.alternateSeen (s : State) (i : Nat) : Bool := !s.bit (PIN_CFG (s.fld (PIN_ISEL i) PIN_ISEL_alt)) PIN_CFG_analog

/-- The level of input `i` from those of its own pin and of the alternate pin (R316). -/
def State.inputLevel (s : State) (i : Nat) (own other : Bool) : Bool :=
  let p := own && s.primarySeen i
  let a := other && s.alternateSeen i
  match s.fld (PIN_ISEL i) PIN_ISEL_combine with
  | 0 => p
  | 1 => a
  | 2 => p && a
  | _ => p || a

/-- Whether input `i` can change: some levels of its pins make it 1. -/
def State.inputLive (s : State) (i : Nat) : Bool := s.inputLevel i true true

/-- A word received bit by bit at input `i`, from the words that its own pin and the alternate pin carry. -/
def State.inputWord (s : State) (i bits own other : Nat) : Nat :=
  (List.range bits).foldl (fun w b => w + cond (s.inputLevel i (own.testBit b) (other.testBit b)) (2 ^ b) 0) 0

end Sys2Proof.Machine
end

