-- ==== Sys2Proof/Machine/Crc.lean ====
section
/-! DEFINITION. The checks the device computes over bytes: CRC-32C with the parameters of R162, over a list of bytes. -/

namespace Sys2Proof.Machine

/-- One bit of a reflected CRC: the register shifted right, with the polynomial where a 1 left it. -/
def crcBit (poly r : Nat) : Nat := if r % 2 == 1 then (r / 2) ^^^ poly else r / 2

/-- One byte of a reflected CRC. -/
def crcByte (poly r : Nat) (b : Byte) : Nat :=
  let r := r ^^^ b.toNat
  crcBit poly (crcBit poly (crcBit poly (crcBit poly (crcBit poly (crcBit poly (crcBit poly (crcBit poly r)))))))

/-- A reflected CRC register after a list of bytes. -/
def crcRun (poly : Nat) : Nat → List Byte → Nat
  | r, [] => r
  | r, b :: bs => crcRun poly (crcByte poly r b) bs

/-- CRC-32C (R162): polynomial 0x1EDC_6F41 reflected, initial value and final XOR all ones. -/
def crc32c (bs : List Byte) : Nat := crcRun 0x82F63B78 0xFFFFFFFF bs ^^^ 0xFFFFFFFF

end Sys2Proof.Machine
end

