-- ==== Sys2Proof/Machine/Dsi.lean ====
section
/-! DEFINITION. The packets of MIPI DSI (R140, R141, R163): header with its ECC, payload, checksum. The spec names the two checks and leaves them to MIPI DSI
(PRESUMED: the ECC, checksum and data types of MIPI DSI 1.3; assumption 111). Every packet has virtual channel 0 (R140). -/

namespace Sys2Proof.Machine

/-- The bits of a packet header's 24 that each ECC bit covers. -/
def eccCover : List (List Nat) :=
  [[0, 1, 2, 4, 5, 7, 10, 11, 13, 16, 20, 21, 22, 23], [0, 1, 3, 4, 6, 8, 10, 12, 14, 17, 20, 21, 22, 23],
    [0, 2, 3, 5, 6, 9, 11, 12, 15, 18, 20, 21, 22], [1, 2, 3, 7, 8, 9, 13, 14, 15, 19, 20, 21, 23],
    [4, 5, 6, 7, 8, 9, 16, 17, 18, 19, 20, 22, 23], [10, 11, 12, 13, 14, 15, 16, 17, 18, 19, 21, 22, 23]]

/-- The header ECC over the 24 bits before it. -/
def dsiEcc (h : Nat) : Nat :=
  (List.zip (List.range 6) eccCover).foldl (fun n e => n + (e.2.foldl (fun p i => p + h / 2 ^ i % 2) 0) % 2 * 2 ^ e.1) 0

/-- The packet checksum: CRC-16 with polynomial 0x1021, reflected, from all ones. -/
def dsiSum (bs : List Byte) : Nat := crcRun 0x8408 0xFFFF bs

/-- Three header bytes with their ECC. -/
def dsiHeader (h : Nat) : List Byte := leBytes 3 h ++ [BitVec.ofNat 8 (dsiEcc (h % 2 ^ 24))]

/-- Whether a data type is that of a long packet. -/
def dsiLong (dtype : Nat) : Bool := 9 ≤ dtype % 16 && dtype % 16 ≤ 14

/-- A short packet: its data type and two parameter bytes. -/
def shortPacket (dtype param : Nat) : List Byte := dsiHeader (dtype % 64 + param % 0x10000 * 256)

/-- A long packet: data type and word count, payload, checksum. -/
def longPacket (dtype : Nat) (payload : List Byte) : List Byte :=
  dsiHeader (dtype % 64 + payload.length % 0x10000 * 256) ++ payload ++ leBytes 2 (dsiSum payload)

/-- The payload that a receiver decodes from the bytes of a burst: nothing where they are no whole long packet, or its header ECC or checksum is not good. -/
def decodeLong (bs : List Byte) : Option (List Byte) :=
  let wc := leOf ((bs.drop 1).take 2)
  let payload := (bs.drop 4).take wc
  if bs.length == wc + 6 && (bs.getD 3 0).toNat == dsiEcc (leOf (bs.take 3)) && leOf (bs.drop (wc + 4)) == dsiSum payload then some payload else none

end Sys2Proof.Machine
end

