-- ==== Sys2Proof/Machine/Hash.lean ====
section
/-! DEFINITION. SHA-256 and SHA-512 over lists of bytes (R168, R359, R361, R370), on natural numbers, as one family by its word width. PRESUMED from
FIPS 180-4 (assumption 20): the manual names the functions and does not print them. -/

namespace Sys2Proof.Machine

/-- A word of `w` bits rotated right by `k`. -/
def rorWord (w x k : Nat) : Nat := (x / 2 ^ k + x * 2 ^ (w - k)) % 2 ^ w

/-! ## The constants

The standard makes its constants of the first bits of the fractions of roots of primes, so they are computed here and not listed. -/

/-- The first of the numbers n, n + 1, … that divides `m`, within `fuel`. -/
def firstDivisor : Nat → Nat → Nat → Nat
  | 0, _, m => m
  | fuel + 1, n, m => if m % n == 0 then n else firstDivisor fuel (n + 1) m

/-- The primes below 420: the first 80 and one more. -/
def smallPrimes : List Nat := (List.range 420).filter (fun m => 2 ≤ m && firstDivisor m 2 m == m)

/-- The largest x with x^k at most `n`, built from bit `b` down. -/
def rootBits (k n : Nat) : Nat → Nat → Nat
  | 0, x => x
  | b + 1, x => rootBits k n b (if (x + 2 ^ b) ^ k ≤ n then x + 2 ^ b else x)

/-- The first `w` bits of the fraction of the k-th root of `p`. -/
def rootFrac (w k p : Nat) : Nat := rootBits k (p * 2 ^ (w * k)) (w + 6) 0 % 2 ^ w

/-- A member of the family: bits of a word, rounds, the rotations of the two sums of a round, and the rotations and shift of the two of the schedule. -/
structure ShaKind where
  bits : Nat
  rounds : Nat
  sumA : List Nat
  sumE : List Nat
  early : List Nat × Nat
  late : List Nat × Nat

def shaSmall : ShaKind := ⟨32, 64, [2, 13, 22], [6, 11, 25], ([7, 18], 3), ([17, 19], 10)⟩
def shaLarge : ShaKind := ⟨64, 80, [28, 34, 39], [14, 18, 41], ([1, 8], 7), ([19, 61], 6)⟩

/-- Bytes of a block, and of the length that ends the padding. -/
def ShaKind.blockLen (p : ShaKind) : Nat := 2 * p.bits
def ShaKind.tailLen (p : ShaKind) : Nat := p.bits / 4

/-- The constant that each round adds, and the words that hashing starts from. -/
def ShaKind.adds (p : ShaKind) : List Nat := (smallPrimes.take p.rounds).map (rootFrac p.bits 3)
def ShaKind.start (p : ShaKind) : List Nat := (smallPrimes.take 8).map (rootFrac p.bits 2)

/-! ## Blocks -/

/-- Rotations of a word, summed without carry. -/
def ShaKind.mix (p : ShaKind) (ks : List Nat) (x : Nat) : Nat := ks.foldl (fun r k => r ^^^ rorWord p.bits x k) 0

/-- A sum of the schedule: rotations, and a shift. -/
def ShaKind.mixShift (p : ShaKind) (s : List Nat × Nat) (x : Nat) : Nat := p.mix s.1 x ^^^ x / 2 ^ s.2

/-- The words of a block and those derived from them, `n` more, newest first. -/
def ShaKind.schedule (p : ShaKind) : Nat → List Nat → List Nat
  | 0, w => w
  | n + 1, w =>
    let back (k : Nat) := w.getD (k - 1) 0
    p.schedule n ((p.mixShift p.late (back 2) + back 7 + p.mixShift p.early (back 15) + back 16) % 2 ^ p.bits :: w)

/-- What a round carries on: the last four values of each of its two running words, newest first. -/
abbrev ShaRun := List Nat × List Nat

/-- A round, which takes a schedule word and its constant, summed. -/
def ShaKind.round (p : ShaKind) (v : ShaRun) (kw : Nat) : ShaRun :=
  let as (k : Nat) := v.1.getD k 0
  let es (k : Nat) := v.2.getD k 0
  let pick := es 0 &&& es 1 ||| (2 ^ p.bits - 1 - es 0) &&& es 2
  let most := as 0 &&& as 1 ||| as 0 &&& as 2 ||| as 1 &&& as 2
  let t := es 3 + p.mix p.sumE (es 0) + pick + kw
  ((t + p.mix p.sumA (as 0) + most) % 2 ^ p.bits :: v.1.take 3, (as 3 + t) % 2 ^ p.bits :: v.2.take 3)

/-- A block taken into the hash. -/
def ShaKind.absorb (p : ShaKind) (hs : List Nat) (block : List Byte) : List Nat :=
  let n := p.bits / 8
  let first := (List.range 16).map (fun i => beOf ((block.drop (n * i)).take n))
  let ws := (p.schedule (p.rounds - 16) first.reverse).reverse
  let v := (List.zipWith (· + ·) p.adds ws).foldl p.round (hs.take 4, hs.drop 4)
  List.zipWith (fun x y => (x + y) % 2 ^ p.bits) hs (v.1 ++ v.2)

/-- `n` blocks of a message taken in order. -/
def ShaKind.blocks (p : ShaKind) : Nat → List Nat → List Byte → List Nat
  | 0, hs, _ => hs
  | n + 1, hs, m => p.blocks n (p.absorb hs (m.take p.blockLen)) (m.drop p.blockLen)

/-- A message padded to whole blocks: a 1 bit, zeros, and its length in bits. -/
def ShaKind.pad (p : ShaKind) (m : List Byte) : List Byte :=
  let used := m.length + 1 + p.tailLen
  m ++ [0x80] ++ List.replicate ((p.blockLen - used % p.blockLen) % p.blockLen) 0 ++ beBytes p.tailLen (8 * m.length)

/-- The hash of a message. -/
def ShaKind.hash (p : ShaKind) (m : List Byte) : List Byte :=
  let full := p.pad m
  (p.blocks (full.length / p.blockLen) p.start full).flatMap (beBytes (p.bits / 8))

/-- SHA-256 of a list of bytes: 32 bytes; and SHA-512: 64 bytes. -/
def sha256 (m : List Byte) : List Byte := shaSmall.hash m
def sha512 (m : List Byte) : List Byte := shaLarge.hash m

end Sys2Proof.Machine
end

