-- ==== Sys2Proof/Machine/Fabric.lean ====
section
/-! DEFINITION. Blocks, their states and isolation wrappers, error responses and their capture, and bands marked dirty
(chapter 2, and R152 of chapter 7). -/

namespace Sys2Proof.Machine

/-! ## Blocks (Table 2-6) -/

/-- The block number of memory channel `k`. -/
def blkChannel (k : Nat) : Nat := 1 + k

/-- The block number of head `n`. -/
def blkHead (n : Nat) : Nat := 9 + n

/-- The state a block reports: 0 OFF, 1 STARTING, 2 ON, 3 STOPPING (FAB_BLK_STAT_n.state). -/
def State.blkState (s : State) (n : Nat) : Nat := s.fld (FAB_BLK_STAT n) FAB_BLK_STAT_state

/-- Whether a block reset holds the block (R37). -/
def State.inReset (s : State) (n : Nat) : Bool := smGet (fun _ => false) s.blkReset n

/-- Whether a block is ON and not held in a block reset. -/
def State.blkOn (s : State) (n : Nat) : Bool := s.blkState n == 2 && !s.inReset n

/-- The cause with which a wrapper answers a transfer to a block (Table 2-4): 3 in a block reset; 2 when the block is OFF, STARTING or STOPPING,
but a transfer that the wrapper passed before the block began to stop (`out`) completes normally in STOPPING. -/
def State.gate (s : State) (out : Bool) (n : Nat) : Option Nat :=
  if s.inReset n then some 3 else if s.blkState n == 2 || (out && s.blkState n == 3) then none else some 2

/-- The cause with which a wrapper answers a new request to a block. -/
def State.wrapper (s : State) (n : Nat) : Option Nat := s.gate false n

/-! ## Error responses (R42) -/

/-- An error response: counted, and captured while no capture is held (R42). `port` is the initiator's crossbar port, `block`
the target block (0x3F if none). -/
def fabErr (s : State) (port block cause a : Nat) : State :=
  let s := s.count FAB_ERR_CNT FAB_ERR_CNT_total
  if s.bit FAB_ERR_INFO FAB_ERR_INFO_valid then s.count FAB_ERR_CNT FAB_ERR_CNT_missed
  else
    ((((s.setReg FAB_ERR_ADDR (BitVec.ofNat 32 a)).setFld FAB_ERR_INFO FAB_ERR_INFO_valid 1).setFld
      FAB_ERR_INFO FAB_ERR_INFO_port port).setFld FAB_ERR_INFO FAB_ERR_INFO_block block).setFld
      FAB_ERR_INFO FAB_ERR_INFO_cause cause

/-- An error response whose cause code the manual does not state: the code is a free value (assumption 4). -/
def fabErrOpen (s : State) (port block a : Nat) : State :=
  let (w, s) := s.draw
  fabErr s port block (getF w FAB_ERR_INFO_cause) a

/-! ## Heads -/

/-- A head before anything has happened to it. -/
def headInit (_ : Nat) : HeadSt := HeadSt.init

/-- The hidden state of head `n`. -/
def State.head (s : State) (n : Nat) : HeadSt := smGet headInit s.heads n

/-- The state with the hidden state of head `n` replaced. -/
def State.setHead (s : State) (n : Nat) (h : HeadSt) : State := { s with heads := smSet headInit s.heads n h }

/-- The active height of a head. -/
def State.height (s : State) (n : Nat) : Nat := s.fld (HEAD_SIZE n) HEAD_SIZE_height

/-- The active width of a head. -/
def State.width (s : State) (n : Nat) : Nat := s.fld (HEAD_SIZE n) HEAD_SIZE_width

/-- The number of 16-line bands of a head: ⌈H / 16⌉. -/
def State.nBands (s : State) (n : Nat) : Nat := (s.height n + 15) / 16

/-- Whether band `b` of head `n` is in its pending set. -/
def State.bandPending (s : State) (n b : Nat) : Bool := (s.reg (HEAD_DIRTY n (b / 32))).getLsbD (b % 32)

/-- One band enters the pending set of a head; a band at nb or above is ignored (R152). -/
def markBand (s : State) (n b : Nat) : State :=
  if b < s.nBands n then s.setReg (HEAD_DIRTY n (b / 32)) (s.reg (HEAD_DIRTY n (b / 32)) ||| (1#32 <<< (b % 32))) else s

/-- `count` bands from band `b` enter the pending set. -/
def markBands (s : State) (n b : Nat) : Nat → State
  | 0 => s
  | count + 1 => markBands (markBand s n b) n (b + 1) count

/-- Every band of a head enters the pending set. -/
def markAll (s : State) (n : Nat) : State := markBands s n 0 (s.nBands n)

/-- The bands that hold lines `lo` to `hi` enter the pending set, the lines clipped to the active height (R96). -/
def markLines (s : State) (n : Nat) (lo hi : Int) : State :=
  let lo := max lo 0
  let hi := min hi ((s.height n : Int) - 1)
  if hi < lo then s else markBands s n (lo.toNat / 16) (hi.toNat / 16 + 1 - lo.toNat / 16)

/-- The bands a list of lines lies in enter the pending set. -/
def markLineList (s : State) (n : Nat) (ls : List Nat) : State := ls.foldl (fun (s : State) (l : Nat) => markLines s n l l) s

/-- The pending set of a head as a number: bit b for band b. -/
def State.pendingSet (s : State) (n : Nat) : Nat :=
  (List.range 5).foldl (fun m k => m + (s.reg (HEAD_DIRTY n k)).toNat * 2 ^ (32 * k)) 0

/-- The pending set of a head cleared. -/
def clearPendingSet (s : State) (n : Nat) : State :=
  (List.range 5).foldl (fun s k => s.setReg (HEAD_DIRTY n k) 0) s

/-- The bands of a set enter the pending set. -/
def markSet (s : State) (n set : Nat) : State :=
  (List.range 135).foldl (fun s b => if set.testBit b then markBand s n b else s) s

/-! ## Windows and pipes: where a layer can show -/

/-- The register map address of a pipe's registers: the slot that it served after reset (R139). -/
def pipeTile (p : Nat) : Nat × Nat := (p / 8, p % 8)

end Sys2Proof.Machine
end

