-- ==== Sys2Proof/Machine/AddrMap.lean ====
section
/-! DEFINITION. The Kiln address map: where an address leads (R43, R44), the QDR interleave and aliases (R48, R49), mirror regions
and tracking lines (R50, R60), and the CSRAM banks. -/

namespace Sys2Proof.Machine

/-! ## QDR channels -/

/-- The capacity in bytes of channel `k`'s device (R45). -/
def State.chanCapacity (s : State) (k : Nat) : Nat :=
  match s.fld (MEM_CH_CFG k) MEM_CH_CFG_density with
  | 0 => 0
  | d => 0x400000 * 2 ^ d

/-- Whether channel `k` has completed training; one that has not counts as not installed (R49). -/
def State.chanTrained (s : State) (k : Nat) : Bool := s.bit (MEM_TRAIN_STAT k) MEM_TRAIN_STAT_trained

/-- The bytes of a channel's interleaved part. -/
def State.ilSize (s : State) : Nat := s.fld MEM_INTLV MEM_INTLV_il_size * 0x40000

/-- The channels of the interleave set, in ascending order. -/
def State.ilSet (s : State) : List Nat := (List.range 6).filter (fun k => (s.fld MEM_INTLV MEM_INTLV_set).testBit k)

/-- Whether the interleaved window is open: enable reads 0 while a channel of the set is untrained (R49). -/
def State.ilOpen (s : State) : Bool := s.bit MEM_INTLV MEM_INTLV_enable && s.ilSet.all s.chanTrained

/-- The alias address of an offset of channel `k`: the home address of the byte (R43). -/
def aliasAddr (k off : Nat) : Nat := 0x30000000 + k * 0x2000000 + off

/-- The channel and offset that an address of the interleaved window maps to (R48). -/
def State.deinterleave (s : State) (a : Nat) : Option (Nat × Nat) :=
  let o := a - 0x20000000
  let set := s.ilSet
  let n := set.length
  if !s.ilOpen || o ≥ n * s.ilSize then none
  else
    let g := o / 256
    (set[g % n]?).map (fun k => (k, g / n * 256 + o % 256))

/-- Whether a channel offset lies in the channel's tracking line, its top 256 bytes (R50). -/
def State.inTracking (s : State) (k off : Nat) : Bool := s.chanCapacity k ≤ off + 256 && off < s.chanCapacity k

/-- A valid mirror pair whose region, on the channel that `side` selects, holds a channel offset (R60). -/
def State.mirrorOf (s : State) (side : Fld) (k off : Nat) : Option Nat :=
  (List.range 3).find? fun i =>
    s.bit (MEM_MIRROR i) MEM_MIRROR_valid && s.fld (MEM_MIRROR i) side == k &&
      s.fld (MEM_MIRROR i) MEM_MIRROR_base * 0x40000 ≤ off &&
      off < (s.fld (MEM_MIRROR i) MEM_MIRROR_base + s.fld (MEM_MIRROR i) MEM_MIRROR_size) * 0x40000

/-! ## Targets -/

/-- Where a Kiln address leads (Table 2-8). -/
inductive Target where
  | rom (off : Nat)
  | tcm (home : Nat)
  | csram (home : Nat)
  | lineStore (head home : Nat)
  | kindling (home : Nat)
  | qdr (k off : Nat)
  | regs (a : Nat)
  | unmapped
  | beyond
deriving DecidableEq, Repr

/-- The register block bases of Table 2-9, as multiples of 64 KB. -/
def regBases : List Nat :=
  [0x4000, 0x4001, 0x4002, 0x4003, 0x4004, 0x4005, 0x4006, 0x4007, 0x4008, 0x4009, 0x400A, 0x400B, 0x400C, 0x400D, 0x400E, 0x400F,
   0x4010, 0x4011, 0x4012, 0x4013, 0x4014, 0x4018, 0x4019, 0x4020, 0x4021, 0x4022, 0x4030]

/-- The target of a Kiln address (R43, R44, R48, R49). Of the 1 MB that Table 2-8 gives each head in the line-store window, the 256 KB above the 768 KB
used answer as an unmapped address does (DESIGN CHOICE: the table maps the range and says only what is used; assumption 104). -/
def State.target (s : State) (a : Nat) : Target :=
  if a < 0x10000 then .rom a
  else if 0x100000 ≤ a ∧ a < 0x120000 then .tcm a
  else if 0x200000 ≤ a ∧ a < 0x220000 then .tcm a
  else if 0x10000000 ≤ a ∧ a < 0x10800000 then .csram a
  else if 0x11000000 ≤ a ∧ a < 0x11400000 then
    if a % 0x100000 < 0xC0000 then .lineStore ((a - 0x11000000) / 0x100000) a else .unmapped
  else if 0x12000000 ≤ a ∧ a < 0x12080000 then .kindling a
  else if 0x20000000 ≤ a ∧ a < 0x2C000000 then
    match s.deinterleave a with
    | some (k, off) => if off < s.chanCapacity k && s.chanTrained k then .qdr k off else .beyond
    | none => .beyond
  else if 0x30000000 ≤ a ∧ a < 0x3C000000 then
    let k := (a - 0x30000000) / 0x2000000
    let off := (a - 0x30000000) % 0x2000000
    if off < s.chanCapacity k && s.chanTrained k then .qdr k off else .beyond
  else if regBases.contains (a / 0x10000) then .regs a
  else .unmapped

/-- The home address under which a byte of memory is kept, when the address leads to memory. -/
def Target.home : Target → Option Nat
  | .rom _ | .regs _ | .unmapped | .beyond => none
  | .tcm h | .csram h | .lineStore _ h | .kindling h => some h
  | .qdr k off => some (aliasAddr k off)

/-- The block whose wrapper an access of an address passes, where it leads to a block's memory (R29). -/
def Target.block : Target → Option Nat
  | .csram _ => some 0
  | .qdr k _ => some (blkChannel k)
  | .lineStore n _ => some (blkHead n)
  | .kindling _ => some 14
  | .rom _ | .tcm _ | .regs _ | .unmapped | .beyond => none

/-- Whether the wrapper at an address passes a new request. -/
def State.passes (s : State) (a : Nat) : Bool :=
  match (s.target a).block with
  | some n => (s.wrapper n).isNone
  | none => true

/-- The byte that a Kiln address holds, as the parts of the device that watch memory see it; 0 where no memory lies. -/
def State.peek (s : State) (a : Nat) : Byte :=
  match s.target a with
  | .rom off => Config.bootRom off
  | t => match t.home with
    | some h => s.byte h
    | none => 0

/-- `n` bytes from a Kiln address, lowest first. -/
def State.peekBytes (s : State) (a : Nat) : Nat → List Byte
  | 0 => []
  | n + 1 => s.peek a :: s.peekBytes (a + 1) n

/-- A little-endian number of `n` bytes at a Kiln address. -/
def State.peekLE (s : State) (a n : Nat) : Nat := leOf (s.peekBytes a n)

/-- Whether the scene engine snoops writes at a Kiln address: the CSRAM range and the interleaved QDR window (R95). -/
def snooped (a : Nat) : Bool := (0x10000000 ≤ a && a < 0x10800000) || (0x20000000 ≤ a && a < 0x2C000000)

end Sys2Proof.Machine
end

