-- ==== Sys2Proof/Machine/SceneMarks.lean ====
section
/-! DEFINITION. Layer pipes and where their registers live (R139), dirty tracking: the bands that register writes and snooped memory
writes mark (R95, R96, R108, R137), and the sprite keys (R87). -/

namespace Sys2Proof.Machine

/-! ## Pipes -/

/-- Whether pipe `p` now serves head `n`. -/
def State.pipeServes (s : State) (p n : Nat) : Bool :=
  s.bit (SCENE_ASSIGN p) SCENE_ASSIGN_present && s.fld (SCENE_ASSIGN p) SCENE_ASSIGN_cur_head == n

/-- The tile pipe that supplies layer `m` of head `n`. -/
def State.tilePipe (s : State) (n m : Nat) : Option Nat :=
  ((List.range 4).map (fun h => 8 * h + m)).find? (fun p => s.pipeServes p n)

/-- The video slot that a video pipe now holds; after a reset it is p % 2. -/
def State.videoSlot (s : State) (p : Nat) : Nat := smGet (fun p => p % 2) s.vslot p

/-- The video pipe that supplies video layer `v` of head `n`. -/
def State.videoPipe (s : State) (n v : Nat) : Option Nat :=
  ((List.range 8).map (32 + ·)).find? (fun p => s.pipeServes p n && s.videoSlot p == v)

/-- The home register of a tile pipe: the one of the slot it serves after reset. `r` names the register by head and layer. -/
def tileHome (r : Nat → Nat → Nat) (p : Nat) : Nat := r (p / 8) (p % 8)

/-- The home register of a video pipe. -/
def videoHome (r : Nat → Nat → Nat) (p : Nat) : Nat := r ((p - 32) / 2) (p % 2)

/-- Whether a pipe in transit has left slot `slot` of head `n`, or waits for it (R139): a tile pipe keeps its number. -/
def State.pipeAway (s : State) (n slot p : Nat) : Bool :=
  let r := SCENE_ASSIGN p
  s.bit r SCENE_ASSIGN_pending && !s.bit r SCENE_ASSIGN_present &&
    ((s.fld r SCENE_ASSIGN_cur_head == n && (if p < 32 then p % 8 else s.videoSlot p) == slot) ||
      (s.fld r SCENE_ASSIGN_head == n && (if p < 32 then p % 8 else s.fld r SCENE_ASSIGN_slot) == slot))

/-- The tile pipe, or video pipe, whose registers an access to a slot of head `n` reaches: that of the slot, unless one is in transit from or to it (R139). -/
def State.tileAccess (s : State) (n m : Nat) : Option Nat :=
  if (List.range 32).any (fun p => p % 8 == m && s.pipeAway n m p) then none else s.tilePipe n m
def State.videoAccess (s : State) (n v : Nat) : Option Nat :=
  if (List.range 8).any (fun p => s.pipeAway n v (32 + p)) then none else s.videoPipe n v

/-- Where the register at an address of the SCENE block lives: a layer or video register lives with the pipe in that slot, and a
slot without a pipe, or with one in transit from or to it, has none (R139). -/
def State.sceneHome (s : State) (a : Nat) : Option Nat :=
  let n := (a - 0x40100000) / 0x1000
  let off := (a - 0x40100000) % 0x1000
  if a < 0x40100000 ∨ 0x40104000 ≤ a then some a
  else if 0x100 ≤ off ∧ off < 0x300 then
    (s.tileAccess n ((off - 0x100) / 0x40)).map (fun p => 0x40100100 + 0x1000 * (p / 8) + 0x40 * (p % 8) + (off - 0x100) % 0x40)
  else if 0x500 ≤ off ∧ off < 0x580 then
    (s.videoAccess n ((off - 0x500) / 0x40)).map
      (fun p => 0x40100500 + 0x1000 * ((p - 32) / 2) + 0x40 * (p % 2) + (off - 0x500) % 0x40)
  else some a

/-! ## Values in use -/

/-- The value of a scene register that the line now composed uses: a Kiln write during the line is sampled at the next (R98, R113). -/
def State.useReg (s : State) (n a : Nat) : Word := ((s.head n).lineOld.lookup a).getD (s.reg a)

/-- A field of a scene register as the line now composed uses it. -/
def State.useFld (s : State) (n a : Nat) (f : Fld) : Nat := getF (s.useReg n a) f

/-- A one-bit field of a scene register as the line now composed uses it. -/
def State.useBit (s : State) (n a : Nat) (f : Fld) : Bool := s.useFld n a f == 1

/-! ## Where a layer shows -/

/-- The line ranges that clip the marks of a source: the union of its windows when its mask is nonzero and not inverted, else
every line (R96, R123). -/
def State.srcLines (s : State) (n src : Nat) : List (Nat × Nat) :=
  let win := s.fld (SCENE_COMP n src) SCENE_COMP_win
  if win == 0 || s.bit (SCENE_COMP n src) SCENE_COMP_win_inv then [(0, 0xFFFF)]
  else ((List.range 8).filter win.testBit).map fun w =>
    (s.fld (SCENE_WIN_Y n w) SCENE_WIN_Y_lo, s.fld (SCENE_WIN_Y n w) SCENE_WIN_Y_hi)

/-- Whether a line lies in one of some line ranges. -/
def inLines (rs : List (Nat × Nat)) (y : Nat) : Bool := rs.any (fun r => r.1 ≤ y && y ≤ r.2)

/-- Every band in which a source can show enters the pending set. -/
def markSource (s : State) (n src : Nat) : State :=
  (s.srcLines n src).foldl (fun s r => markLines s n r.1 r.2) s

/-- The control register of the layer in slot `m` of head `n`, 0 when no pipe serves it. -/
def State.layerCtrl (s : State) (n m : Nat) : Word :=
  match s.tilePipe n m with
  | some p => s.reg (tileHome SCENE_LAYER_CTRL p)
  | none => 0

/-- The bands covering the destination rectangle of video layer `v`, clipped by its windows, enter the pending set (R137). -/
def markVideo (s : State) (n v : Nat) : State :=
  match s.videoPipe n v with
  | none => s
  | some p =>
    let y0 := signed 16 (s.fld (videoHome SCENE_VID_DST_XY p) SCENE_VID_DST_XY_y)
    let h := s.fld (videoHome SCENE_VID_DST_WH p) SCENE_VID_DST_WH_y
    if h == 0 then s
    else (s.srcLines n (9 + v)).foldl (fun s r => markLines s n (max y0 r.1) (min (y0 + h - 1) r.2)) s

/-- Whether source `src` of head `n` is enabled. -/
def State.srcEnabled (s : State) (n src : Nat) : Bool :=
  if src < 8 then bitOf (s.layerCtrl n src) SCENE_LAYER_CTRL_enable
  else if src == 8 then s.bit (SCENE_SPR_CTRL n) SCENE_SPR_CTRL_enable
  else match s.videoPipe n (src - 9) with
    | some p => s.bit (videoHome SCENE_VID_CTRL p) SCENE_VID_CTRL_enable
    | none => false

/-- The marks of a register write of the scene block, made once with the registers as they stand (Table 4-5, R137); the write makes
them before and after it changes the register. `off` is the offset in the head's page; one that no map lists marks nothing (R44). -/
def markSceneReg (s : State) (n off : Nat) : State :=
  if off == 0x10 ∨ off == 0x18 ∨ off == 0x1C then markAll s n
  else if (regRow (0x40100000 + 0x1000 * n + off)).isNone then s
  else if 0x100 ≤ off ∧ off < 0x300 then
    let m := (off - 0x100) / 0x40
    if s.srcEnabled n m then markSource s n m else s
  else if 0x400 ≤ off ∧ off < 0x42C then
    let src := (off - 0x400) / 4
    if s.srcEnabled n src then markSource s n src else s
  else if 0x500 ≤ off ∧ off < 0x580 then markVideo s n ((off - 0x500) / 0x40)
  else if 0x440 ≤ off ∧ off < 0x500 ∨ 0x600 ≤ off ∧ off < 0x608 then markAll s n
  else s

/-! ## Sprite keys -/

/-- The key of a descriptor from its four words (R87). -/
def sprKeyOf (w0 w1 w2 w3 : Nat) : SprKey :=
  { enable := w0.testBit 31, last := w0.testBit 30, x := bitsN w0 29 16, y := bitsN w0 13 0, h8 := bitsN w1 31 26,
    affine := w2.testBit 20, boxEn := w2.testBit 19, boxH8 := bitsN w3 13 8 }

/-- The key of a descriptor that has never been read: disabled. -/
def sprKeyNone (_ : Nat) : SprKey := sprKeyOf 0 0 0 0

/-- The key that the engine holds for descriptor `d` of head `n`. -/
def State.sprKey (s : State) (n d : Nat) : SprKey := smGet sprKeyNone (s.head n).keys d

/-- The height of a sprite in lines (R81). -/
def SprKey.lines (k : SprKey) : Nat := if k.affine && k.boxEn then (k.boxH8 + 1) * 8 else (k.h8 + 1) * 8

/-- The bands covering the lines of an enabled sprite enter the pending set. -/
def markSprite (s : State) (n : Nat) (k : SprKey) : State :=
  if k.enable then markLines s n (signed 14 k.y) (signed 14 k.y + k.lines - 1) else s

/-- The fields of a key in the bytes of a descriptor, its other bits 0. -/
def SprKey.bytes (k : SprKey) : List Byte :=
  leBytes 4 (cond k.enable (2 ^ 31) 0 + cond k.last (2 ^ 30) 0 + k.x * 2 ^ 16 + k.y) ++ leBytes 4 (k.h8 * 2 ^ 26) ++
    leBytes 4 (cond k.affine (2 ^ 20) 0 + cond k.boxEn (2 ^ 19) 0) ++ leBytes 4 (k.boxH8 * 2 ^ 8)

/-- The key of a descriptor at `base` after a snooped write of `len` bytes at `a`: of its bytes those written are taken, and the others stay as the key has
them, stale where an alias has changed them (R87, R95). -/
def SprKey.update (s : State) (k : SprKey) (base a len : Nat) : SprKey :=
  let bytes := (List.zip (List.range 16) k.bytes).map fun e => if a ≤ base + e.1 && base + e.1 < a + len then BitVec.ofNat 8 (s.peekLE (base + e.1) 1) else e.2
  let word := fun i => leOf ((bytes.drop (4 * i)).take 4)
  sprKeyOf (word 0) (word 1) (word 2) (word 3)

/-- A descriptor's key updated by a snooped write, with the bands of the sprite before and after marked (R87, Table 4-5). -/
def rekeySprite (s : State) (n a len d : Nat) : State :=
  let h := s.head n
  let new := (s.sprKey n d).update s (h.sprBase + 16 * d) a len
  let s := markSprite s n (s.sprKey n d)
  let s := s.setHead n { s.head n with keys := smSet sprKeyNone (s.head n).keys d new }
  markSprite s n new

/-! ## Snooping (R95, R96, R108) -/

/-- The indices, of `size` bytes each from `base` and fewer than `count`, that a write of `len` bytes at `a` touches: the first, and how many. -/
def touched (base size count a len : Nat) : Nat × Nat :=
  if len == 0 ∨ a + len ≤ base ∨ base + size * count ≤ a then (0, 0)
  else
    let lo := (a - base) / size
    let hi := min (count - 1) ((a + len - 1 - base) / size)
    (lo, hi + 1 - lo)

/-- Whether a beam list wrote the SCROLL of layer `m` of head `n` in this frame or the last; the frame number wraps (R158). -/
def State.scrollByBeam (s : State) (n m : Nat) : Bool :=
  match (s.head n).scrollBeam.lookup m with
  | some f => ((s.reg (HEAD_FRAME n)).toNat + 2 ^ 32 - f) % 2 ^ 32 ≤ 1
  | none => false

/-- The marks of a snooped write to the map of layer `m` of head `n`. -/
def snoopLayer (s : State) (n m a len : Nat) : State :=
  match s.tilePipe n m with
  | none => s
  | some p =>
    let c := s.reg (tileHome SCENE_LAYER_CTRL p)
    let mw := getF c SCENE_LAYER_CTRL_map_w
    let mh := getF c SCENE_LAYER_CTRL_map_h
    let ts := if bitOf c SCENE_LAYER_CTRL_tile16 then 16 else 8
    let (lo, cnt) := touched (s.reg (tileHome SCENE_LAYER_MAP p)).toNat 4 (2 ^ (mw + mh)) a len
    if !bitOf c SCENE_LAYER_CTRL_enable || cnt == 0 then s
    else if bitOf c SCENE_LAYER_CTRL_affine || s.scrollByBeam n m then markSource s n m
    else
      let k0 := lo / 2 ^ mw
      let k1 := (lo + cnt - 1) / 2 ^ mw
      let sy := s.fld (tileHome SCENE_LAYER_SCROLL p) SCENE_LAYER_SCROLL_y
      let win := s.srcLines n m
      markLineList s n ((List.range (s.height n)).filter fun y =>
        let row := (y + sy) % (2 ^ mh * ts) / ts
        k0 ≤ row && row ≤ k1 && inLines win y)

/-- The keys and marks of a snooped write to the sprite table of head `n`. -/
def snoopSprites (s : State) (n a len : Nat) : State :=
  let (lo, cnt) := touched (s.head n).sprBase 16 (s.head n).sprCount a len
  (List.range cnt).foldl (fun s i => rekeySprite s n a len (lo + i)) s

/-- A snooped write to the beam list region of head `n` marks every band (R108). -/
def snoopBeam (s : State) (n a len : Nat) : State :=
  if (touched (s.head n).beamBase 32 (s.head n).beamLen a len).2 == 0 then s else markAll s n

/-- What the scene engine does with a write of `len` bytes at Kiln address `a`, once the bytes are stored. -/
def snoop (s : State) (a len : Nat) : State :=
  if len == 0 || !snooped a then s
  else (List.range 4).foldl (fun s n =>
    snoopBeam (snoopSprites ((List.range 8).foldl (fun s m => snoopLayer s n m a len) s) n a len) n a len) s

end Sys2Proof.Machine
end

