-- ==== Sys2Proof/Machine/Memory.lean ====
section
/-! DEFINITION. Reads and writes of memory through the fabric (R32, R43, R48 to R62, R69): error responses, ECC and its recovery, poison,
mirrored writes, snooping; training, tracking, scrub and doze of the memory island (R63 to R67). -/

namespace Sys2Proof.Machine

/-- What an access through the fabric gives: the state after it, the data of a read, whether it got an error response, and whether it
got a poison response. -/
structure Access where
  s : State
  data : List Byte
  err : Bool
  poison : Bool

/-- Bytes of memory stored from a home address upward. -/
def State.setBytes (s : State) (a : Nat) : List Byte → State
  | [] => s
  | b :: bs => (s.setByte a b).setBytes (a + 1) bs

/-- `n` bytes of memory from a home address, lowest first. -/
def State.bytes (s : State) (a : Nat) : Nat → List Byte
  | 0 => []
  | n + 1 => s.byte a :: s.bytes (a + 1) n

/-- The stored condition of the ECC word at a home address: 0 clean, 1 correctable, 2 uncorrectable (R55, R58). -/
def State.eccAt (s : State) (a : Nat) : Nat := smGet (fun _ => 0) s.ecc a

/-- The stored condition of an ECC word set. -/
def State.setEcc (s : State) (a c : Nat) : State := { s with ecc := smSet (fun _ => 0) s.ecc a c }

/-- The corrective write-back that waits for an ECC word cancelled: a newer write has reached the controller (R56). -/
def State.dropWb (s : State) (a : Nat) : State := { s with wb := smErase s.wb a }

/-- A corrective write-back of an ECC word left waiting (R56). -/
def State.addWb (s : State) (a : Nat) (data : List Byte) : State := { s with wb := smInsert a (leOf data) (smErase s.wb a) }

/-- The alternating pattern of the tracking line, eight bytes (R50). -/
def trackingWord : List Byte := [0xFF, 0xFF, 0xFF, 0xFF, 0, 0, 0, 0]

/-- A poisoned QDR word captured, with its kind, while no capture is held (R55, R58, R59, R70). -/
def capturePoison (s : State) (port k off kind : Nat) : State :=
  if s.bit MEM_ECC_INFO MEM_ECC_INFO_valid then s
  else
    ((((s.setReg MEM_ECC_ADDR (BitVec.ofNat 32 (aliasAddr k off))).setFld MEM_ECC_INFO MEM_ECC_INFO_valid 1).setFld
      MEM_ECC_INFO MEM_ECC_INFO_port port).setFld MEM_ECC_INFO MEM_ECC_INFO_kind kind).setFld MEM_EVT MEM_EVT_poison 1

/-- The result of reading one ECC word: the data, and whether it stays uncorrectable in the word (`lost`) and in its mirror. -/
structure WordRead where
  s : State
  data : List Byte
  lost : Bool
  mirrorLost : Bool

/-- Whether a channel's device has a copy to read at an offset: the channel is ON and trained and the device reaches so far (DEDUCED from R43, R49 and R61
for the recovery read of a mirror, which the manual does not tell of such a channel or offset; assumption 71), and the offset lies outside its tracking line,
which is never mirrored (R50). -/
def State.chanReads (s : State) (k off : Nat) : Bool :=
  s.blkOn (blkChannel k) && s.chanTrained k && off < s.chanCapacity k && !s.inTracking k off

/-- Table 3-3 for the ECC word at offset `off` of channel `k`. `seen` is what the device returns beside the stored condition for the read,
its three re-reads and the mirror's read, in this order. A mirror that cannot be read recovers nothing (assumption 71). -/
def qdrWordRead (s : State) (k off : Nat) (seen : List Nat) : WordRead :=
  let h := aliasAddr k off
  let data := s.bytes h 8
  let r := fun i => max (s.eccAt h) (seen.getD i 0)
  if r 0 == 0 then ⟨s, data, false, false⟩
  else if r 0 == 1 then ⟨(s.count (MEM_ECC_CNT k) MEM_ECC_CNT_corrected).addWb h data, data, false, false⟩
  else
    match [r 1, r 2, r 3].find? (· < 2) with
    | some c =>
      let s := s.count (MEM_ECC_CNT k) MEM_ECC_CNT_rescued
      ⟨if c == 1 then s.addWb h data else s, data, false, false⟩
    | none =>
      match s.mirrorOf MEM_MIRROR_primary k off with
      | none => ⟨s, data, true, false⟩
      | some i =>
        let m := s.fld (MEM_MIRROR i) MEM_MIRROR_mirror
        let hm := aliasAddr m off
        if !s.chanReads m off then ⟨s, data, true, false⟩
        else if max (s.eccAt hm) (seen.getD 4 0) < 2 then
          let d := s.bytes hm 8
          ⟨(s.count (MEM_ECC_CNT k) MEM_ECC_CNT_rescued).addWb h d, d, false, false⟩
        else ⟨s.setFld MEM_EVT MEM_EVT_mirror 1, data, true, true⟩

/-- A QDR access reaches the memory island: the island wakes (R67). -/
def memTouch (s : State) : State := s.setFld MEM_DOZE_STAT MEM_DOZE_STAT_dozing 0

/-- A CSRAM poison response: counted with its bank, and the csram event set (R69, R70). -/
def csramPoison (s : State) (h : Nat) : State :=
  ((s.count MEM_CSRAM_ECC MEM_CSRAM_ECC_poisoned).setFld MEM_CSRAM_ECC MEM_CSRAM_ECC_bank ((h - 0x10000000) / 0x80000)).setFld
    MEM_EVT MEM_EVT_csram 1

/-- A read of the eight-byte word that holds Kiln address `a`, by the initiator on a crossbar port; `out` says that its request is outstanding since
the wrapper passed it (R32). -/
def readWordOut (s : State) (out : Bool) (port a : Nat) (seen : List Nat) : Access :=
  match s.target a with
  | .rom off => ⟨s, (List.range 8).map (fun i => Config.bootRom (off / 8 * 8 + i)), false, false⟩
  | .tcm h => ⟨s, s.bytes (h / 8 * 8) 8, false, false⟩
  | .kindling h =>
    match s.gate out 14 with
    | some c => ⟨fabErr s port 14 c a, [], true, false⟩
    | none => ⟨s, s.bytes (h / 8 * 8) 8, false, false⟩
  | .lineStore n h =>
    match s.gate out (blkHead n) with
    | some c => ⟨fabErr s port (blkHead n) c a, [], true, false⟩
    | none => ⟨s, s.bytes (h / 8 * 8) 8, false, false⟩
  | .csram h =>
    match s.gate out 0 with
    | some c => ⟨fabErr s port 0 c a, [], true, false⟩
    | none =>
      let h := h / 8 * 8
      let data := s.bytes h 8
      match max (s.eccAt h) (seen.getD 0 0) with
      | 0 => ⟨s, data, false, false⟩
      | 1 => ⟨(s.count MEM_CSRAM_ECC MEM_CSRAM_ECC_corrected).setEcc h 0, data, false, false⟩
      | _ => ⟨csramPoison s h, [], false, true⟩
  | .qdr k off =>
    match s.gate out (blkChannel k) with
    | some c => ⟨fabErr s port (blkChannel k) c a, [], true, false⟩
    | none =>
      let s := memTouch s
      let off := off / 8 * 8
      if s.inTracking k off then ⟨s, trackingWord, false, false⟩
      else
        let r := qdrWordRead s k off seen
        if r.lost then
          ⟨capturePoison (r.s.count (MEM_ECC_CNT k) MEM_ECC_CNT_poisoned) port k off (cond r.mirrorLost 3 1), [], false, true⟩
        else ⟨r.s, r.data, false, false⟩
  | .regs _ => ⟨fabErr s port 0x3F 5 a, [], true, false⟩
  | .unmapped => ⟨fabErr s port 0x3F 1 a, [], true, false⟩
  | .beyond => ⟨fabErr s port 0x3F 7 a, [], true, false⟩

/-- A read of a word as a new request. -/
def readWord (s : State) (port a : Nat) (seen : List Nat) : Access := readWordOut s false port a seen

/-- A read of `words` eight-byte words, from the one that holds address `a`; the first error or poison response ends it. Each word has five places in
`seen`: its read, its re-reads and its mirror's read. -/
def readWords (s : State) (out : Bool) (port a : Nat) (seen : List Nat) : Nat → Access
  | 0 => ⟨s, [], false, false⟩
  | words + 1 =>
    let r := readWordOut s out port a seen
    if r.err || r.poison then ⟨r.s, [], r.err, r.poison⟩
    else
      let t := readWords r.s out port (a / 8 * 8 + 8) (seen.drop 5) words
      ⟨t.s, r.data ++ t.data, t.err, t.poison⟩

/-- A read of `n` bytes at Kiln address `a`. -/
def memReadOut (s : State) (out : Bool) (port a n : Nat) (seen : List Nat) : Access :=
  let lo := a / 8 * 8
  let r := readWords s out port a seen ((a + n + 7) / 8 - a / 8)
  ⟨r.s, (r.data.drop (a - lo)).take n, r.err, r.poison⟩

/-- A read of `n` bytes at Kiln address `a` as a new request. -/
def memRead (s : State) (port a n : Nat) (seen : List Nat) : Access := memReadOut s false port a n seen

/-! ## Writes -/

/-- Eight bytes with some replaced from position `i` on. -/
def mergeBytes (old : List Byte) (i : Nat) (new : List Byte) : List Byte := old.take i ++ new ++ old.drop (i + new.length)

/-- Bytes stored within the ECC word at offset `off` of channel `k`, from position `i` on: a full word needs no read; a partial one is a
read-modify-write that keeps poison (R54, R58). Poison met by a partial write is captured with kind 2, in a word whose mirror reads uncorrectable too
(R70 and MEM_ECC_INFO.kind leave open which of 2 and 3 then stands: DESIGN CHOICE, assumption 72). -/
def storeQdr (s : State) (port k off i : Nat) (new : List Byte) (seen : List Nat) : State :=
  let h := aliasAddr k off
  if new.length == 8 then ((s.setBytes h new).setEcc h 0).dropWb h
  else
    let r := qdrWordRead s k off seen
    let s := ((r.s.setBytes h (mergeBytes r.data i new)).setEcc h (cond r.lost 2 0)).dropWb h
    if r.lost then capturePoison s port k off 2 else s

/-- Bytes stored within the CSRAM word at home address `h` (R54, R58, R69). -/
def storeCsram (s : State) (h i : Nat) (new : List Byte) (seen : List Nat) : State :=
  let c := max (s.eccAt h) (seen.getD 0 0)
  let s := s.setBytes h (mergeBytes (s.bytes h 8) i new)
  if new.length == 8 then s.setEcc h 0
  else if 2 ≤ c then s.setEcc h 2
  else (if c == 1 then s.count MEM_CSRAM_ECC MEM_CSRAM_ECC_corrected else s).setEcc h 0

/-- A write within one ECC word of a QDR channel (R50, R60, R61): the state, and the cause of an error response. The tracking line of the mirror is as
little written as the primary's (R50). A channel of the pair held in a block reset gives cause 3 as its wrapper does, one that is not ON cause 2, and a
mirror that is untrained or ends below the offset cause 7 (DEDUCED from R32, R49 and R61, which do not order them; assumption 73). A request that is
refused wakes no island (DESIGN CHOICE, assumption 74). -/
def writeQdr (s : State) (port k off i : Nat) (new : List Byte) (seen : List Nat) : State × Option Nat :=
  if s.inTracking k off then (s, some 6)
  else if (s.mirrorOf MEM_MIRROR_mirror k off).isSome then (s, some 6)
  else
    match s.mirrorOf MEM_MIRROR_primary k off with
    | some p =>
      let m := s.fld (MEM_MIRROR p) MEM_MIRROR_mirror
      if s.inTracking m off || port != 9 then (s, some 6)
      else if s.inReset (blkChannel k) || s.inReset (blkChannel m) then (s, some 3)
      else if !s.blkOn (blkChannel k) || !s.blkOn (blkChannel m) then (s, some 2)
      else if !s.chanTrained m || s.chanCapacity m ≤ off then (s, some 7)
      else (storeQdr (storeQdr (memTouch s) port k off i new seen) port m off i new [], none)
    | none =>
      match s.wrapper (blkChannel k) with
      | some c => (s, some c)
      | none => (storeQdr (memTouch s) port k off i new seen, none)

/-- Bytes from Kiln or another initiator reach Kindling memory (R271): they go over those of every earlier store of a thread, seen by others or not. -/
def storeKindling (s : State) (h : Nat) (new : List Byte) : State :=
  let t := s.setBytes h new
  { t with kind := { t.kind with stores := t.kind.stores.flatMap (·.without h new.length) } }

/-- A write of bytes that lie within one eight-byte word at Kiln address `a`, before it is snooped. -/
def writeWord (s : State) (port a : Nat) (new : List Byte) (seen : List Nat) : Access :=
  let done := fun (s : State) => (⟨s, [], false, false⟩ : Access)
  match s.target a with
  | .rom _ => ⟨fabErr s port 0x3F 6 a, [], true, false⟩
  | .tcm h => done (s.setBytes h new)
  | .kindling h =>
    match s.wrapper 14 with
    | some c => ⟨fabErr s port 14 c a, [], true, false⟩
    | none => done (storeKindling s h new)
  | .lineStore n h =>
    match s.wrapper (blkHead n) with
    | some c => ⟨fabErr s port (blkHead n) c a, [], true, false⟩
    | none => done (s.setBytes h new)
  | .csram h =>
    match s.wrapper 0 with
    | some c => ⟨fabErr s port 0 c a, [], true, false⟩
    | none => done (storeCsram s (h / 8 * 8) (h % 8) new seen)
  | .qdr k off =>
    match writeQdr s port k (off / 8 * 8) (off % 8) new seen with
    | (s, some c) => ⟨fabErr s port (blkChannel k) c a, [], true, false⟩
    | (s, none) => done s
  | .regs _ => ⟨fabErr s port 0x3F 5 a, [], true, false⟩
  | .unmapped => ⟨fabErr s port 0x3F 1 a, [], true, false⟩
  | .beyond => ⟨fabErr s port 0x3F 7 a, [], true, false⟩

/-- A write cut into the eight-byte words it touches, `fuel` of them, each with its five places in `seen`; the first error response ends it. With it, the
bytes stored. -/
def writeWords (s : State) (port : Nat) (seen : List Nat) : Nat → Nat → List Byte → Access × Nat
  | 0, _, _ => (⟨s, [], false, false⟩, 0)
  | fuel + 1, a, bs =>
    if bs.isEmpty then (⟨s, [], false, false⟩, 0)
    else
      let n := 8 - a % 8
      let r := writeWord s port a (bs.take n) seen
      if r.err then (r, 0)
      else
        let t := writeWords r.s port (seen.drop 5) fuel (a + n) (bs.drop n)
        (t.1, min n bs.length + t.2)

/-- A write of bytes at Kiln address `a` by the initiator on a crossbar port. The scene engine snoops it as one write (R87, R95). -/
def memWrite (s : State) (port a : Nat) (bs : List Byte) (seen : List Nat) : Access :=
  let r := writeWords s port seen (bs.length / 8 + 2) a bs
  { r.1 with s := snoop r.1.s a r.2 }

/-- The response that the last access command got. -/
def Access.respond (r : Access) : State := { r.s with rd := ⟨leOf r.data, r.err, r.poison⟩ }

/-! ## The memory island's own events -/

/-- The least tolerance of sources 0 to 6 (R66), and the lowest source that states it. -/
def State.leastTolerance (s : State) : Nat × Nat :=
  (List.range 7).foldl (fun (best : Nat × Nat) i =>
    let t := s.fld (MEM_LTR i) MEM_LTR_tolerance
    if t < best.1 then (t, i) else best) (s.fld (MEM_LTR 0) MEM_LTR_tolerance, 0)

/-- Whether every tolerance stands above the exit latency and the margin (R66, R67). -/
def State.mayDoze (s : State) : Bool :=
  s.bit MEM_DOZE_CFG MEM_DOZE_CFG_enable && 250 + s.fld MEM_DOZE_CFG MEM_DOZE_CFG_margin < s.leastTolerance.1

/-- A latency tolerance restated (R66, R67): min_src follows it, and one that falls to the limit wakes the island. -/
def stateTolerance (s : State) (src ns : Nat) : State :=
  let s := s.setFld (MEM_LTR src) MEM_LTR_tolerance ns
  let s := s.setFld MEM_DOZE_STAT MEM_DOZE_STAT_min_src s.leastTolerance.2
  if s.mayDoze then s else s.setFld MEM_DOZE_STAT MEM_DOZE_STAT_dozing 0

/-- The patrol reads the word at an offset and the `n` after it, correcting them as Table 3-3 gives (R59); the tracking line is not ECC-checked (R50).
A poisoned result is kind 4, in a word whose mirror reads uncorrectable too (assumption 72). -/
def scrubWords (s : State) (k off : Nat) (seen : List Nat) : Nat → State
  | 0 => s
  | n + 1 =>
    let s :=
      if s.inTracking k off then s
      else
        let r := qdrWordRead s k off seen
        if r.lost then capturePoison (r.s.count (MEM_ECC_CNT k) MEM_ECC_CNT_poisoned) 0xF k off 4 else r.s
    scrubWords s k (off + 8) (seen.drop 5) n

/-- The next step of the capture point of a byte group, from the transitions counted on each side in its window (R65). -/
def trackStep (pos : Int) (early late : Nat) : Int :=
  if late > early + 512 then pos + 1 else if early > late + 512 then pos - 1 else pos

end Sys2Proof.Machine
end

