-- ==== Sys2Proof/Machine/Compose.lean ====
section
/-! DEFINITION. The colour of a pixel: tile layers, OTC, sprites, video planes and the scaler, blending, windows, mosaic, the colour
matrix, gamma and dither, and the packing of pixels (chapters 4, 6 and R141). Everything here is a function of the state. -/

namespace Sys2Proof.Machine

/-! ## Fetches -/

/-- What a look into memory gives: the value, none where a read on the way to it failed; the reads made; the bad OTC blocks met; and the OTC reads used,
which the fetcher then holds (R79). -/
structure Look (α : Type) where
  val : Option α
  reads : List (Nat × Nat)
  bad : List Nat
  otc : List OtcRead

/-- A value that needs no read. -/
def Look.pure {α : Type} (v : α) : Look α := ⟨some v, [], [], []⟩

/-- Nothing: a transparent pixel. -/
def Look.none {α : Type} : Look α := ⟨Option.none, [], [], []⟩

/-- A look that continues from another's value. -/
def Look.bind {α β : Type} (l : Look α) (f : α → Look β) : Look β :=
  match l.val with
  | some v => let r := f v; ⟨r.val, l.reads ++ r.reads, l.bad ++ r.bad, l.otc ++ r.otc⟩
  | Option.none => ⟨Option.none, l.reads, l.bad, l.otc⟩

/-- A value taken after what some other look did, whether or not that one gave a value. -/
def Look.after {α β : Type} (l : Look α) (r : Look β) : Look β := ⟨r.val, l.reads ++ r.reads, l.bad ++ r.bad, l.otc ++ r.otc⟩

/-- The addresses of a look marked with the fetcher that makes it, so that each fetcher's reads are its own (R79, R99): bits [31:0] of a mark are the
address, bits [47:32] the fetcher, and the bits above the block row of an OTC object (`otcMark`). -/
def Look.by {α : Type} (l : Look α) (f : Nat) : Look α :=
  let at_ := fun a => a + f * 2 ^ 32
  { l with reads := l.reads.map (fun r => (at_ r.1, r.2)), bad := l.bad.map at_, otc := l.otc.map (fun e => { e with addr := at_ e.addr }) }

/-- A read of `n` little-endian bytes as the fabric answers it: an error or a poison response gives no value. -/
def look (s : State) (a n : Nat) : Look Nat :=
  let a := a % 2 ^ 32
  let r := memRead s 6 a n []
  ⟨if r.err || r.poison then none else some (leOf r.data), [(a, n)], [], []⟩

/-! ## OTC (R77 to R79) -/

/-- The bytes of an OTC block, its mode byte included, by mode and element size (Table 4-3). -/
def otcSize (mode e : Nat) : Nat :=
  match mode with
  | 0 => 1 + 16 * e
  | 1 => 1 + e
  | 2 => 1 + 2 * e + 2
  | _ => 1 + 4 * e + 4

/-- The OTC reads that fetcher `f` still holds, out of those of its head. -/
def heldBy (f : Nat) (held : List OtcRead) : List OtcRead :=
  (held.filter (fun e => e.addr % 2 ^ 48 / 2 ^ 32 == f)).map (fun e => { e with addr := e.addr - f * 2 ^ 32 })

/-- A block row of an OTC object, as a fetcher holds it (R79): the object by the address that names it (that of its entry in a tile index, or of an image or
plane) and the row of blocks. -/
def blockRow (obj row : Nat) : Nat := obj % 2 ^ 32 * 2 ^ 16 + row

/-- The mark of a read at `a` for the block row `u`. -/
def otcMark (u a : Nat) : Nat := a % 2 ^ 32 + (u + 1) * 2 ^ 48

/-- A read for a block row of an OTC object: what the fetcher holds of that block row, or else a read of memory (R79). -/
def otcLook (s : State) (held : List OtcRead) (u a n : Nat) : Look Nat :=
  match held.find? (fun e => e.addr == otcMark u a && e.len == n) with
  | some e => ⟨e.val, [], [], [e]⟩
  | none => let l := look s a n; { l with reads := [(otcMark u a, n)], otc := [⟨otcMark u a, n, l.val⟩] }

/-- The mode byte of the OTC block at `a`. A block with a nonzero bit in [5:0] is bad, and counts once as its row is decoded (R79). -/
def otcMode (s : State) (held : List OtcRead) (u a : Nat) : Look Nat :=
  let l := otcLook s held u a 1
  match l.val with
  | some m => if m % 64 ≠ 0 && !l.reads.isEmpty then { l with bad := [otcMark u a] } else l
  | none => l

/-- The address of the block `i` blocks after the one at `a`. -/
def otcSkip (s : State) (held : List OtcRead) (u e a : Nat) : Nat → Look Nat
  | 0 => Look.pure a
  | i + 1 => (otcMode s held u a).bind (fun m => otcSkip s held u e (a + otcSize (m / 64) e) i)

/-- Element `j` of a block's bytes as a number, from byte `i` of it. -/
def otcPart (block e i j : Nat) : Nat := block / 2 ^ (8 * (i + j * e)) % 2 ^ (8 * e)

/-- The element of pixel `i` of the OTC block at `a`, the block read as one. A bad block is transparent (R79). -/
def otcElement (s : State) (held : List OtcRead) (u e a i : Nat) : Look Nat :=
  (otcMode s held u a).bind fun m =>
    if m % 64 ≠ 0 then Look.none
    else (otcLook s held u a (otcSize (m / 64) e)).bind fun b =>
      Look.pure (match m / 64 with
        | 0 => otcPart b e 1 i
        | 1 => otcPart b e 1 0
        | 2 => otcPart b e 1 (cond (b.testBit (8 * (1 + 2 * e) + i)) 1 0)
        | _ => otcPart b e 1 (b / 2 ^ (8 * (1 + 4 * e) + 2 * i) % 4))

/-- Pixel (px, py) of the OTC object at `obj`, which its fetcher knows by the address `name` (R78). -/
def otcPixel (s : State) (held : List OtcRead) (name e obj px py : Nat) : Look Nat :=
  let u := blockRow name (py / 4)
  (otcLook s held u (obj + 4 * (py / 4)) 4).bind fun off =>
    (otcSkip s held u e (obj + off) (px / 4)).bind fun a => otcElement s held u e a (4 * (py % 4) + px % 4)

/-- A pixel of `bpp` bits in a row of pixels of `len` bytes at `a`, the row read as one. -/
def rowPixel (s : State) (a len bpp i : Nat) : Look Nat :=
  (look s a len).bind (fun row => Look.pure (row / 2 ^ (bpp * i) % 2 ^ bpp))

/-- The OTC reads of head `n` that still hold as line `l` is fetched: those of the line before, when it was fetched last (R79). -/
def State.otcHeld (s : State) (n l : Nat) : List OtcRead :=
  if (s.head n).otcLine.any (fun k => k == l || k + 1 == l) then (s.head n).otc else []

/-! ## Palettes (R92, R93) -/

/-- The array key of a palette entry. -/
def palKey (n kind pal entry : Nat) : Nat := n * 0x8000 + kind * 0x4000 + pal * 0x100 + entry

/-- The last write of the line to a pixel-class target that applies at column `x` (R93, R111). -/
def State.pixAt (s : State) (n x key : Nat) : Option Word :=
  ((s.head n).pix.reverse.find? (fun p => p.1 ≤ x && p.2.1 == key)).map (·.2.2)

/-- The entry of a palette array as column `x` of the line now composed uses it. -/
def State.palette (s : State) (n x kind pal entry : Nat) : Nat :=
  let key := palKey n kind pal entry
  match s.pixAt n x key with
  | some v => v.toNat
  | none => smGet arrInit s.arr key

/-! ## Tile layers (R73 to R76) -/

/-- An opaque pixel of a source before blending: colour, priority, collision, and the palette it used (kind × 64 + palette), if any. -/
structure Pixel where
  argb : Nat
  prio : Nat
  coll : Bool
  cls  : Nat
  pals : List Nat
deriving DecidableEq, Repr

/-- The pixel value at (tx, ty) of tile `t` of a layer whose control word is `c` (Table 4-2). A row of a tile is one read (Example 4-2; assumption 81). -/
def tileValue (s : State) (held : List OtcRead) (c : Word) (base t tx ty : Nat) : Look Nat :=
  let ts := if bitOf c SCENE_LAYER_CTRL_tile16 then 16 else 8
  let f := getF c SCENE_LAYER_CTRL_format
  if f ≤ 2 then
    let bpp := 2 * 2 ^ f
    rowPixel s (base + t * (ts * ts * bpp / 8) + ty * (ts * bpp / 8)) (ts * bpp / 8) bpp tx
  else
    let name := base + 4 * t
    (otcLook s held (blockRow name (ty / 4)) name 4).bind (fun off => otcPixel s held name (if f == 4 then 4 else 1) (base + off) tx ty)

/-- The map pixel (mx, my) of a layer as an opaque pixel, or nothing where it is transparent. `x` is the column it is shown at. -/
def mapPixel (s : State) (held : List OtcRead) (n x p : Nat) (c : Word) (mx my : Nat) : Look Pixel :=
  let ts := if bitOf c SCENE_LAYER_CTRL_tile16 then 16 else 8
  let mw := getF c SCENE_LAYER_CTRL_map_w
  (look s ((s.useReg n (tileHome SCENE_LAYER_MAP p)).toNat + (my / ts * 2 ^ mw + mx / ts) * 4) 4).bind fun e =>
    let tx := if e.testBit 26 then ts - 1 - mx % ts else mx % ts
    let ty := if e.testBit 27 then ts - 1 - my % ts else my % ts
    (tileValue s held c (s.useReg n (tileHome SCENE_LAYER_TILE p)).toNat (bitsN e 19 0) tx ty).bind fun v =>
      let direct := getF c SCENE_LAYER_CTRL_format == 4
      let argb := if direct then v else s.palette n x 0 (bitsN e 25 20) v
      if (if direct then bitsN v 31 24 == 0 else v == 0 && !bitOf c SCENE_LAYER_CTRL_opaque) then Look.none
      else Look.pure ⟨argb, bitsN e 29 28, e.testBit 30, getF c SCENE_LAYER_CTRL_class, if direct then [] else [bitsN e 25 20]⟩

/-- Where a coordinate outside a map of size `size` leads by the edge mode (R76): wrapped, nowhere, or clamped. -/
def edgeCoord (edge : Nat) (i : Int) (size : Nat) : Option Nat :=
  match edge with
  | 0 => some (i % (size : Int)).toNat
  | 2 => some (clampI 0 ((size : Int) - 1) i).toNat
  | _ => if 0 ≤ i ∧ i < (size : Int) then some i.toNat else none

/-- The pixel of tile layer `m` of head `n` at (x, y), shown at column `cx` (R74, R76), as its fetcher reads it. -/
def layerLook (s : State) (held : List OtcRead) (n m cx : Nat) (x y : Int) : Look Pixel :=
  match s.tilePipe n m with
  | none => Look.none
  | some p =>
    let c := s.useReg n (tileHome SCENE_LAYER_CTRL p)
    let ts := if bitOf c SCENE_LAYER_CTRL_tile16 then 16 else 8
    let w := 2 ^ getF c SCENE_LAYER_CTRL_map_w * ts
    let h := 2 ^ getF c SCENE_LAYER_CTRL_map_h * ts
    if !bitOf c SCENE_LAYER_CTRL_enable then Look.none
    else if bitOf c SCENE_LAYER_CTRL_affine then
      let f := getF c SCENE_LAYER_CTRL_format
      let term := fun r => signed 32 (s.useReg n (tileHome r p)).toNat
      if f != 1 && f != 2 then Look.none
      else
        let u := (term SCENE_LAYER_AFF_X0 + term SCENE_LAYER_AFF_A * x + term SCENE_LAYER_AFF_B * y) / 4096
        let v := (term SCENE_LAYER_AFF_Y0 + term SCENE_LAYER_AFF_C * x + term SCENE_LAYER_AFF_D * y) / 4096
        let edge := getF c SCENE_LAYER_CTRL_edge
        match edgeCoord edge u w, edgeCoord edge v h with
        | some mx, some my => mapPixel s held n cx p c mx my
        | _, _ => Look.none
    else
      let sc := s.useReg n (tileHome SCENE_LAYER_SCROLL p)
      mapPixel s held n cx p c ((x + getF sc SCENE_LAYER_SCROLL_x) % (w : Int)).toNat ((y + getF sc SCENE_LAYER_SCROLL_y) % (h : Int)).toNat

/-- The pixel of tile layer `m` at (x, y); layer `m` is fetcher `m` of its head. -/
def layerPixel (s : State) (held : List OtcRead) (n m cx : Nat) (x y : Int) : Look Pixel := (layerLook s (heldBy m held) n m cx x y).by m

/-! ## Sprites (R80 to R86) -/

/-- The image width and height of a sprite. -/
def Sprite.imgW (d : Sprite) : Nat := (bitsN d.w1 25 20 + 1) * 8
def Sprite.imgH (d : Sprite) : Nat := (bitsN d.w1 31 26 + 1) * 8

/-- The width W' and height H' that a sprite covers (R81). -/
def Sprite.boxW (d : Sprite) : Nat := if d.w2.testBit 20 && d.w2.testBit 19 then (bitsN d.w3 19 14 + 1) * 8 else d.imgW
def Sprite.boxH (d : Sprite) : Nat := if d.w2.testBit 20 && d.w2.testBit 19 then (bitsN d.w3 13 8 + 1) * 8 else d.imgH

/-- The left and top edges of a sprite. -/
def Sprite.x (d : Sprite) : Int := signed 14 (bitsN d.w0 29 16)
def Sprite.y (d : Sprite) : Int := signed 14 (bitsN d.w0 13 0)

/-- The format field of a sprite. -/
def Sprite.format (d : Sprite) : Nat := bitsN d.w2 25 23

/-- Whether a sprite's format is reserved, or one that R82 forbids it. -/
def Sprite.badFormat (d : Sprite) : Bool := 6 ≤ d.format || (d.w2.testBit 20 && (d.format == 3 || d.format == 4))

/-- The columns of a sprite that lie on the screen (R84). -/
def Sprite.span (d : Sprite) (width : Nat) : Nat := (min (d.x + d.boxW) (width : Int) - max d.x 0).toNat

/-- Descriptor `d` of head `n`'s table, one 16-byte access (R87). -/
def spriteDesc (s : State) (n d : Nat) : Look Sprite :=
  let a := (s.head n).sprBase + 16 * d
  (look s a 16).bind (fun v => Look.pure ⟨d, bitsN v 31 0, bitsN v 63 32, bitsN v 95 64, bitsN v 127 96⟩)

/-- The bits of a pixel of an uncompressed sprite image (R81). -/
def Sprite.bpp (d : Sprite) : Nat := if d.format == 5 then 32 else 2 * 2 ^ d.format

/-- Image pixel (u, v) of a sprite: its value before palette lookup. A row of an uncompressed image is one read for a sprite without a matrix, and the
bytes of the pixel for one with a matrix (DESIGN CHOICE, assumption 81). -/
def spriteValue (s : State) (held : List OtcRead) (n : Nat) (d : Sprite) (u v : Nat) : Look Nat :=
  let img := (s.useReg n (SCENE_SPR_IMAGE n)).toNat + bitsN d.w1 19 0 * 256
  let bit := (v * d.imgW + u) * d.bpp
  if d.format == 3 then otcPixel s held img 1 img u v
  else if d.format == 4 then otcPixel s held img 4 img u v
  else if d.w2.testBit 20 then (look s (img + bit / 8) ((d.bpp + 7) / 8)).bind (fun b => Look.pure (b / 2 ^ (bit % 8) % 2 ^ d.bpp))
  else rowPixel s (img + v * (d.imgW * d.bpp / 8)) (d.imgW * d.bpp / 8) d.bpp u

/-- The pixel of sprite `d` at (x, y), shown at column `cx`: R81 and R82 give the image pixel. -/
def spriteLook (s : State) (held : List OtcRead) (n cx : Nat) (d : Sprite) (x y : Int) : Look Pixel :=
  let dx := x - d.x
  let dy := y - d.y
  if dx < 0 ∨ (d.boxW : Int) ≤ dx ∨ dy < 0 ∨ (d.boxH : Int) ≤ dy then Look.none
  else
    let color := fun (u v : Int) =>
      if u < 0 ∨ (d.imgW : Int) ≤ u ∨ v < 0 ∨ (d.imgH : Int) ≤ v then Look.none
      else (spriteValue s held n d u.toNat v.toNat).bind fun p =>
        let direct := d.format == 4 || d.format == 5
        if (if direct then bitsN p 31 24 == 0 else p == 0) then Look.none
        else Look.pure ⟨if direct then p else s.palette n cx 1 (bitsN d.w2 31 26) p, bitsN d.w2 12 11, d.w2.testBit 6, bitsN d.w2 10 7,
            if direct then [] else [64 + bitsN d.w2 31 26]⟩
    if d.w2.testBit 20 then
      (look s ((s.useReg n (SCENE_SPR_AFFINE n)).toNat + 8 * bitsN d.w2 18 13) 8).bind fun m =>
        let ex := dx - (d.boxW / 2 : Nat)
        let ey := dy - (d.boxH / 2 : Nat)
        color ((signed 16 m * ex + signed 16 (m / 2 ^ 16) * ey) / 4096 + (d.imgW / 2 : Nat))
          ((signed 16 (m / 2 ^ 32) * ex + signed 16 (m / 2 ^ 48) * ey) / 4096 + (d.imgH / 2 : Nat))
    else
      color (if d.w2.testBit 22 then d.imgW - 1 - dx else dx) (if d.w2.testBit 21 then d.imgH - 1 - dy else dy)

/-- The fetcher of a sprite: each of a head's sprites reads for itself. -/
def Sprite.fetcher (d : Sprite) : Nat := 16 + d.index

/-- The pixel of sprite `d` at (x, y). -/
def spritePixel (s : State) (held : List OtcRead) (n cx : Nat) (d : Sprite) (x y : Int) : Look Pixel :=
  (spriteLook s (heldBy d.fetcher held) n cx d x y).by d.fetcher

/-- The pixels of the accepted sprites at (x, y), with their descriptors. -/
def spritePixels (s : State) (held : List OtcRead) (n cx : Nat) (ds : List Sprite) (x y : Int) : Look (List (Sprite × Pixel)) :=
  ds.foldl (fun acc d =>
    let r := spritePixel s held n cx d x y
    acc.after ⟨some (acc.val.getD [] ++ match r.val with | some p => [(d, p)] | none => []), r.reads, r.bad, r.otc⟩) (Look.pure [])

/-- The pixel of the sprite plane: the highest priority, then the lowest descriptor (R86). -/
def frontSprite : List (Sprite × Pixel) → Option (Sprite × Pixel)
  | [] => none
  | p :: ps => match frontSprite ps with
    | none => some p
    | some q => if p.2.prio < q.2.prio then some q else some p

/-! ## Video layers (R126 to R132) -/

/-- The in-use plane base of a video pipe (R136). `c` selects the chroma plane. -/
def State.planeBase (s : State) (p : Nat) (c : Bool) : Nat :=
  (smGet (fun _ => 0#32) s.vidBase (2 * p + cond c 1 0)).toNat

/-- The array key of a scaler coefficient of video pipe `p` (R131). -/
def coefKey (p : Nat) (vert : Bool) (phase tap : Nat) : Nat := 0x200000 + (p - 32) * 0x400 + (cond vert 0x200 0) + phase * 8 + tap

/-- A scaler coefficient as the line now composed uses it. -/
def State.coef (s : State) (n p : Nat) (vert : Bool) (phase tap : Nat) : Int :=
  let k := coefKey p vert phase tap
  signed 12 (((s.head n).arrOld.lookup k).getD (smGet arrInit s.arr k))

/-- A read whose failure gives a free value: the manual gives a video sample no value there (R99; the free-value entry of the log). -/
def lookOr (s : State) (a n : Nat) : Look Nat :=
  let l := look s a n
  { l with val := some (l.val.getD (Config.badSample a)) }

/-- An OTC video sample: a bad block gives `bad` (R127), a failed read a free value. -/
def otcSample (s : State) (held : List OtcRead) (e obj col row bad : Nat) (f : Nat → Nat) : Look Nat :=
  let l := otcPixel s held obj e obj col row
  { l with val := some (match l.val with
      | some v => f v
      | none => if l.otc.any (fun r => r.val.isNone) then f (Config.badSample obj) else bad) }

/-- A luma sample (`c` none) or a chroma sample (`some 0` Cb, `some 1` Cr) of a video picture of head `n` as a 10-bit code (R126, R127). -/
def videoSample (s : State) (held : List OtcRead) (n p : Nat) (vc : Word) (c : Option Nat) (col row : Nat) : Look Nat :=
  let f := getF vc SCENE_VID_CTRL_format
  let st := s.useReg n (videoHome SCENE_VID_STRIDE p)
  let yb := s.planeBase p false
  let cb := s.planeBase p true
  let y := yb + row * getF st SCENE_VID_STRIDE_y
  let word := fun a => (lookOr s a 2).bind (fun v => Look.pure (bitsN v 15 6))
  let byte := fun a => (lookOr s a 1).bind (fun v => Look.pure (bitsN v 7 0 * 4))
  match c with
  | none =>
    match f with
    | 1 | 3 => word (y + 2 * col)
    | 4 => byte (y + 2 * col)
    | 5 | 6 => otcSample s held 1 yb col row 0 (fun v => v % 256 * 4)
    | _ => byte (y + col)
  | some i =>
    let b := cb + row * getF st SCENE_VID_STRIDE_c
    match f with
    | 1 | 3 => word (b + 4 * col + 2 * i)
    | 4 => byte (y + 4 * col + 1 + 2 * i)
    | 5 | 6 => otcSample s held 2 cb col row 512 (fun v => bitsN v (8 * i + 7) (8 * i) * 4)
    | _ => byte (b + 2 * col + i)

/-- The scaler at 16.16 position (sx, sy), with samples held within a rectangle of columns and rows (R128). -/
def scale (s : State) (n p : Nat) (sample : Nat → Nat → Look Nat) (sx sy : Int) (c0 c1 r0 r1 : Nat) : Look Nat :=
  let ix := sx / 65536
  let px := (sx / 1024 % 64).toNat
  let iy := sy / 65536
  let py := (sy / 1024 % 64).toNat
  let at_ := fun (i lo hi : Nat) (j : Int) (back : Nat) => (clampI lo hi (j - back + i)).toNat
  let tap := fun (cx i : Nat) => sample cx (at_ i r0 r1 iy 2)
  let column := fun (cx : Nat) =>
    ((List.range 6).foldl (fun (t : Int) i => t + s.coef n p true py i * ((tap cx i).val.getD 0 : Nat)) 128) / 256
  let h := (List.range 8).foldl (fun (t : Int) i => t + s.coef n p false px i * column (at_ i c0 c1 ix 3)) 2048
  (List.range 8).foldl (fun l i => (List.range 6).foldl (fun (l : Look Nat) j => (tap (at_ i c0 c1 ix 3) j).after l) l)
    (Look.pure (clampI 0 1023 (h / 4096)).toNat)

/-- A rational number rounded to the nearest integer, half up. -/
def roundDiv (num : Int) (den : Int) : Int := (2 * num + den) / (2 * den)

/-- The red, green and blue codes of a video pixel: exact rounding, off by at most 1 as the hardware leaves it (R132). -/
def yuvToRgb (matrix : Nat) (full : Bool) (y cb cr : Nat) : Nat × Nat × Nat :=
  let kr : Int := match matrix with | 0 => 2990 | 1 => 2126 | _ => 2627
  let kb : Int := match matrix with | 0 => 1140 | 1 => 722 | _ => 593
  let dy : Int := if full then 1023 else 876
  let dc : Int := if full then 1023 else 896
  let yn := ((y : Int) - (if full then 0 else 64)) * dc * 10000
  let rn := yn + 2 * (10000 - kr) * ((cr : Int) - 512) * dy
  let bn := yn + 2 * (10000 - kb) * ((cb : Int) - 512) * dy
  let d := dy * dc * 10000
  let gn := 10000 * yn - kr * rn - kb * bn
  let fix := fun (ch : Nat) (v : Int) => (clampI 0 1023 (clampI 0 1023 v + ((Config.yuvError matrix full y cb cr ch).val : Int) - 1)).toNat
  (fix 0 (roundDiv (1023 * rn) d), fix 1 (roundDiv (1023 * gn) (d * (10000 - kr - kb))), fix 2 (roundDiv (1023 * bn) d))

/-- The bytes that a row of each plane needs for columns up to `x` of the picture, luma and chroma (Table 6-2); none where the strides do not bound it. -/
def videoRow (f x : Nat) : Option (Nat × Nat) :=
  match f with
  | 0 | 2 => some (x + 1, 2 * (x / 2) + 2)
  | 1 | 3 => some (2 * x + 2, 4 * (x / 2) + 4)
  | 4 => some (4 * (x / 2) + 4, 0)
  | _ => none

/-- Whether video pipe `p` breaks a condition of R130, its registers read by `get`: a step beyond its bounds, or a rectangle that reaches beyond its plane. A
plane reaches as far as its registers show: its rows no further than their stride; no register tells how many rows it has (DEDUCED; assumption 12). A
rectangle of no pixels, as the registers hold it after reset, reaches beyond nothing. -/
def videoBad (get : Nat → Word) (p : Nat) : Bool :=
  let step := fun v => v < 0x1000 || 0x40000 < v
  let wh := get (videoHome SCENE_VID_SRC_WH p)
  let st := get (videoHome SCENE_VID_STRIDE p)
  let w := getF wh SCENE_VID_SRC_WH_x
  let h := getF wh SCENE_VID_SRC_WH_y
  step (getF (get (videoHome SCENE_VID_HSTEP p)) SCENE_VID_HSTEP_step) || step (getF (get (videoHome SCENE_VID_VSTEP p)) SCENE_VID_VSTEP_step) ||
    w != 0 && h != 0 &&
    match videoRow (getF (get (videoHome SCENE_VID_CTRL p)) SCENE_VID_CTRL_format)
        (getF (get (videoHome SCENE_VID_SRC_XY p)) SCENE_VID_SRC_XY_x + w - 1) with
    | some (y, c) => getF st SCENE_VID_STRIDE_y < y || getF st SCENE_VID_STRIDE_c < c
    | none => false

/-- Whether a video layer is bad as its registers now stand. -/
def State.videoBadCfg (s : State) (p : Nat) : Bool := videoBad s.reg p

/-- The pixel of video layer `v` of head `n` at (x, y), as 10-bit channels (R128 to R132). -/
def videoLook (s : State) (held : List OtcRead) (n v : Nat) (x y : Int) : Look (Nat × Nat × Nat) :=
  match s.videoPipe n v with
  | none => Look.none
  | some p =>
    let u := fun r => s.useReg n (videoHome r p)
    let vc := u SCENE_VID_CTRL
    let i := x - signed 16 (getF (u SCENE_VID_DST_XY) SCENE_VID_DST_XY_x)
    let j := y - signed 16 (getF (u SCENE_VID_DST_XY) SCENE_VID_DST_XY_y)
    let sw := getF (u SCENE_VID_SRC_WH) SCENE_VID_SRC_WH_x
    let sh := getF (u SCENE_VID_SRC_WH) SCENE_VID_SRC_WH_y
    if !bitOf vc SCENE_VID_CTRL_enable || videoBad (s.useReg n) p || sw == 0 || sh == 0 then Look.none
    else if i < 0 ∨ (getF (u SCENE_VID_DST_WH) SCENE_VID_DST_WH_x : Int) ≤ i ∨ j < 0 ∨ (getF (u SCENE_VID_DST_WH) SCENE_VID_DST_WH_y : Int) ≤ j then
      Look.none
    else
      let x0 := getF (u SCENE_VID_SRC_XY) SCENE_VID_SRC_XY_x
      let y0 := getF (u SCENE_VID_SRC_XY) SCENE_VID_SRC_XY_y
      let x1 := x0 + sw - 1
      let y1 := y0 + sh - 1
      let sx := (x0 * 65536 : Nat) + signed 32 (u SCENE_VID_HINIT).toNat + i * getF (u SCENE_VID_HSTEP) SCENE_VID_HSTEP_step
      let sy := (y0 * 65536 : Nat) + signed 32 (u SCENE_VID_VINIT).toNat + j * getF (u SCENE_VID_VSTEP) SCENE_VID_VSTEP_step
      let f := getF vc SCENE_VID_CTRL_format
      let is420 := f == 0 || f == 1 || f == 5
      let csx := (sx - (if bitOf vc SCENE_VID_CTRL_h_site then 0x8000 else 0)) / 2
      let csy := if is420 then (sy - (if bitOf vc SCENE_VID_CTRL_v_site then 0 else 0x8000)) / 2 else sy
      let cr0 := if is420 then y0 / 2 else y0
      let cr1 := if is420 then y1 / 2 else y1
      (scale s n p (videoSample s held n p vc none) sx sy x0 x1 y0 y1).bind fun luma =>
      (scale s n p (videoSample s held n p vc (some 0)) csx csy (x0 / 2) (x1 / 2) cr0 cr1).bind fun cb =>
      (scale s n p (videoSample s held n p vc (some 1)) csx csy (x0 / 2) (x1 / 2) cr0 cr1).bind fun cr =>
      Look.pure (yuvToRgb (getF vc SCENE_VID_CTRL_matrix) (bitOf vc SCENE_VID_CTRL_full_range) luma cb cr)

/-- The pixel of video layer `v` at (x, y); layer `v` is fetcher 9 + v of its head. -/
def videoPixel (s : State) (held : List OtcRead) (n v : Nat) (x y : Int) : Look (Nat × Nat × Nat) :=
  (videoLook s (heldBy (9 + v) held) n v x y).by (9 + v)

/-! ## Blending (R119 to R124) -/

/-- A 10-bit colour. -/
abbrev Rgb := Nat × Nat × Nat

/-- An 8-bit channel as a 10-bit one (R121). -/
def widen (c : Nat) : Nat := c * 4 + c / 64

/-- The 10-bit colour of an ARGB8888 value. -/
def rgbOf (argb : Nat) : Rgb := (widen (bitsN argb 23 16), widen (bitsN argb 15 8), widen (bitsN argb 7 0))

/-- The effective alpha (R121). -/
def effAlpha (a m : Nat) : Nat := (a * m * 257 + 0x8000) / 65536

/-- A channel blended by a mode of Table 6-1. -/
def blendChannel (mode s d ae m : Nat) : Nat :=
  match mode with
  | 1 => min 1023 (d + (s * ae + 127) / 255)
  | 2 => d - (s * ae + 127) / 255
  | 3 => (d * ((s * ae + 1023 * (255 - ae) + 127) / 255) + 511) / 1023
  | 4 => 1023 - ((1023 - d) * (1023 - (s * ae + 127) / 255) + 511) / 1023
  | 5 => s
  | 6 => min 1023 ((s * m + d * (255 - ae) + 127) / 255)
  | _ => (s * ae + d * (255 - ae) + 127) / 255

/-- One source's contribution at a pixel. -/
structure Contrib where
  key : Nat
  src : Nat
  rgb : Rgb
  ae : Nat
  m : Nat
  mode : Nat
  pals : List Nat
deriving DecidableEq, Repr

/-- A contribution put in order, backmost first: the higher key in front, and between equal keys the lower source (R119). -/
def insertContrib (c : Contrib) : List Contrib → List Contrib
  | [] => [c]
  | d :: ds => if c.key < d.key ∨ (c.key = d.key ∧ d.src < c.src) then c :: d :: ds else d :: insertContrib c ds

/-- The colour after one contribution (R120): an effective alpha of 0 is passed over. -/
def applyContrib (d : Rgb) (c : Contrib) : Rgb :=
  if c.ae == 0 then d
  else (blendChannel c.mode c.rgb.1 d.1 c.ae c.m, blendChannel c.mode c.rgb.2.1 d.2.1 c.ae c.m, blendChannel c.mode c.rgb.2.2 d.2.2 c.ae c.m)

/-- Whether source `src` may show at the true (x, y) by its window mask (R123). -/
def State.windowShows (s : State) (n src x y : Nat) : Bool :=
  let c := s.useReg n (SCENE_COMP n src)
  let win := getF c SCENE_COMP_win
  let inside := (List.range 8).any fun w =>
    let wx := s.useReg n (SCENE_WIN_X n w)
    let wy := s.useReg n (SCENE_WIN_Y n w)
    win.testBit w && getF wx SCENE_WIN_X_lo ≤ x && x ≤ getF wx SCENE_WIN_X_hi && getF wy SCENE_WIN_Y_lo ≤ y && y ≤ getF wy SCENE_WIN_Y_hi
  win == 0 || (inside != bitOf c SCENE_COMP_win_inv)

/-- The position a source's pixel is taken from, its mosaic applied, with the registers read by `get` (R124). -/
def mosaicPos (get : Nat → Word) (n src x y : Nat) : Int × Int :=
  let c := get (SCENE_COMP n src)
  if bitOf c SCENE_COMP_mosaic then
    let j := getF c SCENE_COMP_mos
    let size := get (SCENE_MOS_SIZE n j)
    let org := get (SCENE_MOS_ORG n j)
    ((x : Int) - ((x : Int) - signed 16 (getF org SCENE_MOS_ORG_ax)) % ((getF size SCENE_MOS_SIZE_w + 1 : Nat) : Int),
     (y : Int) - ((y : Int) - signed 16 (getF org SCENE_MOS_ORG_ay)) % ((getF size SCENE_MOS_SIZE_h + 1 : Nat) : Int))
  else (x, y)

/-- The contribution of source `src` at (x, y), with the looks it made. `ds` are the sprites accepted for the line that the sprite plane shows. A pixel that
mosaic takes from (x', y') is formed with the registers of line y and the palette entries of column x, those of the true position (DESIGN CHOICE: R124 does not
say whose; assumption 105). -/
def contribution (s : State) (held : List OtcRead) (n : Nat) (ds : List Sprite) (x y src : Nat) : Look Contrib :=
  let c := s.useReg n (SCENE_COMP n src)
  let (mx, my) := mosaicPos (s.useReg n) n src x y
  let key := fun prio => prio * 16 + getF c SCENE_COMP_rank
  if !s.windowShows n src x y then Look.none
  else if src < 8 then
    (layerPixel s held n src x mx my).bind fun p =>
      let m := getF c SCENE_COMP_alpha
      Look.pure ⟨key p.prio, src, rgbOf p.argb, effAlpha (bitsN p.argb 31 24) m, m, getF c SCENE_COMP_blend, p.pals⟩
  else if src == 8 then
    if !bitOf (s.useReg n (SCENE_SPR_CTRL n)) SCENE_SPR_CTRL_enable then Look.none
    else (spritePixels s held n x ds mx my).bind fun ps =>
      match frontSprite ps with
      | none => Look.none
      | some (d, p) =>
        let m := bitsN d.w3 31 24
        let mode := bitsN d.w3 23 20
        Look.pure ⟨key p.prio, src, rgbOf p.argb, effAlpha (bitsN p.argb 31 24) m, m, if mode ≤ 6 then mode else 0, p.pals⟩
  else
    (videoPixel s held n (src - 9) mx my).bind fun rgb =>
      let m := getF c SCENE_COMP_alpha
      Look.pure ⟨key (getF c SCENE_COMP_vprio), src, rgb, effAlpha 255 m, m, getF c SCENE_COMP_blend, []⟩

/-- The background colour at column `x`, with the pixel-class writes of the line up to there (R111, R120). -/
def State.background (s : State) (n x : Nat) : Rgb :=
  rgbOf (getF ((s.pixAt n x (SCENE_BG n)).getD (s.useReg n (SCENE_BG n))) SCENE_BG_rgb)

/-- The composed colour at (x, y) before the post-blend chain (R120), the palettes used, and the looks made. -/
def composeRgb (s : State) (held : List OtcRead) (n : Nat) (ds : List Sprite) (x y : Nat) : Look (Rgb × List Nat) :=
  let cs := (List.range 11).map (contribution s held n ds x y)
  let order := cs.foldl (fun l c => match c.val with | some v => insertContrib v l | none => l) []
  ⟨some (order.foldl applyContrib (s.background n x), (order.map (·.pals)).flatten), (cs.map (·.reads)).flatten, (cs.map (·.bad)).flatten,
    (cs.map (·.otc)).flatten⟩

/-! ## The post-blend chain (R133, R134) -/

/-- One row of the colour matrix applied (R133). -/
def cscRow (s : State) (n r : Nat) (c : Rgb) : Nat :=
  let e := s.useReg n (SCENE_CSC n (2 * r))
  let o := s.useReg n (SCENE_CSC n (2 * r + 1))
  let sum := signed 16 (getF e SCENE_CSC_lo) * c.1 + signed 16 (getF e SCENE_CSC_hi) * c.2.1 + signed 16 (getF o SCENE_CSC_lo) * c.2.2
  (clampI 0 1023 ((sum + 2048) / 4096 + signed 16 (getF o SCENE_CSC_hi))).toNat

/-- The array key of a gamma entry. -/
def gammaKey (n ch e : Nat) : Nat := 0x100000 + n * 0x1000 + ch * 0x400 + e

/-- POST_CTRL at column `x` of the line: a write applies from the first pixel pair composed after it (R135). -/
def State.postCtrl (s : State) (n x : Nat) : Word := (s.pixAt n x (SCENE_POST_CTRL n)).getD (s.reg (SCENE_POST_CTRL n))

/-- One channel through the gamma stage: 12 bits (R133). -/
def gammaOf (s : State) (n x ch v : Nat) : Nat :=
  if bitOf (s.postCtrl n x) SCENE_POST_CTRL_gamma_en then
    let k := gammaKey n ch v
    ((s.head n).arrOld.lookup k).getD (smGet arrInit s.arr k)
  else v * 4 + v / 256

/-- The dither matrix M. -/
def ditherM : List (List Nat) := [[0, 8, 2, 10], [12, 4, 14, 6], [3, 11, 1, 9], [15, 7, 13, 5]]

/-- The bits per channel of a depth (R134). -/
def depthBits (depth ch : Nat) : Nat :=
  match depth with
  | 0 => if ch == 1 then 6 else 5
  | 1 => 6
  | 2 => 8
  | _ => 10

/-- A 12-bit channel reduced to `d` bits by a dither mode (R134). -/
def ditherOut (mode d ch x y f v : Nat) : Nat :=
  let sh := 12 - d
  let cell := fun cx cy => (ditherM.getD (cy % 4) []).getD (cx % 4) 0 * 2 ^ sh / 16
  let t := match mode with
    | 1 => cell x y
    | 2 => cell (x + (match ch with | 1 => 2 | 2 => 1 | _ => 0) + f) (y + (match ch with | 1 => 1 | 2 => 2 | _ => 0) + f / 4)
    | _ => 2 ^ (sh - 1)
  min (2 ^ d - 1) ((v + t) / 2 ^ sh)

/-- The post-blend chain at (x, y): three channels of the widths of R134. -/
def postBlend (s : State) (n x y : Nat) (c : Rgb) : Rgb :=
  let pc := s.postCtrl n x
  let c := if bitOf pc SCENE_POST_CTRL_csc_en then (cscRow s n 0 c, cscRow s n 1 c, cscRow s n 2 c) else c
  let f := (s.reg (HEAD_FRAME n)).toNat
  let out := fun ch v => ditherOut (getF pc SCENE_POST_CTRL_dither) (depthBits (getF pc SCENE_POST_CTRL_depth) ch) ch x y f (gammaOf s n x ch v)
  (out 0 c.1, out 1 c.2.1, out 2 c.2.2)

/-! ## Packing (R134, R141, Table 7-1) -/

/-- The width in bits of channel `ch` in a DSI pixel format, and the zero bits packed below it. -/
def packBits (format ch : Nat) : Nat × Nat :=
  match format with
  | 0 => (if ch == 1 then 6 else 5, 0)
  | 1 => (6, 0)
  | 2 => (6, 2)
  | 3 => (8, 0)
  | _ => (10, 0)

/-- A channel of `d` bits fitted to `w` bits (R134): shifted left with zero fill, or its most significant bits. -/
def fitBits (d w v : Nat) : Nat := if d ≤ w then v * 2 ^ (w - d) else v / 2 ^ (d - w)

/-- The pixel of head `n` at column `x` in its DSI format, as a number and its width in bits, red least significant. -/
def packPixel (s : State) (n x : Nat) (c : Rgb) : Nat × Nat :=
  let fmt := (s.head n).format
  let depth := getF (s.postCtrl n x) SCENE_POST_CTRL_depth
  let one := fun ch v => (fitBits (depthBits depth ch) (packBits fmt ch).1 v * 2 ^ (packBits fmt ch).2, (packBits fmt ch).1 + (packBits fmt ch).2)
  let (r, rw) := one 0 c.1
  let (g, gw) := one 1 c.2.1
  let (b, bw) := one 2 c.2.2
  (r + g * 2 ^ rw + b * 2 ^ (rw + gw), rw + gw + bw)

/-- The packed bytes of a row of pixels: one bit stream, least significant bit first, filled up to whole bytes. -/
def packRow (s : State) (n : Nat) (px : List Rgb) : List Byte :=
  let (v, w) := (List.zip (List.range px.length) px).foldl
    (fun (acc : Nat × Nat) e => let (p, k) := packPixel s n e.1 e.2; (acc.1 + p * 2 ^ acc.2, acc.2 + k)) (0, 0)
  leBytes ((w + 7) / 8) v

/-- The fill of R156 at (x, y): the background through the post-blend chain. -/
def fillPixel (s : State) (n x y : Nat) : Rgb := postBlend s n x y (s.background n x)

/-! ## Collision (R89) -/

/-- The classes that have an opaque, collision-enabled pixel at (x, y), as a bit set, with the looks it took. -/
def collClasses (s : State) (held : List OtcRead) (n : Nat) (ds : List Sprite) (x y : Nat) : Look Nat :=
  let layers := (List.range 8).map fun m => layerPixel s held n m x x y
  let sprites := if bitOf (s.useReg n (SCENE_SPR_CTRL n)) SCENE_SPR_CTRL_enable then spritePixels s held n x ds x y else Look.pure []
  let px := layers.filterMap (·.val) ++ (sprites.val.getD []).map (·.2)
  layers.foldl (fun l r => r.after l)
    (sprites.after (Look.pure ((px.filter (·.coll)).foldl (fun set p => set ||| 2 ^ p.cls) 0)))

/-- The hit rows after a set of classes has met at a pixel. -/
def collide (s : State) (n set : Nat) (hits : List (Nat × Nat)) : List (Nat × Nat) :=
  (List.range 16).foldl (fun h i =>
    if set.testBit i then
      smSet (fun _ => 0) h i (smGet (fun _ => 0) h i ||| ((set - 2 ^ i) &&& s.fld (SCENE_COLL_MASK n i) SCENE_COLL_MASK_mask))
    else h) hits

end Sys2Proof.Machine
end

