-- ==== Sys2Proof/Machine/Scene.lean ====
section
/-! DEFINITION. The scene engine's registers and events: held writes (R98), palettes (R92 to R94), sprite evaluation (R83 to R88), the
pixels of a line, collision (R89 to R91), fetch faults (R99), pipes (R139), video bases (R136), gamma and coefficients (R131, R133). -/

namespace Sys2Proof.Machine

/-- The head whose page holds an address of the SCENE block, and the offset in the page. -/
def scenePage (a : Nat) : Nat × Nat := ((a - 0x40100000) / 0x1000, (a - 0x40100000) % 0x1000)

/-- Whether head `n` has a composition line in progress. -/
def State.lineOpen (s : State) (n : Nat) : Bool :=
  (s.head n).inFrame && (s.head n).line < s.height n && s.blkOn (blkHead n) && s.blkOn 7

/-- A failed fetch counted in SCENE_n_FAULT (R99). -/
def fetchFault (s : State) (n : Nat) (poison : Bool) : State :=
  if poison then s.count (SCENE_FAULT n) SCENE_FAULT_poison else s.count (SCENE_FAULT n) SCENE_FAULT_fetch_err

/-- The crossbar port of a scene island access at an address: 6 or 7. -/
def scenePort (a : Nat) : Nat := 6 + (Config.scenePort a).val

/-- A read by the scene island's data ports, its failure counted for head `n`. -/
def sceneRead (s : State) (n a len : Nat) : Access :=
  let r := memRead s (scenePort a) a len []
  if r.err || r.poison then { r with s := fetchFault r.s n r.poison } else r

/-- The failed reads among some reads made for head `n`, each made through the fabric and counted once (R99). -/
def countReads (s : State) (n : Nat) (reads : List (Nat × Nat)) : State :=
  reads.eraseDups.foldl (fun s r => (sceneRead s n (r.1 % 2 ^ 32) r.2).s) s

/-- What the looks of line `l` leave behind: their reads made, their bad blocks counted, their OTC blocks held (R79, R99). -/
def fetched {α : Type} (s : State) (n l : Nat) (r : Look α) : State :=
  let s := (countReads s n r.reads).countBy (SCENE_FAULT n) SCENE_FAULT_fmt_bad r.bad.eraseDups.length
  s.setHead n { s.head n with otc := r.otc.eraseDups, otcLine := some l }

/-! ## Writes that apply within a line (R93, R111, R135) -/

/-- The column from which a write in cycle `cyc` of the line applies (R111). -/
def beamColumn (cyc : Nat) : Nat := 2 * (cyc - 64)

/-- A write to a pixel-class target takes its place: a palette entry of the array, or a register. -/
def storePixel (s : State) (key : Nat) (v : Word) : State := if key < 0x20000 then s.setArr key v.toNat else s.writeCodes key v

/-- A write to a pixel-class target kept with the line, to apply from column `x` on. -/
def addPixel (s : State) (n x key : Nat) (v : Word) : State :=
  let h := s.head n
  s.setHead n { h with pix := h.pix ++ [(x, key, v)] }

/-- The last write to a pixel-class target that the line still keeps. -/
def State.pixLast (s : State) (n key : Nat) : Option Word := ((s.head n).pix.reverse.find? (fun p => p.2.1 == key)).map (·.2.2)

/-- A write of Kiln, or of a palette copy, to a pixel-class target: it applies from the column being composed on. Where that stands within the line is
what the sequencer's cycle count shows (DESIGN CHOICE, assumption 82). -/
def pixelWrite (s : State) (n key : Nat) (v : Word) : State :=
  if s.lineOpen n || (s.pixLast n key).isSome then addPixel s n (beamColumn (s.head n).cyc) key v else storePixel s key v

/-- The value of a pixel-class register as its last write left it. -/
def State.pixReg (s : State) (n a : Nat) : Word := (s.pixLast n a).getD (s.reg a)

/-- The writes that a line keeps become the stored entries and registers, in the order they came (R111). -/
def landPixelWrites (s : State) (n : Nat) : State :=
  let s := (s.head n).pix.foldl (fun s e => storePixel s e.2.1 e.2.2) s
  s.setHead n { s.head n with pix := [] }

/-! ## Register writes -/

/-- The old value of a register kept for the line in progress, unless one is kept already. -/
def keepOld (s : State) (n home : Nat) (old : Word) : State :=
  let h := s.head n
  if s.lineOpen n && (h.lineOld.lookup home).isNone then s.setHead n { h with lineOld := (home, old) :: h.lineOld } else s

/-- What a write of a scene register asks of the rest of the engine: one of SPR_TABLE or of SPR_CTRL reloads the keys at the next boundary (R88), and one of
BG, sampled with the next line, comes after the writes to BG that this line keeps. -/
def sceneAfter (s : State) (n off home : Nat) (w : Word) : State :=
  if off == 0x10 || off == 0x14 then s.setHead n { s.head n with sprDirty := true }
  else if off == 0x440 && (s.pixLast n home).isSome then addPixel s n 0x10000 home w
  else s

/-- A write of a scene register applied: the bands it touches before and after are marked (R96, R137), and the line in progress goes
on with the old value (R98). -/
def sceneApply (s : State) (n a : Nat) (w : Word) : State :=
  match s.sceneHome a with
  | none => s
  | some home =>
    let off := (scenePage a).2
    let old := s.reg home
    let s := markSceneReg (keepOld ((markSceneReg s n off).writeCodes home w) n home old) n off
    sceneAfter s n off home w

/-- Whether the register at a page offset is held back while UPDATE.hold is 1 (R98, R135). -/
def heldOffset (off : Nat) : Bool :=
  (off == 0x10 || off == 0x14 || off == 0x18 || off == 0x1C) || (0x100 ≤ off && off < 0x300) || (0x400 ≤ off && off < 0x480) ||
    (0x490 ≤ off && off < 0x580)

/-- A write of UPDATE.hold (R98): 1 starts holding, 0 releases the held values for the next frame boundary. -/
def updateHold (s : State) (n : Nat) (hold : Bool) : State :=
  let h := s.head n
  if hold then s.setBit (SCENE_UPDATE n) SCENE_UPDATE_hold true
  else
    let ready := h.ready ++ h.held
    ((s.setHead n { h with ready := ready, held := [] }).setBit (SCENE_UPDATE n) SCENE_UPDATE_hold false).setBit
      (SCENE_UPDATE n) SCENE_UPDATE_pending (!ready.isEmpty)

/-- The values released for head `n` applied together at its frame boundary (R98). -/
def applyReady (s : State) (n : Nat) : State :=
  let h := s.head n
  let s := s.setHead n { h with ready := [] }
  (h.ready.foldl (fun s e => sceneApply s n e.1 e.2) s).setBit (SCENE_UPDATE n) SCENE_UPDATE_pending false

/-- A Kiln write to a layer or sprite register: into the shadows while UPDATE.hold is 1, else applied (R98). -/
def sceneKiln (s : State) (n a : Nat) (w : Word) : State :=
  if s.bit (SCENE_UPDATE n) SCENE_UPDATE_hold then
    let h := s.head n
    s.setHead n { h with held := h.held ++ [(a, w)] }
  else sceneApply s n a w

/-- A write of SPR_CTRL.reload (R88), its other fields as they were last written. -/
def sprReload (s : State) (n : Nat) : State :=
  let a := SCENE_SPR_CTRL n
  let last := match (s.head n).held.reverse.find? (fun e => e.1 == a) with | some e => e.2 | none => s.reg a
  sceneKiln s n a (setF last SCENE_SPR_CTRL_reload 1)

/-! ## Palettes -/

/-- The index that PAL_INDEX selects: kind, palette and entry as 15 bits. -/
def State.palIndex (s : State) (n : Nat) : Nat := (s.reg (SCENE_PAL_INDEX n)).toNat % 0x8000

/-- An access to PAL_DATA advances the index when autoinc is 1, from the last entry to the first (R93). -/
def palAdvance (s : State) (n : Nat) : State :=
  if s.bit (SCENE_PAL_INDEX n) SCENE_PAL_INDEX_autoinc then
    s.setReg (SCENE_PAL_INDEX n) (BitVec.ofNat 32 (0x80000000 + (s.palIndex n + 1) % 0x8000))
  else s

/-- Every band that used a palette when last composed is marked (Table 4-5). `k` is kind × 64 + palette. -/
def markPalette (s : State) (n k : Nat) : State :=
  (List.range (s.nBands n)).foldl (fun s b =>
    if (smGet (fun _ => 0) (s.head n).bandPal b).testBit k then markBand s n b else s) s

/-- One palette entry stored, with its marks. `i` is the 15-bit index. -/
def storePalette (s : State) (n i v : Nat) : State := markPalette (pixelWrite s n (n * 0x8000 + i) (BitVec.ofNat 32 v)) n (i / 0x100)

/-- A palette entry as the last write to it left it. -/
def State.palEntry (s : State) (n i : Nat) : Nat :=
  match s.pixLast n (n * 0x8000 + i) with
  | some v => v.toNat
  | none => s.arrAt (n * 0x8000 + i)

/-- A write of PAL_DATA (R93). -/
def palDataWrite (s : State) (n : Nat) (w : Word) : State := palAdvance (storePalette s n (s.palIndex n) w.toNat) n

/-- A read of PAL_DATA (R93): the entry, and the state after the advance. -/
def palDataRead (s : State) (n : Nat) : State × Word := (palAdvance s n, BitVec.ofNat 32 (s.palEntry n (s.palIndex n)))

/-- The copy that PAL_LOAD and PAL_SRC describe (R94): count + 1 palettes of 32 beats each, stopping at index 127. -/
def State.palStart (s : State) (n : Nat) : PalJob :=
  let first := s.fld (SCENE_PAL_LOAD n) SCENE_PAL_LOAD_first
  { waits := s.bit (SCENE_PAL_LOAD n) SCENE_PAL_LOAD_at_frame, entry := first * 0x100, src := (s.reg (SCENE_PAL_SRC n)).toNat,
    left := min (s.fld (SCENE_PAL_LOAD n) SCENE_PAL_LOAD_count + 1) (128 - first) * 32 }

/-- A write of PAL_LOAD (R94): go starts a copy, at once or after the last line. While a copy is under way go changes nothing, and the copy goes on as it
was started, whatever the other fields and PAL_SRC are written to (DESIGN CHOICE: R94 is silent on such a write; assumption 83). -/
def palLoadWrite (s : State) (n : Nat) (w : Word) : State :=
  let idle := (s.head n).palJob.isNone
  let s := s.writeCodes (SCENE_PAL_LOAD n) w
  if bitOf w SCENE_PAL_LOAD_go && idle then s.setHead n { s.head n with palJob := some (s.palStart n) } else s

/-- One 32-byte beat of a palette copy: eight entries from index `i`; a failed read leaves them unchanged (R99). -/
def palBeat (s : State) (n a i : Nat) : State :=
  let r := sceneRead s n (a % 2 ^ 32) 32
  if r.err || r.poison then r.s
  else (List.range 8).foldl (fun s j => storePalette s n (i + j) (leOf ((r.data.drop (4 * j)).take 4))) r.s

/-- The next `k` beats of a running copy, in ascending order (R94). -/
def palBeats (s : State) (n : Nat) : Nat → State
  | 0 => s
  | k + 1 =>
    match (s.head n).palJob with
    | some j =>
      if j.waits || j.left == 0 then s
      else
        let s := palBeat s n j.src j.entry
        palBeats (s.setHead n { s.head n with palJob := some { j with entry := j.entry + 8, src := j.src + 32, left := j.left - 1 } }) n k
    | none => s

/-- A running copy goes on before the next line is composed: how many of its beats have come by then is a free value, since the manual gives no rate; each is
used as soon as written (R94; assumption 83). -/
def palRun (s : State) (n : Nat) : State :=
  match (s.head n).palJob with
  | some j => if j.waits || !s.blkOn 7 then s else let (w, s) := s.draw; palBeats s n (w.toNat % (j.left + 1))
  | none => s

/-- The end of a palette copy: its last entries come, and go clears (R94). -/
def palLoadDone (s : State) (n : Nat) : State :=
  match (s.head n).palJob with
  | some j =>
    if j.waits || !s.blkOn 7 then s
    else
      let s := (palBeats s n j.left).setBit (SCENE_PAL_LOAD n) SCENE_PAL_LOAD_go false
      s.setHead n { s.head n with palJob := none }
  | none => s

/-! ## Gamma tables and scaler coefficients -/

/-- The old value of an array entry kept for the line in progress. -/
def keepArr (s : State) (n k : Nat) : State :=
  let h := s.head n
  if s.lineOpen n && (h.arrOld.lookup k).isNone then s.setHead n { h with arrOld := (k, s.arrAt k) :: h.arrOld } else s

/-- The gamma entry that GAMMA_INDEX selects. -/
def State.gammaSel (s : State) (n : Nat) : Nat :=
  gammaKey n (s.fld (SCENE_GAMMA_INDEX n) SCENE_GAMMA_INDEX_channel) (s.fld (SCENE_GAMMA_INDEX n) SCENE_GAMMA_INDEX_entry)

/-- An access to GAMMA_DATA advances the index when autoinc is 1: the entry, then the channel, from the last of blue to the first of red (DESIGN CHOICE: R133
says only that it advances; assumption 106). -/
def gammaAdvance (s : State) (n : Nat) : State :=
  let r := SCENE_GAMMA_INDEX n
  if s.bit r SCENE_GAMMA_INDEX_autoinc then
    let i := (s.fld r SCENE_GAMMA_INDEX_channel * 1024 + s.fld r SCENE_GAMMA_INDEX_entry + 1) % 3072
    (s.setFld r SCENE_GAMMA_INDEX_channel (i / 1024)).setFld r SCENE_GAMMA_INDEX_entry (i % 1024)
  else s

/-- A write of GAMMA_DATA (R133, R135). -/
def gammaWrite (s : State) (n : Nat) (w : Word) : State :=
  markAll (gammaAdvance ((keepArr s n (s.gammaSel n)).setArr (s.gammaSel n) (getF w SCENE_GAMMA_DATA_value)) n) n

/-- A read of GAMMA_DATA. -/
def gammaRead (s : State) (n : Nat) : State × Word := (gammaAdvance s n, BitVec.ofNat 32 (s.arrAt (s.gammaSel n)))

/-- The array key of the even tap that VID_COEF_INDEX selects, when a pipe serves the slot. -/
def State.coefSel (s : State) (n : Nat) : Option Nat :=
  let r := SCENE_VID_COEF_INDEX n
  (s.videoAccess n (s.fld r SCENE_VID_COEF_INDEX_layer)).map fun p =>
    coefKey p (s.bit r SCENE_VID_COEF_INDEX_vert) (s.fld r SCENE_VID_COEF_INDEX_phase) (2 * s.fld r SCENE_VID_COEF_INDEX_pair)

/-- An access to VID_COEF_DATA advances the index when autoinc is 1: pair, then phase, then direction, then layer, and from the last to the first (DESIGN
CHOICE: R131 says only that it advances; assumption 106). -/
def coefAdvance (s : State) (n : Nat) : State :=
  let r := SCENE_VID_COEF_INDEX n
  if s.bit r SCENE_VID_COEF_INDEX_autoinc then
    let vert := s.fld r SCENE_VID_COEF_INDEX_vert
    let pairs := if vert == 1 then 3 else 4
    let pair := s.fld r SCENE_VID_COEF_INDEX_pair + 1
    let phase := s.fld r SCENE_VID_COEF_INDEX_phase + pair / pairs
    let dir := vert + phase / 64
    let layer := s.fld r SCENE_VID_COEF_INDEX_layer + dir / 2
    (((s.setFld r SCENE_VID_COEF_INDEX_pair (pair % pairs)).setFld r SCENE_VID_COEF_INDEX_phase phase).setFld
      r SCENE_VID_COEF_INDEX_vert dir).setFld r SCENE_VID_COEF_INDEX_layer layer
  else s

/-- A write of VID_COEF_DATA (R131): the tap pair; a slot without a pipe ignores it (R139). -/
def coefWrite (s : State) (n : Nat) (w : Word) : State :=
  let s' := match s.coefSel n with
    | some k => ((keepArr (keepArr s n k) n (k + 1)).setArr k (getF w SCENE_VID_COEF_DATA_even)).setArr (k + 1) (getF w SCENE_VID_COEF_DATA_odd)
    | none => s
  markAll (coefAdvance s' n) n

/-- A read of VID_COEF_DATA. -/
def coefRead (s : State) (n : Nat) : State × Word :=
  (coefAdvance s n, match s.coefSel n with
    | some k => BitVec.ofNat 32 (s.arrAt k + s.arrAt (k + 1) * 0x10000)
    | none => 0)

/-- A write of VID_COEF_INDEX: pair 3 is a reserved encoding when vert is 1 (R10). -/
def coefIndexWrite (s : State) (n : Nat) (w : Word) : State :=
  let bad := bitOf w SCENE_VID_COEF_INDEX_vert && getF w SCENE_VID_COEF_INDEX_pair == 3
  let w := if bad then setF w SCENE_VID_COEF_INDEX_pair (s.fld (SCENE_VID_COEF_INDEX n) SCENE_VID_COEF_INDEX_pair) else w
  markAll (s.writeCodes (SCENE_VID_COEF_INDEX n) w) n

/-! ## Video bases (R136) -/

/-- A write of Y_BASE (`c` false) or C_BASE of video layer `v`: held until the next frame boundary. -/
def videoBaseWrite (s : State) (n v : Nat) (c : Bool) (w : Word) : State :=
  match s.videoAccess n v with
  | none => s
  | some p =>
    let r := videoHome (if c then SCENE_VID_C_BASE else SCENE_VID_Y_BASE) p
    let s := markVideo s n v
    let s := (s.writeCodes r w).setBit (videoHome SCENE_VID_CTRL p) SCENE_VID_CTRL_flip_pending true
    { s with vidHeld := smSet (fun _ => 0) s.vidHeld (2 * p + cond c 1 0) (s.reg r) }

/-- The held bases of the video layers of head `n` change together at its frame boundary. -/
def videoFlip (s : State) (n : Nat) : State :=
  (List.range 2).foldl (fun s v =>
    match s.videoPipe n v with
    | none => s
    | some p =>
      let y := s.reg (videoHome SCENE_VID_Y_BASE p)
      let c := s.reg (videoHome SCENE_VID_C_BASE p)
      let s := { s with vidBase := smSet (fun _ => 0) (smSet (fun _ => 0) s.vidBase (2 * p) y) (2 * p + 1) c,
                        vidHeld := smErase (smErase s.vidHeld (2 * p)) (2 * p + 1) }
      s.setBit (videoHome SCENE_VID_CTRL p) SCENE_VID_CTRL_flip_pending false) s

/-! ## Pipes (R139) -/

/-- The source number of a pipe in the head that it serves. -/
def State.pipeSrc (s : State) (p : Nat) : Nat := if p < 32 then p % 8 else 9 + s.videoSlot p

/-- The bands in which a source of a head is enabled, as a set. -/
def State.srcBands (s : State) (n src : Nat) : Nat :=
  if s.srcEnabled n src then
    (List.range (s.nBands n)).foldl (fun m b =>
      if (s.srcLines n src).any (fun r => r.1 ≤ 16 * b + 15 && 16 * b ≤ r.2 && r.1 ≤ r.2) then m ||| 2 ^ b else m) 0
  else 0

/-- Pipe `p` leaves the head that it serves: that head's bands are marked, and remembered for the head it joins. -/
def pipeLeave (s : State) (p : Nat) : State :=
  let n := s.fld (SCENE_ASSIGN p) SCENE_ASSIGN_cur_head
  let set := s.srcBands n (s.pipeSrc p)
  let s := (markSet s n set).setBit (SCENE_ASSIGN p) SCENE_ASSIGN_present false
  let s := { s with pipeBands := smSet (fun _ => 0) s.pipeBands p set }
  if s.bit (SCENE_ASSIGN p) SCENE_ASSIGN_park then s.setBit (SCENE_ASSIGN p) SCENE_ASSIGN_pending false else s

/-- Whether the slot that a pipe is to take is free. -/
def State.slotFree (s : State) (p : Nat) : Bool :=
  let n := s.fld (SCENE_ASSIGN p) SCENE_ASSIGN_head
  if p < 32 then (s.tilePipe n (p % 8)).isNone else (s.videoPipe n (s.fld (SCENE_ASSIGN p) SCENE_ASSIGN_slot)).isNone

/-- Pipe `p` joins its destination: the bands it was enabled in are marked there. -/
def pipeJoin (s : State) (p : Nat) : State :=
  let n := s.fld (SCENE_ASSIGN p) SCENE_ASSIGN_head
  let s := ((s.setFld (SCENE_ASSIGN p) SCENE_ASSIGN_cur_head n).setBit (SCENE_ASSIGN p) SCENE_ASSIGN_present true).setBit
    (SCENE_ASSIGN p) SCENE_ASSIGN_pending false
  let s := if p < 32 then s else
    { s with vslot := smSet (fun p => p % 2) s.vslot p (s.fld (SCENE_ASSIGN p) SCENE_ASSIGN_slot) }
  markSet s n (smGet (fun _ => 0) s.pipeBands p)

/-- Whether a pipe waits to leave, or to join. -/
def State.wantsLeave (s : State) (p : Nat) : Bool :=
  s.bit (SCENE_ASSIGN p) SCENE_ASSIGN_pending && s.bit (SCENE_ASSIGN p) SCENE_ASSIGN_present
def State.wantsJoin (s : State) (p : Nat) : Bool :=
  s.bit (SCENE_ASSIGN p) SCENE_ASSIGN_pending && !s.bit (SCENE_ASSIGN p) SCENE_ASSIGN_present &&
    !s.bit (SCENE_ASSIGN p) SCENE_ASSIGN_park && s.slotFree p

/-- Whether a field of a pipe's assignment names a head that is OFF. -/
def State.pipeOff (s : State) (p : Nat) (f : Fld) : Bool := s.blkState (blkHead (s.fld (SCENE_ASSIGN p) f)) == 0

/-- Pipes leave at once the heads that are OFF, and those that wait for a free slot of an OFF head join it at once (R139). -/
def pipesNow (s : State) : State :=
  let s := (List.range 40).foldl (fun s p => if s.wantsLeave p && s.pipeOff p SCENE_ASSIGN_cur_head then pipeLeave s p else s) s
  (List.range 40).foldl (fun s p => if s.wantsJoin p && s.pipeOff p SCENE_ASSIGN_head then pipeJoin s p else s) s

/-- A write of SCENE_ASSIGN_p starts the move of pipe `p` (R139); a write that names the place it holds cancels a move not yet begun. -/
def pipeAssign (s : State) (p : Nat) (w : Word) : State :=
  let s := s.writeCodes (SCENE_ASSIGN p) w
  let r := SCENE_ASSIGN p
  let stays := s.bit r SCENE_ASSIGN_present && !s.bit r SCENE_ASSIGN_park && s.fld r SCENE_ASSIGN_head == s.fld r SCENE_ASSIGN_cur_head &&
    (p < 32 || s.fld r SCENE_ASSIGN_slot == s.videoSlot p)
  let parked := !s.bit r SCENE_ASSIGN_present && s.bit r SCENE_ASSIGN_park
  pipesNow (s.setBit r SCENE_ASSIGN_pending (!stays && !parked))

/-- The pipes move at the frame boundary of head `n`: those that had left before join, then those that are to leave it leave. -/
def pipeBoundary (s : State) (n : Nat) : State :=
  let s := (List.range 40).foldl (fun s p =>
    if s.wantsJoin p && s.fld (SCENE_ASSIGN p) SCENE_ASSIGN_head == n then pipeJoin s p else s) s
  pipesNow ((List.range 40).foldl (fun s p =>
    if s.wantsLeave p && s.fld (SCENE_ASSIGN p) SCENE_ASSIGN_cur_head == n then pipeLeave s p else s) s)

/-! ## A write by an initiator to the SCENE block -/

/-- A register write to the SCENE block, by the way each register takes it (R93, R94, R98, R135, R136, R139). -/
def sceneWrite (s : State) (a : Nat) (w : Word) : State :=
  let (n, off) := scenePage a
  if 0x40104000 ≤ a then if a < 0x40104000 + 4 * 40 then pipeAssign s ((a - 0x40104000) / 4) w else s
  else if off == 0 then updateHold s n (bitOf w SCENE_UPDATE_hold)
  else if off == 0x34 then palDataWrite s n w
  else if off == 0x38 then palLoadWrite s n w
  else if off == 0x488 then gammaWrite s n w
  else if off == 0x600 then coefIndexWrite s n w
  else if off == 0x604 then coefWrite s n w
  else if 0x500 ≤ off ∧ off < 0x580 ∧ (off % 0x40 = 4 ∨ off % 0x40 = 8) then videoBaseWrite s n ((off - 0x500) / 0x40) (off % 0x40 == 8) w
  else if heldOffset off then sceneKiln s n a w
  else if off == 0x480 then markSceneReg (pixelWrite s n a (((s.setReg a (s.pixReg n a)).writeCodes a w).reg a)) n off
  else if off == 0x484 then markSceneReg (s.writeCodes a w) n off
  else s.writeCodes a w

/-- A register read of the SCENE block: the state after it and the word. -/
def sceneReadReg (s : State) (a : Nat) : State × Word :=
  let (n, off) := scenePage a
  if a < 0x40104000 ∧ off = 0x34 then palDataRead s n
  else if a < 0x40104000 ∧ off = 0x488 then gammaRead s n
  else if a < 0x40104000 ∧ off = 0x604 then coefRead s n
  else
    match s.sceneHome a with
    | none => (s, 0)
    | some home =>
      let bad := if 0x500 ≤ off ∧ off < 0x580 ∧ off % 0x40 = 0 ∧ a < 0x40104000 then
        match s.videoAccess n ((off - 0x500) / 0x40) with
        | some p => s.setBit home SCENE_VID_CTRL_bad_cfg (s.videoBadCfg p)
        | none => s else s
      let now := if off = 0x440 ∨ off = 0x480 then bad.setReg home (bad.pixReg n home) else bad
      (bad.readClears home, now.readCodes home)

/-! ## Sprites -/

/-- The pixel budget of a line whose period is `t` scene cycles (R84, R85). -/
def pixelBudget (t : Nat) : Nat := if t < 3072 then 4 * (t - 1024) else 8192

/-- The sprites accepted so far on a line, their span pixels, the descriptor that ended the scan with the limits it broke, the descriptors read, and those
skipped. -/
structure Accepted where
  list : List Sprite
  pixels : Nat
  drop : Option (Nat × Bool × Bool)
  reads : List (Nat × Nat)
  skipped : List Nat

/-- The scan of descriptors from `d` on for line `l` (R83, R84): the first sprite past a limit ends it. -/
def sprScan (s : State) (n : Nat) (l : Int) (width budget : Nat) : Nat → Nat → Accepted → Accepted
  | 0, _, acc => acc
  | fuel + 1, d, acc =>
    let k := s.sprKey n d
    let y := signed 14 k.y
    let next := fun (acc : Accepted) => if k.last then acc else sprScan s n l width budget fuel (d + 1) acc
    if !k.enable || l < y || y + k.lines ≤ l then next acc
    else
      let r := spriteDesc s n d
      let acc := { acc with reads := acc.reads ++ r.reads }
      match r.val with
      | none => next acc
      | some spr =>
        if spr.badFormat then next { acc with skipped := acc.skipped ++ [d] }
        else
          let span := spr.span width
          let many := 256 ≤ acc.list.length
          let pix := budget < acc.pixels + span
          if many || pix then { acc with drop := some (d, many, pix) }
          else next { acc with list := acc.list ++ [spr], pixels := acc.pixels + span }

/-- What the evaluation of line `l` of head `n` gives (R83 to R85). -/
def State.sprAccept (s : State) (n : Nat) (l : Int) : Accepted :=
  sprScan s n l (s.width n) (pixelBudget (s.head n).lineT) (s.head n).sprCount 0 ⟨[], 0, none, [], []⟩

/-- The record of the first sprite omitted from line `l` (R84). -/
def sprDrop (s : State) (n l : Nat) : Option (Nat × Bool × Bool) → State
  | none => s
  | some (d, many, pix) =>
    let r := SCENE_SPR_STAT n
    let s := if many then s.setBit r SCENE_SPR_STAT_cnt_ovf true else s
    let s := if pix then s.setBit r SCENE_SPR_STAT_pix_ovf true else s
    (s.setFld r SCENE_SPR_STAT_first_drop d).setFld r SCENE_SPR_STAT_ovf_line l

/-- Whether line `l` of head `n` has been evaluated. -/
def State.evaluated (s : State) (n l : Nat) : Bool := (s.head n).evals.any (·.line == l)

/-- Line `l` of head `n` evaluated (R83 to R85), and, where the mosaic of the sprite plane takes its pixels from another line, that line for it (R124): the
descriptors read are kept until the line is composed (R87). Failed reads and skipped descriptors are counted once. -/
def evalSprites (s : State) (n l : Nat) : State :=
  if s.evaluated n l || !s.bit (SCENE_SPR_CTRL n) SCENE_SPR_CTRL_enable then s
  else
    let r := s.sprAccept n l
    let y := (mosaicPos s.reg n 8 0 l).2
    let p := if y == (l : Int) then none else some (y, s.sprAccept n y)
    let reads := match p with | some (_, q) => q.reads | none => []
    let skipped := match p with | some (_, q) => q.skipped | none => []
    let s := (countReads s n (r.reads ++ reads)).countBy (SCENE_FAULT n) SCENE_FAULT_fmt_bad (r.skipped ++ skipped).eraseDups.length
    let s := sprDrop s n l r.drop
    let peak := SCENE_SPR_PEAK n
    let s := (s.setFld peak SCENE_SPR_PEAK_max_count (max (s.fld peak SCENE_SPR_PEAK_max_count) r.list.length)).setFld
      peak SCENE_SPR_PEAK_max_pixels (max (s.fld peak SCENE_SPR_PEAK_max_pixels) r.pixels)
    let h := s.head n
    s.setHead n { h with evals := h.evals ++ [⟨l, r.list, p.map (fun e => (e.1, e.2.list))⟩] }

/-- One key read again from the table at a frame boundary; a failed read gives a disabled key (R88, R99). -/
def reloadKey (s : State) (n d : Nat) : State :=
  let r := sceneRead s n ((s.head n).sprBase + 16 * d) 16
  let v := leOf r.data
  let key := if r.err || r.poison then sprKeyNone d else sprKeyOf (bitsN v 31 0) (bitsN v 63 32) (bitsN v 95 64) (bitsN v 127 96)
  let h := r.s.head n
  r.s.setHead n { h with keys := smSet sprKeyNone h.keys d key }

/-- The sprite table takes effect at a frame boundary, and the keys are reloaded when SPR_TABLE or SPR_CTRL.count was written or reload asks for it (R88). -/
def spriteBoundary (s : State) (n : Nat) : State :=
  let h := s.head n
  let base := (s.reg (SCENE_SPR_TABLE n)).toNat
  let count := s.fld (SCENE_SPR_CTRL n) SCENE_SPR_CTRL_count
  if !h.sprDirty && !s.bit (SCENE_SPR_CTRL n) SCENE_SPR_CTRL_reload then s
  else
    let s := s.setHead n { h with sprBase := base, sprCount := count, keys := [], sprDirty := false }
    let s := (List.range count).foldl (fun s d => reloadKey s n d) s
    markAll (s.setBit (SCENE_SPR_CTRL n) SCENE_SPR_CTRL_reload false) n

/-! ## A line -/

/-- The sprites accepted for line `l`, as they were read at its evaluation (R83, R87). -/
def State.lineSprites (s : State) (n l : Nat) : List Sprite := (((s.head n).evals.find? (·.line == l)).map (·.list)).getD []

/-- The sprites whose pixels the sprite plane shows on line `l`: those accepted for the line that its mosaic takes it from (R124), as they were read at the
evaluation of line `l`. Where a beam list has moved the mosaic's blocks since, that line is evaluated with line `l` (R87; assumption 105). -/
def State.planeLook (s : State) (n l : Nat) : Look (List Sprite) :=
  let y := (mosaicPos (s.useReg n) n 8 0 l).2
  if y == (l : Int) || !s.useBit n (SCENE_SPR_CTRL n) SCENE_SPR_CTRL_enable then Look.pure (s.lineSprites n l)
  else
    match ((s.head n).evals.find? (·.line == l)).bind (·.plane) with
    | some (y', ds) => if y' == y then Look.pure ds else let a := s.sprAccept n y; ⟨some a.list, a.reads, [], []⟩
    | none => let a := s.sprAccept n y; ⟨some a.list, a.reads, [], []⟩

/-- The classes that meet at each of the first `k` columns of line `l` (R89). -/
def lineClasses (s : State) (n l k : Nat) : List (Look Nat) :=
  (List.range (min k (s.width n))).map (fun x => collClasses s (s.otcHeld n l) n (s.lineSprites n l) x l)

/-- Some looks made together. -/
def Look.all {α : Type} (ls : List (Look α)) : Look (List α) :=
  ⟨some (ls.filterMap (·.val)), (ls.map (·.reads)).flatten, (ls.map (·.bad)).flatten, (ls.map (·.otc)).flatten⟩

/-- The classes met on line `l` joined to the working hit rows (R89, R90). -/
def joinHits (s : State) (n l : Nat) (sets : List Nat) : State :=
  let h := s.head n
  let hits := sets.foldl (fun hits set => collide s n set hits) h.hits
  s.setHead n { h with hits := hits, hitLine := if h.hitLine.isNone && !hits.isEmpty then some l else h.hitLine }

/-- The collision of the whole line `l`, fetched for it alone (R91). -/
def collideLine (s : State) (n l : Nat) : State :=
  let r := Look.all (lineClasses s n l (s.width n))
  joinHits (fetched s n l r) n l (r.val.getD [])

/-- The bytes of line `l` whose first pixels have the colours `px`: those through the post-blend chain, then the fill (R156). -/
def rowBytes (s : State) (n l : Nat) (px : List Rgb) : List Byte :=
  let out := (List.zip (List.range (s.width n)) px).map (fun e => postBlend s n e.1 l e.2)
  let fill := (List.range (s.width n - px.length)).map (fun i => fillPixel s n (px.length + i) l)
  packRow s n (out ++ fill)

/-- The first `k` pixels of line `l` composed, with the palettes they took (R120). -/
def pixelLooks (s : State) (n l k : Nat) : Look (List (Rgb × List Nat)) :=
  (s.planeLook n l).bind fun ds => Look.all ((List.range (min k (s.width n))).map (fun x => composeRgb s (s.otcHeld n l) n ds x l))

/-- Line `l` of head `n` composed up to pixel `k`: its bytes, the fill after those pixels (R156), and the state with its reads made, its bad blocks counted, the
collision of those pixels joined and its band's palettes recorded (R89, R96, R99). -/
def composePixels (s : State) (n l k : Nat) : State × List Byte :=
  let pixels := pixelLooks s n l k
  let px := pixels.val.getD []
  let bytes := rowBytes s n l (px.map (·.1))
  let classes := Look.all (lineClasses s n l k)
  let s := joinHits (fetched s n l (pixels.after classes)) n l (classes.val.getD [])
  let h := s.head n
  let old := if l % 16 == 0 then 0 else smGet (fun _ => 0) h.bandPal (l / 16)
  (s.setHead n { h with bandPal := smSet (fun _ => 0) h.bandPal (l / 16) ((px.map (·.2)).flatten.foldl (fun m p => m ||| 2 ^ p) old) }, bytes)

/-- The end of the last line (R90): the working rows copied and cleared, the summary set. The collision event is the summary's any bit. -/
def lastLine (s : State) (n : Nat) : State :=
  let h := s.head n
  let s := (List.range 16).foldl (fun s c => s.setFld (SCENE_COLL n c) SCENE_COLL_hits (smGet (fun _ => 0) h.hits c)) s
  let st := SCENE_COLL_STAT n
  let s := ((s.setBit st SCENE_COLL_STAT_any (!h.hits.isEmpty)).setFld st SCENE_COLL_STAT_first_line (h.hitLine.getD 0)).setBit
    st SCENE_COLL_STAT_partial (h.skipped && !s.bit (SCENE_SPR_CTRL n) SCENE_SPR_CTRL_coll_full)
  s.setHead n { s.head n with hits := [], hitLine := none, skipped := false, palJob := h.palJob.map (fun j => { j with waits := false }) }

end Sys2Proof.Machine
end

