-- ==== Sys2Proof/Machine/Heads.lean ====
section
/-! DEFINITION. The display heads: lanes and packets, the TE model and the race, pending and frame sets, the line store, underrun, flip
records (chapter 7), and the witness of each head (chapter 8). -/

namespace Sys2Proof.Machine

/-! ## Geometry and lanes -/

/-- Whether a head runs in command mode (the mode sampled at its start, R160). -/
def State.cmdMode (s : State) (n : Nat) : Bool := (s.head n).mode == 2

/-- The lines of a video frame, V (R157), or of a panel refresh (R145). -/
def State.vTotal (s : State) (n : Nat) : Nat :=
  if s.cmdMode n then s.fld (HEAD_VTOTAL n) HEAD_VTOTAL_vtotal
  else
    let v := HEAD_VID_V n
    s.fld v HEAD_VID_V_vsa + s.fld v HEAD_VID_V_vbp + s.height n + s.fld v HEAD_VID_V_vfp

/-- The number of data lanes. -/
def State.laneCount (s : State) (n : Nat) : Nat := 2 ^ (s.head n).lanes

/-- The bits of a pixel in a DSI format (Table 7-1). -/
def pixelBits (format : Nat) : Nat :=
  match format with
  | 0 => 16
  | 1 => 18
  | 4 => 30
  | _ => 24

/-- The bytes of a line of pixels. -/
def State.lineBytes (s : State) (n : Nat) : Nat := (s.width n * pixelBits (s.head n).format + 7) / 8

/-- hs_ns at a lane rate in Mbit/s: ⌈360 + 90 × UI⌉ (R142). -/
def hsNs (rate : Nat) : Nat := 360 + (90 * 1000 + rate - 1) / rate

/-- t_pkt × the lane rate, in ns × Mbit/s (R142). -/
def State.tPktRate (s : State) (n : Nat) : Nat :=
  (s.lineBytes n + 1 + 6 + s.laneCount n - 1) / s.laneCount n * 8000 + s.fld (HEAD_DPHY n) HEAD_DPHY_hs_ns * (s.head n).rate

/-- The head's model period P in timebase units. -/
def State.period (s : State) (n : Nat) : Nat := s.fld (HEAD_BEAM n) HEAD_BEAM_period

/-- The modelled scan at time `t`, in units of T_p / P lines, so that a refresh is V × P of them (R145). The model's phase may lie after `t`. -/
def State.scanAt (s : State) (n t : Nat) : Nat :=
  let p := s.period n
  let v := s.vTotal n
  (((s.fld (HEAD_VTOTAL n) HEAD_VTOTAL_te_line * p : Nat) + ((t : Int) - (s.head n).tTE) * v) % (v * p : Nat)).toNat

/-- The time from `t0`, in timebase units, at which the modelled scan first reaches line `target` (R145). -/
def State.scanReaches (s : State) (n t0 target : Nat) : Nat :=
  let p := s.period n
  let v := s.vTotal n
  let delta := (target * p + v * p - s.scanAt n t0) % (v * p)
  if v == 0 then t0 else t0 + (delta + v - 1) / v

/-- Whether the geometry of a head is set: none of the values that R157 names is 0. -/
def State.geomOk (s : State) (n : Nat) : Bool :=
  s.width n != 0 && s.height n != 0 &&
    (if s.cmdMode n then s.vTotal n != 0 else s.fld (HEAD_VID_H n) HEAD_VID_H_htotal != 0)

/-- The composition line period T in ns (R149, R157). -/
def State.linePeriod (s : State) (n : Nat) : Nat :=
  if s.cmdMode n then 4 * s.period n / max 1 (s.vTotal n)
  else s.fld (HEAD_VID_H n) HEAD_VID_H_htotal * 8000 / max 1 (s.head n).rate

/-- The first active line of a video frame, counted from its first sync line (R157). -/
def State.videoTop (s : State) (n : Nat) : Nat := s.fld (HEAD_VID_V n) HEAD_VID_V_vsa + s.fld (HEAD_VID_V n) HEAD_VID_V_vbp

/-- The preroll p. -/
def State.preroll (s : State) (n : Nat) : Nat := s.fld (HEAD_RACE n) HEAD_RACE_preroll

/-- The line of a video frame, counted from its first sync line, at whose start the next frame boundary lies (R157): p lines before the first active line, or
as the head reaches ON when fewer lines than that come before the first active line of its first frame. -/
def State.boundaryLine (s : State) (n : Nat) : Nat :=
  let top := s.videoTop n
  let p := s.preroll n
  if !(s.head n).inFrame && top < p then 0 else (((top : Int) - p) % (s.vTotal n : Nat)).toNat

/-! ## The race (R150, R151) -/

/-- Whether lead is permitted with margin `m`. -/
def State.leadOk (s : State) (n m : Nat) : Bool :=
  let tp := 4 * s.period n * (s.head n).rate
  let tk := s.tPktRate n * s.vTotal n
  let l := s.fld (HEAD_RACE n) HEAD_RACE_lead
  tk ≤ tp && m ≤ l && tk ≤ (l - m) * tp

/-- Whether chase is permitted with margin `m`. -/
def State.chaseOk (s : State) (n m : Nat) : Bool :=
  let tp := 4 * s.period n * (s.head n).rate
  let tk := s.tPktRate n * s.vTotal n
  2 * m ≤ s.vTotal n && (s.height n - 1) * (max tp tk - tp) + tk ≤ (s.vTotal n - 2 * m) * tp

/-- A race: chase or lead, the margin, whether it is permitted, and whether lead was asked for and refused. -/
structure Race where
  chase : Bool
  marg : Nat
  ok : Bool
  refused : Bool
deriving DecidableEq, Repr

/-- The race of a frame whose boundary came now (R151). Lead is judged with the margin m of the register, also while the model is not locked and the race is in
chase for that. -/
def State.raceNow (s : State) (n : Nat) : Race :=
  let m := s.fld (HEAD_RACE n) HEAD_RACE_margin
  let locked := s.bit (HEAD_BEAM n) HEAD_BEAM_locked
  let marg := if locked then m else 2 * m
  let lead := s.fld (HEAD_CTRL n) HEAD_CTRL_race == 0
  let refused := lead && !s.leadOk n m
  let chase := !lead || !locked || refused
  ⟨chase, marg, if chase then s.chaseOk n marg else true, refused⟩

/-- The line at which the modelled scan stands at the next frame boundary (Table 7-3). -/
def State.boundaryScan (s : State) (n : Nat) : Nat :=
  let v := max 1 (s.vTotal n)
  let r := s.raceNow n
  if r.chase then (((r.marg : Int) - s.preroll n) % (v : Nat)).toNat
  else ((-((s.fld (HEAD_RACE n) HEAD_RACE_lead + s.preroll n : Nat) : Int)) % (v : Nat)).toNat

/-- The time of the next frame boundary in timebase units: in command mode as the modelled scan reaches its line; in video mode a frame after the last one, or,
before the first, as many lines after the head's first line as R157 gives. -/
def State.nextBoundary (s : State) (n : Nat) : Nat :=
  let h := s.head n
  if s.cmdMode n then s.scanReaches n s.tb (s.boundaryScan n)
  else if h.inFrame then h.fbTime + s.vTotal n * h.lineT / 4
  else h.fbTime + (s.videoTop n - s.preroll n) * s.linePeriod n / 4

/-! ## The frame set -/

/-- Whether line `y` lies in the frame set (R152): every line of a video frame does. -/
def State.inFset (s : State) (n y : Nat) : Bool := y < s.height n && (!s.cmdMode n || (s.head n).fset.testBit (y / 16))

/-- Whether line `y` is one that the frame in progress pushes (R151, R152, R154). -/
def State.inSet (s : State) (n y : Nat) : Bool := (s.head n).pushOk && s.inFset n y

/-- The next line that the frame pushes, from `y` on. -/
def State.nextLine (s : State) (n y : Nat) : Option Nat := (List.range (s.height n)).find? (fun l => y ≤ l && s.inSet n l)

/-- The number that HEAD_n_FRAME now shows. -/
def State.frame (s : State) (n : Nat) : Nat := (s.reg (HEAD_FRAME n)).toNat

/-- Whether line `y` of the frame in progress has not been sent. A video frame's lines are sent from its first active line on, which may lie well after its
boundary. -/
def State.unsent (s : State) (n y : Nat) : Bool := (s.head n).sendFrame != s.frame n || (s.head n).sendNext ≤ y

/-- The bands with a line of the frame set not yet sent, as a set. -/
def State.unsentBands (s : State) (n : Nat) : Nat :=
  (List.range (s.height n)).foldl (fun m l => if s.unsent n l && s.inFset n l then m ||| 2 ^ (l / 16) else m) 0

/-- Whether head `n` has a line yet to compose. -/
def State.composes (s : State) (n : Nat) : Bool :=
  (s.head n).inFrame && (List.range (s.height n)).any (fun l => (s.head n).line ≤ l && s.unsent n l && s.inSet n l)

/-- Whether a frame boundary can come to a head: its geometry is set, and in command mode its model is seeded (R147, R157, R160). -/
def State.hasFrames (s : State) (n : Nat) : Bool := s.geomOk n && (!s.cmdMode n || s.bit (HEAD_BEAM n) HEAD_BEAM_seeded)

/-- The head's latency tolerance in ns by R155: without end where no frame boundary can come. -/
def State.headTolerance (s : State) (n : Nat) : Nat :=
  let h := s.head n
  let v := s.vTotal n
  let cap := fun t => min t 0xFFFFFE
  let lines := fun k => if s.cmdMode n then 4 * k * s.period n / max 1 v else k * h.lineT
  let line := fun y => if h.chase then y + h.marg else (y + v - s.fld (HEAD_RACE n) HEAD_RACE_lead % max 1 v) % max 1 v
  if s.blkState (blkHead n) == 0 then 0xFFFFFF
  else if s.composes n && h.slots.length < 48 then s.fld (HEAD_ACTIVE_TOL n) HEAD_ACTIVE_TOL_ns
  else
    match h.slots.head? with
    | some l =>
      let g := if s.cmdMode n then max s.tb (s.scanReaches n h.fbTime (line l.line)) else s.tb
      cap ((g - s.tb) * 4 + lines h.slots.length)
    | none => if !s.hasFrames n then 0xFFFFFE else cap (4 * (s.nextBoundary n - s.tb))

/-- The head states its tolerance anew (R155). -/
def restate (s : State) (n : Nat) : State := stateTolerance s n (s.headTolerance n)

/-! ## The TE model (R145 to R148) -/

/-- The model may be torn: every band pushed in this frame and the last is marked, and the next frame is full (R148). -/
def raceSuspect (s : State) (n : Nat) : State :=
  let h := s.head n
  let s := (s.setBit (HEAD_STAT n) HEAD_STAT_race_suspect true).setHead n { h with forceFull := true, suspect := s.frame n :: h.suspect }
  markSet s n (h.pushed ||| h.pushedPrev)

/-- A signed value saturated to 16 bits. -/
def sat16 (e : Int) : Nat := wrapTo 16 (clampI (-32768) 32767 e)

/-- A TE sample at time `t` updates the model (R146). -/
def teSample (s : State) (n t : Nat) : State :=
  let s := s.setHead n { s.head n with teSkip := false }
  let h := s.head n
  let r := HEAD_BEAM n
  let seeded := s.bit r HEAD_BEAM_seeded
  let p : Int := s.period n
  let v := s.fld (HEAD_VTOTAL n) HEAD_VTOTAL_vtotal
  let i : Int := (t : Int) - (h.tLast.getD t : Nat)
  let s' :=
    if !seeded then
      if h.tLast.isSome && 500000 ≤ i && i ≤ 25000000 then
        (((s.setFld r HEAD_BEAM_period i.toNat).setBit r HEAD_BEAM_seeded true).setBit r HEAD_BEAM_lost false).setHead n
          { h with tTE := t, missed := 0, tLast := some t }
      else s.setHead n { h with missed := 0, tLast := some t }
    else if (i - p).natAbs ≤ p.toNat / 16 then
      let e := (t : Int) - ((h.tTE : Int) + p)
      let s := s.setFld (HEAD_BEAM_ERR n) HEAD_BEAM_ERR_err (sat16 e)
      let s := if s.bit r HEAD_BEAM_locked && s.fld (HEAD_RACE n) HEAD_RACE_margin * p.toNat < e.natAbs * 2 * v then raceSuspect s n else s
      let h := s.head n
      let p' := p + (i - p).tdiv (2 ^ s.fld (HEAD_RACE n) HEAD_RACE_gain : Nat)
      let locks := 4 ≤ h.accepted + 1
      let newly := locks && !s.bit r HEAD_BEAM_locked
      ((s.setFld r HEAD_BEAM_period p'.toNat).setBit r HEAD_BEAM_locked (s.bit r HEAD_BEAM_locked || locks)).setHead n
        { h with tTE := t, rejects := 0, accepted := h.accepted + 1, missed := 0, tLast := some t, firstLock := h.firstLock || newly }
    else
      let s := s.count (HEAD_CNT n) HEAD_CNT_te_reject
      if h.rejects + 1 == 4 then
        ((s.setFld r HEAD_BEAM_period i.toNat).setBit r HEAD_BEAM_locked false).setHead n
          { h with tTE := t, accepted := 0, rejects := 0, missed := 0, tLast := some t }
      else s.setHead n { h with rejects := h.rejects + 1, missed := 0, tLast := some t }
  s'

/-- The unsent lines of a command-mode frame that ends: their bands return to the pending set (R152). -/
def returnUnsent (s : State) (n : Nat) : State := if s.cmdMode n && (s.head n).inFrame then markSet s n (s.unsentBands n) else s

/-- STAT.cfg_bad shows a race that is not permitted, or a geometry that R157 calls bad, while the head is ON. -/
def cfgCheck (s : State) (n : Nat) : State :=
  s.setBit (HEAD_STAT n) HEAD_STAT_cfg_bad (s.blkState (blkHead n) == 2 && ((s.head n).raceBad || !s.geomOk n))

/-- The race of the frame that opens is taken (R151). -/
def raceCheck (s : State) (n : Nat) : State :=
  let r := s.raceNow n
  let s := if r.refused then s.setBit (HEAD_STAT n) HEAD_STAT_lead_refused true else s
  cfgCheck (s.setHead n { s.head n with chase := r.chase, marg := r.marg, pushOk := r.ok, raceBad := !r.ok }) n

/-! ## Flip records (R159) -/

/-- Whether a record of frame `f` may still be asked for by the digest of that frame. -/
def HeadSt.awaits (h : HeadSt) (f : Nat) : Bool := h.rows.any (fun r => r.frame == f)

/-- The flip record of a frame taken from the last line it has sent. -/
def commitFlip (s : State) (n : Nat) : State :=
  let h := s.head n
  match h.lastRow with
  | none => s
  | some (f, y, t) =>
    let seen := if s.cmdMode n then s.scanReaches n (s.scanReaches n t y) (y + 1) else t
    s.setHead n { h with flips := ⟨f, t, seen⟩ :: h.flips.filter (fun r => h.awaits r.frame), lastRow := none }

/-- The flip record of a head: that of the latest frame that sent a line. -/
def State.flip (s : State) (n : Nat) : FlipRec := (s.head n).flips.headD ⟨0, 0, 0⟩

/-- A read of SENT_LO latches the rest of the record (R159). -/
def flipRead (s : State) (n : Nat) : State × Word :=
  let r := s.flip n
  let w := fun v => BitVec.ofNat 32 v
  (((((s.setReg (HEAD_SENT_LO n) (w r.sent)).setReg (HEAD_SENT_HI n) (w (r.sent / 2 ^ 32))).setReg (HEAD_SEEN_LO n) (w r.seen)).setReg
    (HEAD_SEEN_HI n) (w (r.seen / 2 ^ 32))).setReg (HEAD_FLIP_FRAME n) (w r.frame), w r.sent)

/-! ## The witness (chapter 8) -/

/-- Whether the witness of a head is enabled. -/
def State.witOn (s : State) (n : Nat) : Bool := s.bit (HEAD_WIT_CTRL n) HEAD_WIT_CTRL_enable

/-- Whether the row table entry of a row is valid. -/
def State.rowOk (s : State) (n y : Nat) : Bool := smGet (fun _ => false) (s.head n).rowValid y

/-- Every row table entry invalid (R166). -/
def invalidateRows (s : State) (n : Nat) : State := s.setHead n { s.head n with rowValid := [] }

/-- Whether the rows of frame `f` are all checked. -/
def HeadSt.rowsChecked (h : HeadSt) (f : Nat) : Bool := (h.rows.filter (fun r => r.frame == f)).all (·.checked)

/-- The bands of 16 lines among some rows, as a set. -/
def bandSet (rows : List SentRow) : Nat := rows.foldl (fun m r => m ||| 2 ^ (r.row / 16)) 0

/-- Per band, the consecutive frames that pushed it and in which it failed; the eighth sets stuck (R167). -/
def countFailRuns (s : State) (n : Nat) (rows : List SentRow) : State :=
  let pushed := bandSet rows
  let failed := bandSet (rows.filter (·.failed))
  (List.range 135).foldl (fun s b =>
    if pushed.testBit b then
      let h := s.head n
      let run := if failed.testBit b then smGet (fun _ => 0) h.failRun b + 1 else 0
      let s := s.setHead n { h with failRun := smSet (fun _ => 0) h.failRun b run }
      if 8 ≤ run then s.setBit (HEAD_WIT_STAT n) HEAD_WIT_STAT_stuck true else s
    else s) s

/-- The digest of frame `f` falls due: the row table as it now stands, and what the ring entry will report (R169). -/
def frameWitnessed (s : State) (n f : Nat) : State :=
  let rows := (s.head n).rows.filter (fun r => r.frame == f)
  if rows.isEmpty then s
  else
    let s := countFailRuns s n rows
    let h := s.head n
    let flip := (h.flips.find? (fun r => r.frame == f)).getD ⟨f, 0, 0⟩
    let job : DigestJob :=
      { frame := f, table := (List.range (s.height n)).map (fun y => (s.reg (HEAD_WIT_ROW n y)).toNat),
        allValid := (List.range (s.height n)).all (s.rowOk n), rows := rows,
        full := (List.range (s.height n)).all (fun y => rows.any (fun r => r.row == y)),
        sent := flip.sent, seen := flip.seen, gap := false }
    s.setHead n { h with rows := h.rows.filter (fun r => r.frame != f), jobs := h.jobs ++ [job] }

/-- Whether frame `f` of head `n` has sent its last line: none of its lines is on the lanes, and it is over or has no line left to send. -/
def State.frameSent (s : State) (n f : Nat) : Bool :=
  let h := s.head n
  !h.pkt.any (fun p => p.frame == f) &&
    (h.sendFrame != f || (s.frame n != f && s.cmdMode n) || !h.inFrame ||
      (if s.frame n == f then (s.nextLine n h.sendNext).isNone else s.height n ≤ h.sendNext))

/-- The digest of frame `f` falls due once its last row has been checked (R168, R169). -/
def digestDue (s : State) (n f : Nat) : State :=
  if s.frameSent n f && (s.head n).rowsChecked f then frameWitnessed s n f else s

/-- The frame of a head is over (R152, R159, R168): its unsent bands return, and with no packet of it on the lanes its flip record is taken and its digest falls
due when its rows are checked. -/
def frameOver (s : State) (n : Nat) : State :=
  if !(s.head n).inFrame then s
  else
    let s := returnUnsent s n
    let h := s.head n
    if h.pkt.isSome then s
    else
      let s := commitFlip s n
      if h.rowsChecked (s.frame n) then frameWitnessed s n (s.frame n) else s

/-- A TE sample that did not come: the model advances by a synthetic edge, and after 16 periods it is lost, with which the frame is over (R147, R152). A period
whose sample the head gave up for a line packet is not counted as missing (R145). -/
def teMissing (s : State) (n : Nat) : State :=
  let h := s.head n
  let t := h.tTE + s.period n
  if !s.bit (HEAD_BEAM n) HEAD_BEAM_seeded then s
  else if h.teSkip then s.setHead n { h with tTE := t, tLast := some t, teSkip := false }
  else
    let s := (s.setBit (HEAD_STAT n) HEAD_STAT_te_missing true).count (HEAD_CNT n) HEAD_CNT_te_miss
    if h.missed + 1 < 16 then s.setHead n { h with tTE := t, tLast := some t, missed := h.missed + 1 }
    else
      let s := frameOver s n
      restate ((((s.setBit (HEAD_BEAM n) HEAD_BEAM_lost true).setBit (HEAD_BEAM n) HEAD_BEAM_locked false).setBit
        (HEAD_BEAM n) HEAD_BEAM_seeded false).setHead n { s.head n with tTE := t, tLast := some t, missed := 16, pushOk := false }) n

/-- The pixels in the payload of a line packet, without the DCS command byte of command mode (R162). -/
def State.payloadPixels (s : State) (n : Nat) (payload : List Byte) : List Byte := if s.cmdMode n then payload.drop 1 else payload

/-- Whether a row passes (R164): the receiver decodes the bytes of its burst as a packet with a good header ECC and checksum, and the CRC of the payload it
received is the head's. -/
def State.rowPasses (s : State) (n : Nat) (row : SentRow) (burst : List Byte) : Bool :=
  match decodeLong burst with
  | some payload => crc32c (s.payloadPixels n payload) == row.crc
  | none => false

/-- The oldest row not checked yet whose burst has ended. -/
def HeadSt.rowToCheck (h : HeadSt) : Option SentRow :=
  h.rows.find? (fun r => !r.checked && !h.pkt.any (fun p => p.frame == r.frame && p.line == r.row))

/-- The comparison of the oldest unchecked row ends with the bytes of its burst as the loopback receiver sensed them (R163 to R165). -/
def rowChecked (s : State) (n : Nat) (burst : List Byte) : State :=
  let h := s.head n
  match h.rowToCheck with
  | none => s
  | some row =>
    let pass := s.rowPasses n row burst
    let mark := fun r => if r == row then { r with checked := true, failed := !pass } else r
    let s := s.setHead n { h with rows := h.rows.map mark, rowValid := smSet (fun _ => false) h.rowValid row.row pass }
    let s := if pass then s.setReg (HEAD_WIT_ROW n row.row) (BitVec.ofNat 32 row.crc)
      else ((markBand s n (row.row / 16)).count (HEAD_WIT_CNT n) HEAD_WIT_CNT_mismatch).setBit (HEAD_WIT_STAT n) HEAD_WIT_STAT_mismatch true
    digestDue s n row.frame

/-- Word 15 of a ring entry: head, format, height, width (Table 8-2). -/
def State.witGeom (s : State) (n : Nat) : Nat := n * 2 ^ 27 + (s.head n).format * 2 ^ 24 + s.height n % 4096 * 4096 + s.width n % 4096

/-- The digest message (Table 8-1). -/
def digestMessage (geom : Nat) (table : List Nat) : List Byte :=
  [0x58, 0x57, 0x44, 0x31] ++ leBytes 4 geom ++ List.replicate 8 0 ++ table.flatMap (leBytes 4)

/-- Whether the entry of a job is citable (R170): race_suspect was not set in its frame (`suspect`). -/
def DigestJob.valid (j : DigestJob) (suspect : Bool) : Bool := j.allValid && !j.rows.any (·.failed) && !suspect

/-- A number cut to a word. -/
def low32 (n : Nat) : Nat := n % 2 ^ 32

/-- The 16 words of the ring entry of a job with sequence number `q`, completion time `tc` and log_gap `gap` (Table 8-2). -/
def ringEntry (s : State) (n : Nat) (j : DigestJob) (q tc : Nat) (gap : Bool) : List Nat :=
  let geom := s.witGeom n
  let suspect := (s.head n).suspect.contains j.frame
  let valid := j.valid suspect
  let digest := if valid then sha256 (digestMessage geom j.table) else List.replicate 32 0
  let b := fun (c : Bool) i => cond c (2 ^ i) 0
  let bad := (j.rows.filter (·.failed)).length
  let w14 := b suspect 30 + b gap 29 + b (!s.cmdMode n) 28 + b (j.rows.any (·.under)) 27 + b (j.rows.any (·.failed)) 26 +
    b j.full 25 + b valid 24 + bad * 4096 + j.rows.length
  (List.range 8).map (fun i => leOf ((digest.drop (4 * i)).take 4)) ++
    [low32 j.frame, low32 q, low32 j.sent, j.sent / 2 ^ 32, low32 tc, tc / 2 ^ 32, w14, geom]

/-- The log block of an entry (R174). -/
def logBlock (entry : List Nat) (rows : List SentRow) : List Byte :=
  let body := entry.flatMap (leBytes 4) ++
    rows.flatMap (fun r => leBytes 4 (r.row + cond r.failed 0x10000 0 + cond r.under 0x20000 0) ++ leBytes 4 r.crc)
  body ++ List.replicate ((64 - body.length % 64) % 64) 0

/-- A log block written at the write offset through the head's own wrapper, wrapping at the end of the buffer (R29, R174): the state, and whether a write
failed. -/
def writeLog (s : State) (n : Nat) (block : List Byte) : State × Bool :=
  let base := (s.reg (HEAD_WIT_LOG_BASE n)).toNat
  let size := s.fld (HEAD_WIT_LOG_SIZE n) HEAD_WIT_LOG_SIZE_size * 64
  let wr := (s.reg (HEAD_WIT_LOG_WR n)).toNat
  let first := min block.length (size - wr)
  if !s.blkOn (blkHead n) then (s, true)
  else
    let r1 := memWrite s (scenePort (base + wr)) (base + wr) (block.take first) []
    if r1.err then (r1.s, true)
    else
      let r2 := memWrite r1.s (scenePort base) base (block.drop first) []
      if r2.err then (r2.s, true)
      else (r2.s.setReg (HEAD_WIT_LOG_WR n) (BitVec.ofNat 32 ((wr + block.length) % size)), false)

/-- Whether the log has room for a block (R175). -/
def State.logRoom (s : State) (n len : Nat) : Bool :=
  let size := s.fld (HEAD_WIT_LOG_SIZE n) HEAD_WIT_LOG_SIZE_size * 64
  let rd := (s.reg (HEAD_WIT_LOG_RD n)).toNat
  let wr := (s.reg (HEAD_WIT_LOG_WR n)).toNat
  size != 0 && len ≤ (((rd : Int) - wr - 64) % (size : Int)).toNat

/-- The words of an entry stored in the ring (R171). -/
def storeRing (s : State) (n q : Nat) (entry : List Nat) : State :=
  (List.range 16).foldl (fun s i => s.setReg (HEAD_WIT_RING n (16 * (q % 64) + i)) (BitVec.ofNat 32 (entry.getD i 0))) s

/-- The oldest digest due completes: its ring entry, and its log block when the log is on (R168 to R175). -/
def digestComplete (s : State) (n : Nat) : State :=
  let h := s.head n
  match h.jobs with
  | [] => s
  | j :: rest =>
    let s := s.setHead n { h with jobs := rest }
    let q := (s.reg (HEAD_WIT_SEQ n)).toNat + 1
    let tc := max s.tb j.seen
    let block := logBlock (ringEntry s n j q tc false) j.rows
    let logging := s.bit (HEAD_WIT_CTRL n) HEAD_WIT_CTRL_log_en
    let (s, gap) :=
      if !logging then (s, false) else if s.logRoom n block.length && !j.gap then writeLog s n block else (s, true)
    let s := if gap then (s.setBit (HEAD_WIT_STAT n) HEAD_WIT_STAT_log_lost true).count (HEAD_WIT_CNT n) HEAD_WIT_CNT_log_lost else s
    (storeRing s n q (ringEntry s n j q tc gap)).setReg (HEAD_WIT_SEQ n) (BitVec.ofNat 32 q)

/-- Falornyr records the q at which the witness of a head was last enabled, and cites no entry at or below it (R173). -/
def noteWitness (s : State) (n : Nat) : State :=
  { s with fw := { s.fw with witAt := smSet (fun _ => 0) s.fw.witAt n (s.reg (HEAD_WIT_SEQ n)).toNat } }

/-- A write of WIT_CTRL: enable from 0 to 1 invalidates every row (R166), and only entries formed after it are cited (R173). -/
def witCtrlWrite (s : State) (n : Nat) (w : Word) : State :=
  let was := s.witOn n
  let s := s.writeCodes (HEAD_WIT_CTRL n) w
  if !was && s.witOn n then noteWitness (invalidateRows s n) n else s

/-- The block of the oldest digest due is abandoned (R175). -/
def abandonLog (s : State) (n : Nat) : State :=
  match (s.head n).jobs with
  | j :: rest => s.setHead n { s.head n with jobs := { j with gap := true } :: rest }
  | [] => s

/-- A write of WIT_LOG_BASE or WIT_LOG_SIZE empties the log, and abandons a block being written at that moment (R175). Whether the block of the oldest digest
due is being written then is a free value: the manual gives no time at which its writing begins (assumption 84). -/
def witLogConfig (s : State) (n a : Nat) (w : Word) : State :=
  let s := ((s.writeCodes a w).setReg (HEAD_WIT_LOG_WR n) 0).setReg (HEAD_WIT_LOG_RD n) 0
  if s.bit (HEAD_WIT_CTRL n) HEAD_WIT_CTRL_log_en && !(s.head n).jobs.isEmpty then
    let (v, s) := s.draw
    if v.getLsbD 0 then abandonLog s n else s
  else s

/-! ## Packets -/

/-- Whether a head may put a packet on its lanes: ON with its geometry set, its start commands sent, no packet on them, the bus its own (R145, R157,
R160). -/
def State.lanesFree (s : State) (n : Nat) : Bool :=
  s.blkOn (blkHead n) && s.geomOk n && !(s.head n).starting && (s.head n).pkt.isNone && (s.head n).bta.isNone &&
    !s.bit (HEAD_STAT n) HEAD_STAT_bta_stuck

/-- Whether the clock lane runs while the data lanes are in LP-11 (R140): in video mode with clk_cont at 1. -/
def State.clockRuns (s : State) (n : Nat) : Bool :=
  s.blkOn (blkHead n) && !s.cmdMode n && s.bit (HEAD_DPHY n) HEAD_DPHY_clk_cont

/-- What a head puts on its lanes. -/
def putLanes (s : State) (n : Nat) (items : List LaneItem) : State := s.setHead n { s.head n with out := items }

/-- The code of a DCS command (Table 7-2). -/
def Dcs.code : Dcs → Byte
  | .setTearOn => 0x35
  | .setColumnAddress _ _ => 0x2A
  | .setPageAddress _ _ => 0x2B
  | .writeMemoryStart => 0x2C
  | .writeMemoryContinue => 0x3C

/-- Whether line `y` opens a run of the frame set (R144). -/
def State.runOpens (s : State) (n y : Nat) : Bool := y == 0 || !s.inSet n (y - 1)

/-- The last line of the run that line `y` lies in. -/
def State.runEnds (s : State) (n y : Nat) : Nat :=
  ((List.range (s.height n)).find? (fun l => y ≤ l && !s.inSet n (l + 1))).getD y

/-- The data type of a video line packet by pixel format, virtual channel 0 (Table 7-1). -/
def videoType (format : Nat) : Nat :=
  match format with
  | 0 => 0x0E
  | 1 => 0x1E
  | 2 => 0x2E
  | 4 => 0x0D
  | _ => 0x3E

/-- What carries line `y` with its packed pixels: in command mode the page address before a run, and a long write of a memory write command and the pixels; in
video mode the pixel packet of the format, at the lane rate in a burst mode (R141, R144, R157). -/
def State.lineItems (s : State) (n y : Nat) (bytes : List Byte) : List LaneItem :=
  if s.cmdMode n then
    let c := if s.runOpens n y then Dcs.writeMemoryStart else Dcs.writeMemoryContinue
    (if s.runOpens n y then [.dcs (.setPageAddress y (s.runEnds n y))] else []) ++ [.line true (longPacket 0x39 (c.code :: bytes)), .lp11]
  else
    let burst := (s.head n).mode == 1
    [.sync, .line burst (longPacket (videoType (s.head n).format) bytes)] ++ (if burst then [.lp11] else [])

/-- Line `y` of frame `f` goes out on the lanes: as composed, or up to its first `k` pixels and the fill after them when it is not wholly composed (R150,
R156); the row joins the rows that the witness checks (R163). The composer abandons a line that has gone out. -/
def sendLine (s : State) (n f y k : Nat) : State :=
  let h := s.head n
  let stored := h.slots.find? (fun l => l.frame == f && l.line == y)
  let mine := s.lineOpen n && f == s.frame n && h.line == y
  let (s, bytes) := match stored with
    | some l => (s, l.bytes)
    | none =>
      let (s, bytes) := if mine then composePixels s n y k else (s, rowBytes s n y [])
      let s := s.setBit (HEAD_STAT n) HEAD_STAT_underrun true
      ((if s.cmdMode n then markBand s n (y / 16) else s).count (HEAD_CNT n) HEAD_CNT_underrun, bytes)
  let h := s.head n
  let row : SentRow := ⟨f, y, crc32c bytes, stored.isNone, false, false⟩
  s.setHead n { h with pkt := some ⟨f, y, s.tb, stored.isSome⟩, lastStart := some s.tb, sendFrame := f, sendNext := y + 1,
                       pushed := h.pushed ||| 2 ^ (y / 16), rows := if s.witOn n then h.rows ++ [row] else h.rows, out := s.lineItems n y bytes }

/-- The packet on the lanes ends: its slot frees, and the frame's last one gives the flip record (R154, R159). Those of a head that is stopping then enter LP-11
(R160). -/
def packetEnd (s : State) (n : Nat) : State :=
  let h := s.head n
  match h.pkt with
  | none => s
  | some p =>
    let s := s.setHead n { h with
      pkt := none, slots := h.slots.filter (fun l => !(l.frame == p.frame && l.line == p.line)), lastRow := some (p.frame, p.line, s.tb) }
    let s := if s.blkOn (blkHead n) then s else putLanes s n [.lp11]
    restate (if s.frameSent n p.frame then commitFlip s n else s) n

/-- A firmware packet's response stored, up to 16 bytes (R143). -/
def storeResponse (s : State) (n : Nat) (bs : List Byte) : State :=
  (List.range 4).foldl (fun s k =>
    let part := (bs.drop (4 * k)).take 4
    if part.isEmpty then s
    else s.setReg (HEAD_PKT_DATA n k) (BitVec.ofNat 32
      (leOf (part ++ (leBytes 4 (s.reg (HEAD_PKT_DATA n k)).toNat).drop part.length)))) s

/-! ## Start and stop (R140, R153, R157, R160, R161) -/

/-- A head begins to start: the settings that take effect at a start are sampled (R160). `rate` is the lane rate after any clamp (R479). -/
def headSample (s : State) (n rate : Nat) : State :=
  let c := s.reg (HEAD_CTRL n)
  s.setHead n { s.head n with mode := getF c HEAD_CTRL_mode, lanes := getF c HEAD_CTRL_lanes, format := getF c HEAD_CTRL_format, rate := rate }

/-- A head reaches ON: its model, frames and witness start anew. Above 1,500 Mbit/s the lanes begin with the deskew burst (R140). -/
def headStart (s : State) (n : Nat) : State :=
  let h := s.head n
  let s := s.setHead n { h with
    starting := true, deskewed := false, out := if 1500 < h.rate then [.lp11, .deskew, .lp11] else [.lp11], fbTime := s.tb, inFrame := false, line := 0, cyc := 0, lineOld := [], arrOld := [],
    tLast := none, accepted := 0, rejects := 0, missed := 0, teSkip := false,
    pushOk := false, raceBad := false, firstFrame := true, firstLock := false, forceFull := false, sinceFull := 0, slots := [], sendFrame := 0,
    sendNext := 0, vline := 0, pkt := none, lastStart := none, pushed := 0, pushedPrev := 0, bta := none, lastRow := none, rowValid := [], rows := [],
    failRun := [], suspect := [], jobs := [], scrollBeam := [], evals := [], vbound := false, wait := .none, buf := [], drop := 0, bwr := none, refill := false }
  let s := (s.setReg (HEAD_FRAME n) 0).setReg (HEAD_WIT_SEQ n) 0
  let s := ((s.setBit (HEAD_BEAM n) HEAD_BEAM_locked false).setBit (HEAD_BEAM n) HEAD_BEAM_seeded false).setBit (HEAD_BEAM n) HEAD_BEAM_lost false
  let s := s.setFld (HEAD_DPHY n) HEAD_DPHY_hs_ns (hsNs h.rate)
  restate (cfgCheck s n) n

/-- The commands of Table 7-2 that a head sends at its start. -/
def State.startCommands (s : State) (n : Nat) : List LaneItem :=
  if !s.cmdMode n then []
  else
    (if s.fld (HEAD_CTRL n) HEAD_CTRL_te_src < 2 then [.dcs .setTearOn] else []) ++ [.dcs (.setColumnAddress 0 (s.width n - 1)), .lp11]

/-- A head whose deskew is over begins to send (R160): its start commands, or in video mode its first line. With bad geometry it sends nothing until that is
mended (R157). -/
def startSending (s : State) (n : Nat) : State :=
  let h := s.head n
  if s.blkOn (blkHead n) && h.starting && h.deskewed && s.geomOk n then
    restate (s.setHead n { h with starting := false, fbTime := s.tb, out := s.startCommands n }) n
  else s

/-- A head stops: the bands with unsent lines return to the pending set and no frame is in progress; the packet on the lanes completes, and with none there
the frame's record and digest are taken from what it has sent (R152, R155, R159, R160, R168). -/
def headStop (s : State) (n : Nat) : State :=
  let s := returnUnsent s n
  let h := s.head n
  let s := s.setHead n { h with
    inFrame := false, pushOk := false, slots := h.slots.filter (fun l => h.pkt.any (fun p => p.frame == l.frame && p.line == l.line)), starting := false,
    bta := none }
  let s := if h.pkt.isNone then digestDue (commitFlip (putLanes s n [.lp11]) n) n h.sendFrame else s
  restate (cfgCheck (s.setBit (SCENE_BEAM_STAT n) SCENE_BEAM_STAT_running false) n) n

/-- A write of HEAD_n_CTRL: the reset pin follows panel_reset, and the first write after HOLD ends held (R161). -/
def headCtrlWrite (s : State) (n : Nat) (w : Word) : State :=
  let s := (s.writeCodes (HEAD_CTRL n) w).setBit (HEAD_STAT n) HEAD_STAT_held false
  s.setHead n { s.head n with resetLow := s.bit (HEAD_CTRL n) HEAD_CTRL_panel_reset }

/-- A write of HEAD_n_MARK (R152, R153). -/
def headMark (s : State) (n : Nat) (w : Word) : State :=
  if bitOf w HEAD_MARK_all then markAll s n else markBands s n (getF w HEAD_MARK_first) (getF w HEAD_MARK_count + 1)

/-! ## Register access -/

/-- A register write to a head's block. -/
def headWrite (s : State) (a : Nat) (w : Word) : State :=
  let n := (a - 0x40110000) / 0x10000
  let off := a % 0x10000
  if off == 0 then headCtrlWrite s n w
  else if off == 0x30 then headMark s n w
  else if off == 0x100 then witCtrlWrite s n w
  else if off == 0x110 ∨ off == 0x114 then witLogConfig s n a w
  else restate (startSending (cfgCheck (s.writeCodes a w) n) n) n

/-- A register read of a head's block: the flip record latches, and the witness status is counted from the row table. -/
def headRead (s : State) (a : Nat) : State × Word :=
  let n := (a - 0x40110000) / 0x10000
  let off := a % 0x10000
  if off == 0x64 then flipRead s n
  else
    let s' := if off == 0x104 then
      let bad := ((List.range (s.height n)).filter (fun y => !s.rowOk n y)).length
      (s.setFld a HEAD_WIT_STAT_invalid_rows bad).setBit a HEAD_WIT_STAT_table_full (bad == 0 && s.height n != 0)
    else s
    (s'.readClears a, s'.readCodes a)

end Sys2Proof.Machine
end

