-- ==== Sys2Proof/Machine/Triggers.lean ====
section
/-! DEFINITION. Events that carry between blocks: interrupt sources that no register shows, trigger occurrences (R190, R193) and the
block engine's watermarks (R184). -/

namespace Sys2Proof.Machine

/-- An event of a source that no status register holds: it stays raised until the source is taken. -/
def raisePulse (s : State) (src : Nat) : State := { s with pulse := smSet (fun _ => false) s.pulse src true }

/-- Every mailbox lock that an ID holds is released (R348). -/
def mbxDrop (s : State) (id : Nat) : State :=
  (List.range 8).foldl (fun s n => if s.fld (MBX_STAT n) MBX_STAT_holder == id then s.setFld (MBX_STAT n) MBX_STAT_holder 0 else s) s

/-- The hidden state of DMA channel `k`. -/
def State.dmaCh (s : State) (k : Nat) : DmaCh := smGet (fun _ => DmaCh.init) s.dma k

/-- The state with the hidden state of DMA channel `k` replaced. -/
def State.setDma (s : State) (k : Nat) (c : DmaCh) : State := { s with dma := smSet (fun _ => DmaCh.init) s.dma k c }

/-- The state a DMA channel reports: 0 IDLE, 1 RUNNING, 2 WAIT_TRIG, 3 PAUSED. -/
def State.dmaState (s : State) (k : Nat) : Nat := s.fld (DMA_CH_STAT k) DMA_CH_STAT_state

/-- The trigger number and mode of the descriptor in a channel's working registers (Table 9-6). -/
def DmaCh.trig (c : DmaCh) : Nat := bitsN (c.words.getD 6 0) 5 0
def DmaCh.trigMode (c : DmaCh) : Nat := bitsN (c.words.getD 6 0) 31 30

/-- Whether an occurrence of trigger `t` is one for the channel: its descriptor names that trigger, or names none, or it holds no descriptor, and the trigger is
its own number 63 (DEDUCED from R190; assumption 78). -/
def DmaCh.hears (c : DmaCh) (t : Nat) : Bool := if c.words.isEmpty || c.trigMode == 0 then t == 63 else c.trig == t

/-- One occurrence of trigger `t` at channel `k` (R190): it releases a waiting channel, is kept for one that does not wait, or is lost. -/
def dmaOccurrence (s : State) (k t : Nat) : State :=
  let c := s.dmaCh k
  let r := DMA_CH_STAT k
  if !c.hears t then s
  else if s.dmaState k == 2 then (s.setFld r DMA_CH_STAT_state 1).setDma k { c with phase := .move }
  else if s.bit r DMA_CH_STAT_trig_pend then s.setBit r DMA_CH_STAT_trig_ovr true
  else s.setBit r DMA_CH_STAT_trig_pend true

/-- One occurrence of a trigger of Table 9-8, at the block engine and at every DMA channel. -/
def fireTrigger (s : State) (t : Nat) : State :=
  let s := if s.blk.wait == .trig t then { s with blk := { s.blk with wait := .hit } } else s
  (List.range 16).foldl (fun s k => dmaOccurrence s k t) s

/-- A WAITLINE for a line that head `n` has now reached is released, whatever line comes next (R185). -/
def blkReach (s : State) (n l : Nat) : State :=
  match s.blk.wait with
  | .line m at_ => if m == n && at_ ≤ l then { s with blk := { s.blk with wait := .hit } } else s
  | _ => s

/-- The current line of head `n` becomes `l`: a WAITLINE for it ends, and the watermarks there fire (R184). -/
def reachLine (s : State) (n l : Nat) : State :=
  let s := if (s.head n).inFrame then blkReach s n l else s
  (List.range 4).foldl (fun s k =>
    let r := BLK_WMARK k
    if s.bit r BLK_WMARK_enable && s.fld r BLK_WMARK_head == n && s.fld r BLK_WMARK_line == l && l < s.height n && s.blkOn (blkHead n) then
      fireTrigger (raisePulse s 68) (17 + k)
    else s) s

end Sys2Proof.Machine
end

