-- ==== Sys2Proof/Machine/Beam.lean ====
section
/-! DEFINITION. The beam sequencer of each head (chapter 5): its prefetch buffer, waits and commands, and where its writes land. -/

namespace Sys2Proof.Machine

/-- Whether the sequencer of a head runs a list in this frame. -/
def State.beamRunning (s : State) (n : Nat) : Bool := s.bit (SCENE_BEAM_STAT n) SCENE_BEAM_STAT_running

/-- The list acts as at END: the sequencer stops until the next frame boundary (R104). -/
def beamStop (s : State) (n : Nat) : State :=
  (s.setBit (SCENE_BEAM_STAT n) SCENE_BEAM_STAT_running false).setHead n
    { s.head n with buf := [], skip := 0, wait := .none, drop := 0, bwr := none, refill := false }

/-- A bad command at the program counter (R107). -/
def beamBad (s : State) (n : Nat) : State :=
  let h := s.head n
  beamStop ((s.setBit (SCENE_BEAM_STAT n) SCENE_BEAM_STAT_bad_cmd true).setFld (SCENE_BEAM_STAT n) SCENE_BEAM_STAT_err_pc ((h.pc - h.beamBase) / 4)) n

/-- The words that a command takes, its data words included (Table 5-1). -/
def beamWords (w : Word) : Nat :=
  match bitsN w.toNat 31 28 with
  | 3 => 2
  | 4 => if w.getLsbD 26 then 1 else 2 + bitsN w.toNat 25 18
  | _ => 1

/-- The words that must be in the buffer for a command to issue: an inline BWR issues with its first data word and waits for each word that follows (R102). -/
def beamNeeds (w : Word) : Nat := min 2 (beamWords w)

/-- The end of the list region (R108). -/
def HeadSt.beamEnd (h : HeadSt) : Nat := h.beamBase + 32 * h.beamLen

/-- `k` words leave the buffer. -/
def HeadSt.beamTake (h : HeadSt) (k : Nat) : HeadSt := { h with buf := h.buf.drop k, pc := h.pc + 4 * k }

/-- The words passed over leave the buffer as they come: those still owed for one command, then the next commands that SKIP passes over (R104). A command
that does not lie wholly within the list region stays, and is then a bad command (R107). -/
def beamSkip (h : HeadSt) : Nat → HeadSt
  | 0 => h
  | fuel + 1 =>
    let k := min h.drop h.buf.length
    let h := { h.beamTake k with drop := h.drop - k }
    match h.drop, h.skip, h.buf with
    | 0, j + 1, w :: _ => if h.beamEnd < h.pc + 4 * beamWords w then h else beamSkip { h with skip := j, drop := beamWords w } fuel
    | _, _, _ => h

/-- The sequencer looks at its next command: commands passed over leave, and a reserved opcode, or a word outside the list region, is a
bad command (R107). -/
def beamLook (s : State) (n : Nat) : State :=
  let s := s.setHead n (beamSkip (s.head n) 257)
  let h := s.head n
  let words := match h.buf with | w :: _ => beamWords w | [] => 1
  if !s.beamRunning n || h.wait != .none || h.drop != 0 || h.bwr.isSome then s
  else if h.beamEnd < h.pc + 4 * words then beamBad s n
  else match h.buf with
    | w :: _ => if h.skip == 0 && 9 ≤ bitsN w.toNat 31 28 then beamBad s n else s
    | [] => s

/-! ## Writes (R109 to R111) -/

/-- The class of a target in the head's page (Table 5-4, Table 6-3): 0 refused, 1 line class, 2 pixel class, 3 immediate. -/
def beamClass (off : Nat) : Nat :=
  if 0x100 ≤ off ∧ off < 0x300 then if (regRow (0x40100000 + off)).isSome then 1 else 0
  else if off = 0x310 ∨ off = 0x314 then 3
  else if off = 0x440 then 2
  else if (0x400 ≤ off ∧ off < 0x42C) ∨ (0x460 ≤ off ∧ off < 0x478) ∨ (0x490 ≤ off ∧ off < 0x4B0) ∨ (0x4C0 ≤ off ∧ off < 0x500) then 1
  else if 0x500 ≤ off ∧ off < 0x580 then
    let o := off % 0x40
    if o = 0x18 ∨ o = 0x1C ∨ o = 0x28 ∨ o = 0x2C then 1 else 0
  else 0

/-- Layer `m` of head `n` had its SCROLL written by the list in this frame (R96). -/
def noteScroll (s : State) (n off : Nat) : State :=
  if 0x100 ≤ off ∧ off < 0x300 ∧ (off % 0x40 = 0xC) then
    let h := s.head n
    let m := (off - 0x100) / 0x40
    s.setHead n { h with scrollBeam := (m, s.frame n) :: h.scrollBeam.filter (fun e => e.1 != m) }
  else s

/-- The value of a register that holds `old` after a write of `v`, by the access codes of its fields. -/
def regWritten (a : Nat) (old v : Word) : Word := match regRow a with | some r => r.write old v | none => old

/-- A line-class write of the list: for the line in its setup window, else from the next line on (R110). A Kiln write that came in the same setup window is
applied after the latch, so that its value stands from the next line on (R113). -/
def beamLineWrite (s : State) (n a cyc : Nat) (v : Word) : State :=
  match s.sceneHome a with
  | none => s
  | some home =>
    let h := s.head n
    let s := match h.lineOld.lookup home with
      | some old => if cyc < 64 then s.setHead n { h with lineOld := (home, regWritten home old v) :: h.lineOld.filter (fun e => e.1 != home) }
        else s.writeCodes home v
      | none => if cyc < 64 then s.writeCodes home v else (keepOld s n home (s.reg home)).writeCodes home v
    noteScroll s n (scenePage a).2

/-- One word written to one target in cycle `cyc` (R109): palette space when `pal`, else the register at word `i` of the page. An index beyond the page's 1,024
words names no register, so the write is refused (DESIGN CHOICE: Table 5-1 gives the index 15 bits and R103 the registers 0 to 1,023; assumption 107). -/
def beamPut (s : State) (n : Nat) (pal : Bool) (i cyc : Nat) (v : Word) : State :=
  if pal then addPixel s n (beamColumn cyc) (n * 0x8000 + i % 0x8000) v
  else
    let off := 4 * i
    let a := 0x40100000 + 0x1000 * n + off
    match if i < 1024 then beamClass off else 0 with
    | 1 => beamLineWrite s n a cyc v
    | 2 => addPixel s n (beamColumn cyc) a v
    | 3 => if off == 0x310 then s.setReg a (v &&& 0xFFFFFFFC) else s.writeCodes a v
    | _ => (s.setBit (SCENE_BEAM_STAT n) SCENE_BEAM_STAT_bad_write true).count (SCENE_BEAM_CNT n) SCENE_BEAM_CNT_refused

/-- Words written to consecutive targets, one a cycle. -/
def beamPutAll (s : State) (n : Nat) (pal : Bool) (i cyc : Nat) : List Word → State
  | [] => s
  | v :: vs => beamPutAll (beamPut s n pal i cyc v) n pal (i + 1) (cyc + 1) vs

/-- An inline BWR under way writes the data words that have come, one a cycle (R102). -/
def beamFeed (s : State) (n : Nat) : State :=
  let h := s.head n
  match h.bwr with
  | none => s
  | some b =>
    let k := min b.left h.buf.length
    let s := beamPutAll s n b.pal b.next h.cyc (h.buf.take k)
    let h := (s.head n).beamTake k
    s.setHead n { h with cyc := h.cyc + k, bwr := if b.left == k then none else some { b with left := b.left - k, next := b.next + k } }

/-! ## The prefetch buffer -/

/-- A 32-byte beat of the list enters the buffer, after `waited` scene cycles (R102); a failed fetch acts as END (R115). A refill begins when 32 or more of the 64
words are free, and goes on while there is room for a beat. While the scene engine's block is not ON its wrapper passes no request (R29, R32). -/
def beamFill (s : State) (n waited : Nat) : State :=
  let h := s.head n
  let a := h.pc + 4 * h.buf.length
  if !s.beamRunning n || !s.blkOn 7 || (32 < h.buf.length && !h.refill) || 56 < h.buf.length || h.beamEnd ≤ a then s
  else
    let len := 32 - a % 32
    let r := sceneRead s n a len
    if r.err || r.poison then beamStop (r.s.setBit (SCENE_BEAM_STAT n) SCENE_BEAM_STAT_fetch_fault true) n
    else
      let ws := (List.range (len / 4)).map (fun i => BitVec.ofNat 32 (leOf ((r.data.drop (4 * i)).take 4)))
      let h := r.s.head n
      let cyc := if h.wait == .none then h.cyc + waited else h.cyc
      let buf := h.buf ++ ws
      beamLook (beamFeed (r.s.setHead n { h with buf := buf, cyc := cyc, refill := buf.length ≤ 56 }) n) n

/-! ## Commands -/

/-- The command that the sequencer of a head would issue now, when it is one with opcode `op` and its words are in the buffer. -/
def State.beamCmd (s : State) (n op : Nat) : Option Word :=
  let h := s.head n
  match h.buf with
  | w :: _ =>
    if s.beamRunning n && h.wait == .none && h.skip == 0 && h.drop == 0 && h.bwr.isNone && bitsN w.toNat 31 28 == op && beamNeeds w ≤ h.buf.length then some w else none
  | [] => none

/-- The command leaves the buffer, having taken `cycles` scene cycles. -/
def beamNext (s : State) (n : Nat) (w : Word) (cycles : Nat) : State :=
  let h := s.head n
  s.setHead n { h.beamTake (beamWords w) with cyc := h.cyc + cycles }

/-- A late wait (R112). -/
def beamLate (s : State) (n : Nat) : State :=
  (s.setBit (SCENE_BEAM_STAT n) SCENE_BEAM_STAT_late true).count (SCENE_BEAM_CNT n) SCENE_BEAM_CNT_late_cnt

/-- END (R104). -/
def beamEndCmd (s : State) (n : Nat) : State :=
  match s.beamCmd n 0 with
  | none => s
  | some w => beamStop (beamNext s n w 1) n

/-- WAITL (R104, R112). -/
def beamWaitL (s : State) (n : Nat) : State :=
  match s.beamCmd n 1 with
  | none => s
  | some w =>
    let h := s.head n
    let t := if w.getLsbD 12 then min 4095 (h.target + bitsN w.toNat 11 0) else bitsN w.toNat 11 0
    let late := t < h.line ∨ (t = h.line ∧ 64 ≤ h.cyc)
    let s := beamNext s n w 1
    let s := s.setHead n { s.head n with target := t }
    if s.height n ≤ t then beamStop s n
    else if late then beamLook (beamLate s n) n
    else if t == h.line then beamLook s n
    else s.setHead n { s.head n with wait := .line }

/-- The setup window of the target line opens (R104). The command after the WAITL issues one scene cycle after the release (Example 5-1). -/
def beamLineRelease (s : State) (n : Nat) : State :=
  let h := s.head n
  if h.wait == .line && h.target == h.line then beamLook (s.setHead n { h with wait := .none, cyc := max h.cyc 1 }) n else s

/-- Whether the current line of a head is composed, and not only fast-forwarded (R91, R116). -/
def State.lineComposed (s : State) (n : Nat) : Bool :=
  (s.inSet n (s.head n).line && s.unsent n (s.head n).line) || s.useBit n (SCENE_SPR_CTRL n) SCENE_SPR_CTRL_coll_full

/-- WAITX (R104, R112, R116). One that issues in the very cycle that produces its pair is not late and holds up nothing: the command after it issues in that
cycle, so that its write applies from the pair's column as R111 gives for a WAITX that was not late (DEDUCED: R102 lets one command issue in a cycle;
assumption 108). -/
def beamWaitX (s : State) (n : Nat) : State :=
  match s.beamCmd n 2 with
  | none => s
  | some w =>
    let pair := (bitsN w.toNat 11 0 + 1) / 2
    let past := s.width n ≤ 2 * pair
    let goal := 64 + (if past then (s.width n + 1) / 2 else pair)
    let s := beamNext s n w 1
    let h := s.head n
    if s.height n ≤ h.line then beamLook s n
    else if !s.lineComposed n then beamLook (s.setHead n { h with cyc := max h.cyc goal }) n
    else if h.cyc - 1 < goal then s.setHead n { h with wait := .col goal }
    else if goal < h.cyc - 1 && !past then beamLook (beamLate s n) n
    else beamLook (s.setHead n { h with cyc := if past then h.cyc else goal }) n

/-- The named pair is produced, or the pixel phase ends (R104). -/
def beamColRelease (s : State) (n : Nat) : State :=
  let h := s.head n
  match h.wait with
  | .col goal => beamLook (s.setHead n { h with wait := .none, cyc := max h.cyc goal }) n
  | _ => s

/-! ## Writes issued by the list -/

/-- WR (R104). -/
def beamWr (s : State) (n : Nat) : State :=
  match s.beamCmd n 3 with
  | none => s
  | some w =>
    let h := s.head n
    let s := beamPut s n (w.getLsbD 27) (bitsN w.toNat 14 0) h.cyc (h.buf.getD 1 0)
    beamLook (beamNext s n w 1) n

/-- BWR, inline or through BEAM_DPTR, which the words written may themselves have changed (R104, R115). One through BEAM_DPTR does not issue while the scene
engine's block is not ON, whose wrapper passes no request (R29, R32). -/
def beamBwr (s : State) (n : Nat) : State :=
  match s.beamCmd n 4 with
  | none => s
  | some w =>
    let h := s.head n
    let count := bitsN w.toNat 25 18 + 1
    let pal := w.getLsbD 27
    let i := bitsN w.toNat 14 0
    if !w.getLsbD 26 then beamLook (beamFeed (s.setHead n { h.beamTake 1 with bwr := some ⟨count, pal, i⟩ }) n) n
    else if !s.blkOn 7 then s
    else
      let r := sceneRead s n (s.reg (SCENE_BEAM_DPTR n)).toNat (4 * count)
      let s := if r.err || r.poison then r.s.setBit (SCENE_BEAM_STAT n) SCENE_BEAM_STAT_fetch_fault true
        else beamPutAll r.s n pal i h.cyc ((List.range count).map (fun j => BitVec.ofNat 32 (leOf ((r.data.drop (4 * j)).take 4))))
      let after := s.reg (SCENE_BEAM_DPTR n) + BitVec.ofNat 32 (4 * count)
      beamLook (beamNext (s.setReg (SCENE_BEAM_DPTR n) after) n w count) n

/-! ## SKIP, LOOP, SIG, TOUCH -/

/-- Whether the condition of a SKIP holds (Table 5-3); nothing for a reserved condition. -/
def State.beamCond (s : State) (n : Nat) (w : Word) : Option Bool :=
  let h := s.head n
  let x := w.toNat
  match bitsN x 27 24 with
  | 0 => some ((s.fld (SCENE_BEAM_FLAGS n) SCENE_BEAM_FLAGS_flags).testBit (bitsN x 3 0))
  | 1 => some (!(s.fld (SCENE_BEAM_FLAGS n) SCENE_BEAM_FLAGS_flags).testBit (bitsN x 3 0))
  | 2 => some ((s.reg (HEAD_FRAME n)).getLsbD 0)
  | 3 => some (h.line % 2 == 1)
  | 4 => some (h.target < bitsN x 11 0)
  | 5 => some (bitsN x 11 0 ≤ h.target)
  | _ => none

/-- SKIP (R106, R107). -/
def beamSkipCmd (s : State) (n : Nat) : State :=
  match s.beamCmd n 5 with
  | none => s
  | some w =>
    match s.beamCond n w with
    | none => beamBad s n
    | some c =>
      let k := bitsN w.toNat 23 16
      if k == 0 then beamBad s n
      else
        let s := beamNext s n w 1
        beamLook (s.setHead n { s.head n with skip := if c then k else 0 }) n

/-- LOOP (R105, R107). A branch back empties the prefetch buffer, and the body is fetched again (DESIGN CHOICE: R102 and R105 do not say whether words in the
buffer are kept; assumption 109). -/
def beamLoop (s : State) (n : Nat) : State :=
  match s.beamCmd n 6 with
  | none => s
  | some w =>
    let h := s.head n
    let x := w.toNat
    let c := bitsN x 27 26
    let back := bitsN x 13 0
    let left := (if h.cnt.getD c 0 == 0 then bitsN x 25 14 else h.cnt.getD c 0) - 1
    if back == 0 || bitsN x 25 14 == 0 || h.pc < h.beamBase + 4 * back then beamBad s n
    else if left == 0 then
      let s := beamNext s n w 1
      beamLook (s.setHead n { s.head n with cnt := h.cnt.set c 0 }) n
    else beamLook (s.setHead n { h with cnt := h.cnt.set c left, pc := h.pc - 4 * back, buf := [], refill := false, cyc := h.cyc + 1 }) n

/-- SIG (R118): the bit is set, and signals 0 to 3 are triggers 1 + 4n + s. -/
def beamSig (s : State) (n : Nat) : State :=
  match s.beamCmd n 7 with
  | none => s
  | some w =>
    let sig := bitsN w.toNat 2 0
    let s := beamNext s n w 1
    let s := s.setFld (SCENE_BEAM_SIG n) SCENE_BEAM_SIG_sig (s.fld (SCENE_BEAM_SIG n) SCENE_BEAM_SIG_sig ||| 2 ^ sig)
    beamLook (if sig < 4 then fireTrigger s (1 + 4 * n + sig) else s) n

/-- TOUCH (R104, R117): in video mode it has no effect. -/
def beamTouch (s : State) (n : Nat) : State :=
  match s.beamCmd n 8 with
  | none => s
  | some w =>
    let h := s.head n
    let first := bitsN w.toNat 7 0 + (if w.getLsbD 16 then h.line / 16 else 0)
    let s := beamNext s n w 1
    beamLook (if s.cmdMode n then markBands s n first (bitsN w.toNat 15 8 + 1) else s) n

/-- The sequencer starts a frame (R101, R114): a list still running is an overrun. The settings take effect, and with enable at 1 the state is reset and the list
issues from its first word. -/
def beamBoundary (s : State) (n : Nat) : State :=
  let s := if s.beamRunning n then s.setBit (SCENE_BEAM_STAT n) SCENE_BEAM_STAT_overrun true else s
  let base := (s.reg (SCENE_BEAM_BASE n)).toNat
  let s := beamStop (s.setHead n { s.head n with beamBase := base, beamLen := s.fld (SCENE_BEAM_LEN n) SCENE_BEAM_LEN_len }) n
  if s.bit (SCENE_BEAM_CTRL n) SCENE_BEAM_CTRL_enable then
    let s := s.setHead n { s.head n with pc := base, cnt := [0, 0, 0, 0], target := 0 }
    beamLook ((s.setReg (SCENE_BEAM_DPTR n) (s.reg (SCENE_BEAM_DPTR_INIT n))).setBit (SCENE_BEAM_STAT n) SCENE_BEAM_STAT_running true) n
  else s

end Sys2Proof.Machine
end

