-- ==== Sys2Proof/Machine/Frame.lean ====
section
/-! DEFINITION. What happens at a head's frame boundary, in the order of R98, R101, R152 and R158, and at the end of each composition line
(R100, R110, R116, R154). -/

namespace Sys2Proof.Machine

/-! ## The frame boundary -/

/-- Whether a frame boundary can come to head `n` (R147, R157, R160): in video mode once, at the start of the line that R157 gives. -/
def State.boundaryOk (s : State) (n : Nat) : Bool :=
  s.blkOn 7 && s.blkOn (blkHead n) && s.hasFrames n && !(s.head n).starting &&
    (s.cmdMode n || ((s.head n).vline == s.boundaryLine n && !(s.head n).vbound))

/-- The frame that ends with the next boundary: in command mode it is over (R152). The frame of video mode goes on being sent. -/
def endFrame (s : State) (n : Nat) : State := if s.cmdMode n then frameOver s n else s

/-- Whether the frame that opens is a full frame (R153). -/
def State.fullDue (s : State) (n : Nat) : Bool :=
  let h := s.head n
  let every := s.fld (HEAD_REFRESH n) HEAD_REFRESH_every
  h.firstFrame || h.firstLock || h.forceFull || (every != 0 && every ≤ h.sinceFull + 1)

/-- The frame set is taken from the pending set (R152, R153): a full frame has every band, whatever marked them, and one whose race is not permitted marks
every band again. -/
def takeFrameSet (s : State) (n : Nat) : State :=
  let s := if s.fullDue n then markAll s n else s
  let set := s.pendingSet n
  let full := (List.range (s.nBands n)).all set.testBit
  let s := clearPendingSet s n
  let h := s.head n
  let s := s.setHead n { h with
    fset := set, firstFrame := false, firstLock := false, forceFull := false, fullNow := full,
    sinceFull := if full then 0 else h.sinceFull + 1 }
  if full && !h.pushOk then markAll s n else s

/-- A palette copy still under way at a boundary is late (R94). -/
def palLate (s : State) (n : Nat) : State :=
  if (s.head n).palJob.any (fun j => !j.waits) then s.setBit (SCENE_PAL_LOAD n) SCENE_PAL_LOAD_late true else s

/-- The block engine's waits for this head's boundary become waits for a line (R185). -/
def blkBoundary (s : State) (n : Nat) : State :=
  match s.blk.wait with
  | .boundary h l => if h == n then { s with blk := { s.blk with wait := .line h l } } else s
  | _ => s

/-- HEAD_n_FRAME counts the frames (R154). -/
def countFrame (s : State) (n : Nat) : State := s.setReg (HEAD_FRAME n) (s.reg (HEAD_FRAME n) + 1)

/-- In command mode the race decides whether the frame may be pushed; in video mode every frame is (R152, R159). -/
def admitFrame (s : State) (n : Nat) : State :=
  if s.cmdMode n then raceCheck s n else s.setHead n { s.head n with pushOk := true }

/-- The frames of which something is still to be told: the one that opens, and those with rows or digests pending. -/
def HeadSt.keepSuspect (h : HeadSt) : List Nat := h.suspect.filter (fun f => h.awaits f || h.jobs.any (fun j => j.frame == f))

/-- The head's working state at the first line of a frame. A command-mode frame is sent from here on, and of the one before it only the line on the lanes
keeps its slot; a video frame is sent from its first active line on (R154, R157). -/
def beginFrame (s : State) (n : Nat) : State :=
  let h := s.head n
  let cmd := s.cmdMode n
  s.setHead n { h with
    lineT := s.linePeriod n, pushedPrev := h.pushed, pushed := 0,
    slots := if cmd then h.slots.filter (fun l => h.pkt.any (fun p => p.frame == l.frame && p.line == l.line)) else h.slots,
    sendFrame := if cmd then s.frame n else h.sendFrame, sendNext := if cmd then 0 else h.sendNext, line := 0, cyc := 0, inFrame := true,
    fbTime := s.tb, lineOld := [], arrOld := [], hits := [], hitLine := none, skipped := false, evals := [], otc := [], otcLine := none,
    vbound := true, suspect := h.keepSuspect }

/-- Whether line `l` of the frame is one to compose, or to evaluate for collision (R91). -/
def State.wantsLine (s : State) (n l : Nat) : Bool :=
  l < s.height n && ((s.inSet n l && s.unsent n l) || s.bit (SCENE_SPR_CTRL n) SCENE_SPR_CTRL_coll_full)

/-- Line `l` of the frame evaluated for sprites when it is wanted (R83). -/
def evalLine (s : State) (n l : Nat) : State := if s.wantsLine n l then evalSprites s n l else s

/-- The evaluation of the sprites of the line after the one in progress, in the period of this one (R83). -/
def spriteEval (s : State) (n : Nat) : State := if s.lineOpen n then evalLine s n ((s.head n).line + 1) else s

/-- The frame boundary of head `n`. Line 0 is evaluated with the keys as they then stand (R88). -/
def frameBoundary (s : State) (n : Nat) : State :=
  if !s.boundaryOk n then s
  else
    let s := palLate (landPixelWrites (endFrame s n) n) n
    let s := pipeBoundary (spriteBoundary (videoFlip (applyReady s n) n) n) n
    let s := evalLine (beginFrame (takeFrameSet (admitFrame (countFrame s n) n) n) n) n 0
    restate (reachLine (blkBoundary (beamBoundary s n) n) n 0) n

/-! ## The end of a composition line -/

/-- Line `l` of the frame set composed into a free slot. -/
def composeInto (s : State) (n l : Nat) : State :=
  let (s, bytes) := composePixels (palRun s n) n l (s.width n)
  s.setHead n { s.head n with slots := (s.head n).slots ++ [⟨s.frame n, l, bytes⟩] }

/-- Line `l` that is not composed: evaluated for collision when coll_full asks for it (R91, R116). -/
def passLine (s : State) (n l : Nat) : State :=
  let s := palRun s n
  if s.useBit n (SCENE_SPR_CTRL n) SCENE_SPR_CTRL_coll_full then collideLine s n l
  else s.setHead n { s.head n with skipped := true }

/-- The setup window of the next line opens: the line has by then been evaluated (R83), the values of the line just done fall away, a WAITL for the new line
releases, and the watermarks there fire (R100, R104, R110, R184). -/
def openLine (s : State) (n : Nat) : State :=
  let s := evalLine (landPixelWrites s n) n ((s.head n).line + 1)
  let h := s.head n
  let s := s.setHead n { h with line := h.line + 1, cyc := 0, lineOld := [], arrOld := [], evals := h.evals.filter (fun e => h.line + 1 ≤ e.line) }
  restate (reachLine (beamLineRelease s n) n (h.line + 1)) n

/-- Whether the sequencer of a head has done what a line passed over asks of it (R116). -/
def State.beamPast (s : State) (n : Nat) : Bool :=
  !s.beamRunning n || ((s.head n).wait == .line && (s.head n).line < (s.head n).target)

/-- The composition line in progress ends (R154): composed when it is in the frame set and a slot is free, else evaluated for collision at the same pace
(R91), or fast-forwarded (R116), as a line is that has gone out before it was composed (R156). -/
def composeLine (s : State) (n : Nat) : State :=
  let h := s.head n
  if !s.lineOpen n then s
  else if s.inSet n h.line && s.unsent n h.line then if 48 ≤ h.slots.length then s else openLine (composeInto s n h.line) n
  else if s.useBit n (SCENE_SPR_CTRL n) SCENE_SPR_CTRL_coll_full || s.beamPast n then openLine (passLine s n h.line) n
  else s

/-! ## The head's other events -/

/-- The last line of the frame is composed (R90). -/
def lastLineComposed (s : State) (n : Nat) : State :=
  if (s.head n).inFrame && s.height n ≤ (s.head n).line then lastLine s n else s

/-- A line packet due in command mode (R150): the next line of the frame set goes out, `k` pixels of it being composed when it is not
wholly so. -/
def linePacketStart (s : State) (n k : Nat) : State :=
  if !s.cmdMode n || !s.lanesFree n then s
  else match s.nextLine n (s.head n).sendNext with
    | some y => sendLine s n (s.frame n) y k
    | none => s

/-- Whether line `v` of a video frame is an active line. -/
def State.videoActive (s : State) (n v : Nat) : Bool := s.videoTop n ≤ v && v < s.videoTop n + s.height n

/-- A video line period starts (R157): an active line of a frame carries its pixel packet, a blanking line sync-event packets, and LP-11 when lp_blank asks
for it. The first active line begins the frame that the last boundary opened, and a boundary that lies at this line comes with it if it has not come yet. -/
def videoLineStart (s : State) (n k : Nat) : State :=
  if s.cmdMode n || !s.blkOn (blkHead n) || !s.geomOk n || (s.head n).starting then s
  else
    let s := frameBoundary s n
    let v := (s.head n).vline
    let s := s.setHead n { s.head n with vline := (v + 1) % max 1 (s.vTotal n), vbound := false }
    if s.videoActive n v then
      if (s.head n).inFrame && s.lanesFree n then
        sendLine s n (if v == s.videoTop n then s.frame n else (s.head n).sendFrame) (v - s.videoTop n) k
      else s
    else putLanes s n (if s.bit (HEAD_CTRL n) HEAD_CTRL_lp_blank then [.sync, .lp11] else [.sync])

/-- Whether a video head is in vertical blanking: the line period in progress is no active line. -/
def State.videoBlank (s : State) (n : Nat) : Bool :=
  let v := s.vTotal n
  !s.videoActive n (((s.head n).vline + v - 1) % max 1 v)

/-- The bus is the head's again (R145). -/
def busReturns (s : State) (n : Nat) : State := (s.setHead n { s.head n with bta := none }).setBit (HEAD_STAT n) HEAD_STAT_bta_stuck false

/-- A TE sample comes (R145, R146): on the edge of the pin that HEAD_n_TE.falling selects, or with a trigger message, whose time is less the compensation and
with which the bus is the head's again. In video mode, or with another TE source, it gives no sample. -/
def teEvent (s : State) (n : Nat) (te : TeFrom) : State :=
  let src := s.fld (HEAD_CTRL n) HEAD_CTRL_te_src
  let takes := s.blkOn (blkHead n) && s.cmdMode n
  match te with
  | .trigger =>
    if (s.head n).bta.isNone && !s.bit (HEAD_STAT n) HEAD_STAT_bta_stuck then s
    else
      let s := busReturns s n
      if takes && src == 1 then restate (teSample s n (s.tb - s.fld (HEAD_TE n) HEAD_TE_comp / 4)) n else s
  | .edge falling =>
    if takes && src == 0 && falling == s.bit (HEAD_TE n) HEAD_TE_falling then restate (teSample s n s.tb) n else s

/-- The head hands the bus to the panel when the modelled scan reaches te_line - 4 (R145), unless a line packet is on the lanes or due (`due`) while the scan
passes there; that period then gives no sample and is not counted as missing. Before the model is seeded no line packet is due and no scan is modelled, and the
head hands the bus over at any time (DESIGN CHOICE: R145 gives no time then; assumption 110). -/
def btaRequest (s : State) (n : Nat) (due : Bool) : State :=
  let h := s.head n
  let seeded := s.bit (HEAD_BEAM n) HEAD_BEAM_seeded
  if !s.blkOn (blkHead n) || !s.cmdMode n || s.fld (HEAD_CTRL n) HEAD_CTRL_te_src != 1 then s
  else if h.bta.isSome || s.bit (HEAD_STAT n) HEAD_STAT_bta_stuck then s
  else if seeded && (due || !s.lanesFree n) then s.setHead n { h with teSkip := true }
  else if s.lanesFree n then s.setHead n { h with bta := some s.tb, out := [.turnaround] }
  else s

/-- The panel has not returned the bus within 2P (R145). -/
def btaTimeout (s : State) (n : Nat) : State :=
  if s.blkOn (blkHead n) && (s.head n).bta.isSome then s.setBit (HEAD_STAT n) HEAD_STAT_bta_stuck true else s

/-- A write of PKT_CTRL.go (R143). -/
def packetSend (s : State) (n : Nat) (w : Word) : State := s.writeCodes (HEAD_PKT_CTRL n) (setF w HEAD_PKT_CTRL_go 1)

/-- Whether a firmware packet may go out now (R143): the lanes are idle, in video mode in vertical blanking. -/
def State.packetMay (s : State) (n : Nat) : Bool := s.lanesFree n && (s.cmdMode n || s.videoBlank n)

/-- Bytes 0 to 15 of a head's packet data registers. -/
def State.packetData (s : State) (n : Nat) : List Byte := (List.range 4).flatMap (fun k => leBytes 4 (s.reg (HEAD_PKT_DATA n k)).toNat)

/-- The firmware packet that PKT_CTRL and PKT_DATA describe (R143): a long packet with the first wc bytes of the data registers, of which there are 16, or a
short packet whose parameters are wc. Which data types are long is MIPI DSI's (PRESUMED; assumption 111). -/
def State.firmwarePacket (s : State) (n : Nat) : List Byte :=
  let r := HEAD_PKT_CTRL n
  let wc := s.fld r HEAD_PKT_CTRL_wc
  if dsiLong (s.fld r HEAD_PKT_CTRL_dtype) then longPacket (s.fld r HEAD_PKT_CTRL_dtype) ((s.packetData n).take wc)
  else shortPacket (s.fld r HEAD_PKT_CTRL_dtype) wc

/-- A firmware packet has been sent (R143): with bta the bus has then been the panel's and is the head's again, the response is stored, up to 16 bytes, and go
clears. -/
def packetDone (s : State) (n : Nat) (resp : List Byte) (err : Bool) : State :=
  let r := HEAD_PKT_CTRL n
  if s.bit r HEAD_PKT_CTRL_go && s.packetMay n then
    let bta := s.bit r HEAD_PKT_CTRL_bta
    let s := putLanes s n ([.packet (s.bit r HEAD_PKT_CTRL_lp) (s.firmwarePacket n)] ++ (if bta then [.turnaround] else []) ++ [.lp11])
    let got := if bta then resp.take 16 else []
    let s := (storeResponse s n got).setFld r HEAD_PKT_CTRL_resp_len got.length
    (if err then s.setBit r HEAD_PKT_CTRL_err true else s).setBit r HEAD_PKT_CTRL_go false
  else s

/-- The deskew burst has ended, or a start without one (R144, R160): the start commands leave, and in command mode the head waits for its model to be
seeded. -/
def deskewDone (s : State) (n : Nat) : State :=
  if s.blkOn (blkHead n) && (s.head n).starting then startSending (s.setHead n { s.head n with deskewed := true }) n else s

end Sys2Proof.Machine
end

