-- ==== Sys2Proof/Machine/Blk.lean ====
section
/-! DEFINITION. The block engine (chapter 9): surfaces, the checks of a command, the bursts of destination pixels in the order that an
overlap requires, the operations, waits and signals. A reset block engine stands where `BlkSt.mk 0 0 none .none` says. -/

namespace Sys2Proof.Machine

/-! ## Surfaces (R177) -/

/-- A surface descriptor (Table 9-1). -/
structure Surf where
  base : Nat
  height : Nat
  width : Nat
  format : Nat
  stride : Nat
  clut : Nat
deriving DecidableEq, Repr

/-- The bits of a pixel of a surface format (Table 9-2); 0 for the reserved one. -/
def surfBits (f : Nat) : Nat := [2, 4, 8, 8, 16, 32, 1].getD f 0

/-- A surface descriptor from its 16 bytes. -/
def surfOf (v : Nat) : Surf := ⟨bitsN v 31 0, bitsN v 63 48, bitsN v 47 32, bitsN v 95 93, bitsN v 83 64, bitsN v 127 106 * 1024⟩

/-- The bit address of pixel (x, y). -/
def Surf.bitAt (f : Surf) (x y : Nat) : Nat := (f.base + y * f.stride) * 8 + x * surfBits f.format

/-- What a step of the block engine gives: the state, a value, and whether it went without an error or poison response. -/
structure Blked where
  s : State
  val : Nat
  ok : Bool

/-- A read of `n` bytes by the block engine, as a little-endian number. -/
def blkRead (s : State) (a n : Nat) : Blked :=
  let r := memRead s (scenePort a) a n []
  ⟨r.s, leOf r.data, !r.err && !r.poison⟩

/-- The descriptor of surface `i`. -/
def blkSurf (s : State) (i : Nat) : Blked := blkRead s (s.fld BLK_SURF BLK_SURF_base * 1024 + 16 * i) 16

/-! ## Commands (Tables 9-3 to 9-5) -/

/-- The fields of a command's words. -/
def cmdOp (w : List Nat) : Nat := bitsN (w.getD 0 0) 31 28
def cmdDst (w : List Nat) : Nat := bitsN (w.getD 0 0) 27 22
def cmdSrc (w : List Nat) : Nat := bitsN (w.getD 0 0) 21 16
def cmdMode (w : List Nat) : Nat := bitsN (w.getD 0 0) 15 12
def cmdLow (w : List Nat) (i : Nat) : Nat := bitsN (w.getD i 0) 15 0
def cmdHigh (w : List Nat) (i : Nat) : Nat := bitsN (w.getD i 0) 31 16

/-- Whether an operation reads a source surface. -/
def opReads (op : Nat) : Bool := op == 1 || op == 3 || op == 4 || op == 5

/-- Whether Table 9-4 permits the formats of an operation, and the blend mode of BLEND (R179). -/
def formatsOk (op src dst mode : Nat) : Bool :=
  match op with
  | 1 => src < 7 && dst < 7 && surfBits src == surfBits dst
  | 2 => dst < 7
  | 3 => (src == 5 || src == 4 || src == 3) && (dst == 5 || dst == 4) && mode < 7
  | 4 => (src < 3 && (dst == 5 || dst == 4)) || (src == 5 && (dst == 4 || dst == 3)) || ((src == 4 || src == 3) && dst == 5)
  | _ => src == 6 && dst < 6

/-- Whether the rectangle of a command lies within a surface, from the corner in word `i`. -/
def rectIn (w : List Nat) (i : Nat) (f : Surf) : Bool := cmdLow w i + cmdLow w 3 ≤ f.width && cmdHigh w i + cmdHigh w 3 ≤ f.height

/-- The first byte of a command's rectangle on a surface, and the byte after its last (R182). -/
def rectExtent (w : List Nat) (i : Nat) (f : Surf) : Nat × Nat :=
  (f.bitAt (cmdLow w i) (cmdHigh w i) / 8, (f.bitAt (cmdLow w i + cmdLow w 3) (cmdHigh w i + cmdHigh w 3 - 1) + 7) / 8)

/-- Whether the extents of a command's source and destination intersect. -/
def rectsMeet (w : List Nat) (src dst : Surf) : Bool :=
  let a := rectExtent w 1 src
  let b := rectExtent w 2 dst
  opReads (cmdOp w) && a.1 < b.2 && b.1 < a.2

/-- The error code of the first check of Table 9-5 that a command fails, 0 when it passes them. -/
def cmdCheck (w : List Nat) (src dst : Surf) : Nat :=
  if !formatsOk (cmdOp w) src.format dst.format (cmdMode w) then 2
  else if (opReads (cmdOp w) && !rectIn w 1 src) || !rectIn w 2 dst then 3
  else if rectsMeet w src dst && !(src.base == dst.base && src.stride == dst.stride && surfBits src.format == surfBits dst.format) then 4
  else 0

/-- The 256-byte block of memory in which pixel (x, y) starts, and that in which it ends. -/
def Surf.blockOf (f : Surf) (x y : Nat) : Nat × Nat := (f.bitAt x y / 2048, (f.bitAt (x + 1) y - 1) / 2048)

/-- One row of destination pixels cut where its target crosses a 256-byte boundary (R183): first pixel and count, from pixel `x` on. A pixel that straddles a
boundary stands alone. -/
def cutRow (dst : Surf) (dx dy width : Nat) : Nat → Nat → List (Nat × Nat)
  | 0, _ => []
  | fuel + 1, x =>
    if width ≤ x then []
    else
      let b := dst.blockOf (dx + x) dy
      let more := if b.1 != b.2 then 1
        else ((List.range (width - x)).find? (fun i => dst.blockOf (dx + x + i) dy != b)).getD (width - x)
      (x, more) :: cutRow dst dx dy width fuel (x + max 1 more)

/-- The bursts of a command, in the traversal of R182: row, first pixel and count within the rectangle. -/
def cmdSpans (w : List Nat) (src dst : Surf) : List (Nat × Nat × Nat) :=
  let width := cmdLow w 3
  let height := cmdHigh w 3
  let meet := rectsMeet w src dst
  let up := meet && cmdHigh w 1 < cmdHigh w 2
  let left := meet && cmdLow w 1 < cmdLow w 2
  let rows := if up then (List.range height).reverse else List.range height
  rows.flatMap fun r =>
    let cuts := cutRow dst (cmdLow w 2) (cmdHigh w 2 + r) width width 0
    (if left then cuts.reverse else cuts).map (fun c => (r, c.1, c.2))

/-! ## Pixels -/

/-- A 5- or 6-bit channel as a 10-bit one by bit replication (R179). -/
def widen5 (c : Nat) : Nat := c * 33
def widen6 (c : Nat) : Nat := c * 16 + c / 4

/-- The 10-bit colour of an RGB565 pixel. -/
def rgb565 (v : Nat) : Rgb := (widen5 (bitsN v 15 11), widen6 (bitsN v 10 5), widen5 (bitsN v 4 0))

/-- An RGB565 pixel as ARGB8888, by bit replication with alpha 255 (Table 9-4). -/
def argbOf565 (v : Nat) : Nat :=
  let r := bitsN v 15 11
  let g := bitsN v 10 5
  let b := bitsN v 4 0
  0xFF000000 + (r * 8 + r / 4) * 0x10000 + (g * 4 + g / 16) * 0x100 + (b * 8 + b / 4)

/-- An ARGB8888 pixel as RGB565 (Table 9-4). -/
def to565 (v : Nat) : Nat := bitsN v 23 19 * 2048 + bitsN v 15 10 * 32 + bitsN v 7 3

/-- An ARGB8888 value in a CONVERT destination format. -/
def convertTo (fmt v : Nat) : Nat := if fmt == 4 then to565 v else v

/-- A 10-bit result channel as an 8-bit one (R179). -/
def narrow8 (v : Nat) : Nat := min 255 ((v + 2) / 4)

/-- The source colour and alpha of a BLEND. -/
def blendSource (w : List Nat) (fmt v : Nat) : Rgb × Nat :=
  if fmt == 5 then (rgbOf v, bitsN v 31 24) else if fmt == 4 then (rgb565 v, 255) else (rgbOf (w.getD 4 0), v)

/-- The result of a BLEND on a destination pixel (R179). -/
def blendPixel (w : List Nat) (src dst : Surf) (v old : Nat) : Nat :=
  let (c, a) := blendSource w src.format v
  let m := bitsN (w.getD 6 0) 7 0
  let ae := effAlpha a m
  let d := if dst.format == 5 then rgbOf old else rgb565 old
  let f := fun s d => narrow8 (blendChannel (cmdMode w) s d ae m)
  let argb := f c.1 d.1 * 0x10000 + f c.2.1 d.2.1 * 0x100 + f c.2.2 d.2.2
  if dst.format == 5 then (ae * 255 + bitsN old 31 24 * (255 - ae) + 127) / 255 * 0x1000000 + argb else to565 argb

/-- The value of a destination pixel from its source pixel, its old value and, for an indexed source, its clut entry (Table 9-4); none
where EXPAND writes nothing. -/
def cmdPixel (w : List Nat) (src dst : Surf) (v old clut : Nat) : Option Nat :=
  match cmdOp w with
  | 1 => some v
  | 2 => some (w.getD 4 0 % 2 ^ surfBits dst.format)
  | 3 => some (blendPixel w src dst v old)
  | 4 =>
    some (if src.format < 3 then convertTo dst.format clut
      else if src.format == 5 then (if dst.format == 3 then bitsN v 31 24 else to565 v)
      else if src.format == 4 then argbOf565 v
      else v * 0x1000000 + w.getD 4 0 % 0x1000000)
  | _ =>
    if v == 1 then some (w.getD 4 0 % 2 ^ surfBits dst.format)
    else if (cmdMode w).testBit 0 then none
    else some (w.getD 5 0 % 2 ^ surfBits dst.format)

/-! ## A burst -/

/-- `n` bytes from `a` on read in bursts that end at 256-byte boundaries (R183), at most `fuel` of them; the first that fails ends it. -/
def readBursts (s : State) (a n : Nat) : Nat → Blked
  | 0 => ⟨s, 0, true⟩
  | fuel + 1 =>
    let k := min n (256 - a % 256)
    let r := blkRead s a k
    if !r.ok || n ≤ k then r
    else
      let rest := readBursts r.s (a + k) (n - k) fuel
      { rest with val := r.val + rest.val * 2 ^ (8 * k) }

/-- The pixels of a run of a row, first pixel at (x, y): the bytes that hold them read once (R183). -/
def readRun (s : State) (f : Surf) (x y cnt : Nat) : State × Bool × (Nat → Nat) :=
  let lo := f.bitAt x y / 8
  let hi := (f.bitAt (x + cnt) y + 7) / 8
  let r := readBursts s lo (hi - lo) ((hi - lo) / 256 + 2)
  (r.s, r.ok, fun i => r.val / 2 ^ (f.bitAt (x + i) y - lo * 8) % 2 ^ surfBits f.format)

/-- The clut entries that some pixels of an indexed CONVERT source name. -/
def readClut (s : State) (w : List Nat) (src : Surf) : List Nat → State × Bool × List Nat
  | [] => (s, true, [])
  | v :: vs =>
    if cmdOp w == 4 && src.format < 3 then
      let r := blkRead s (src.clut + 4 * v) 4
      let (s, ok, es) := readClut r.s w src vs
      (s, r.ok && ok, r.val :: es)
    else
      let (s, ok, es) := readClut s w src vs
      (s, ok, 0 :: es)

/-- The first run of pixels that are written, of those from pixel `x` on: its first pixel, its values, and what follows it. -/
def nextRun (x : Nat) : List (Option Nat) → Nat × List Nat × Nat × List (Option Nat)
  | [] => (x, [], x, [])
  | none :: vs => nextRun (x + 1) vs
  | some v :: vs =>
    let run := (vs.takeWhile Option.isSome).filterMap id
    (x, v :: run, x + 1 + run.length, vs.drop run.length)

/-- Bytes written by the block engine. -/
def blkWriteBytes (s : State) (a : Nat) (bs : List Byte) : Blked :=
  let r := memWrite s (scenePort a) a bs []
  ⟨r.s, 0, !r.err⟩

/-- Pixels of whole bytes written from pixel `x` of row `y` on, each run of them as one burst; the first error response ends it. -/
def writeRuns (s : State) (f : Surf) (y : Nat) : Nat → Nat → List (Option Nat) → Blked
  | 0, _, _ => ⟨s, 0, true⟩
  | fuel + 1, x, vs =>
    let (first, run, next, rest) := nextRun x vs
    if run.isEmpty then ⟨s, 0, true⟩
    else
      let r := blkWriteBytes s (f.bitAt first y / 8) (run.flatMap (leBytes (surfBits f.format / 8)))
      if r.ok then writeRuns r.s f y fuel next rest else r

/-- Bytes from address `a` on, each given by the bits that a write covers and their values: one that it covers in part takes its other bits from a read, and
one that it does not touch is none. -/
def fillBytes (s : State) (a : Nat) : List (Nat × Nat) → State × Bool × List (Option Nat)
  | [] => (s, true, [])
  | (mask, v) :: rest =>
    let r := if mask == 0 || mask == 255 then ⟨s, 0, true⟩ else blkRead s a 1
    if !r.ok then (r.s, false, [])
    else
      let (s, ok, bs) := fillBytes r.s (a + 1) rest
      (s, ok, (if mask == 0 then none else some (v + (r.val &&& (255 - mask)))) :: bs)

/-- Pixels smaller than a byte written from pixel `x` of row `y` on: of the bytes that hold them, those that they do not fill are read first. -/
def writePacked (s : State) (f : Surf) (y x : Nat) (vs : List (Option Nat)) : Blked :=
  let bits := surfBits f.format
  let lo := f.bitAt x y / 8
  let n := (f.bitAt (x + vs.length) y + 7) / 8 - lo
  let put (acc : Nat × Nat) (e : Option Nat × Nat) : Nat × Nat :=
    match e.1 with
    | some v => let at_ := 2 ^ (f.bitAt (x + e.2) y - lo * 8); (acc.1 + (2 ^ bits - 1) * at_, acc.2 + v % 2 ^ bits * at_)
    | none => acc
  let (mask, val) := vs.zipIdx.foldl put (0, 0)
  let (s, ok, bs) := fillBytes s lo ((List.range n).map (fun i => (mask / 256 ^ i % 256, val / 256 ^ i % 256)))
  if ok then writeRuns s { f with base := lo, stride := 0, format := 2 } 0 (n + 1) 0 bs else ⟨s, 0, false⟩

/-- The pixels of a burst written from pixel `x` of row `y` on (R183). Of a pixel that straddles a 256-byte boundary the part before it is written, and the
rest is left for the next burst. -/
def writeBurst (s : State) (f : Surf) (y x : Nat) (vs : List (Option Nat)) : Blked × Option (Nat × List Byte) :=
  let b := f.blockOf x y
  if surfBits f.format < 8 then (writePacked s f y x vs, none)
  else match b.1 == b.2, vs with
    | false, some v :: _ =>
      let bytes := leBytes (surfBits f.format / 8) v
      let a := f.bitAt x y / 8
      let n := 256 - a % 256
      (blkWriteBytes s a (bytes.take n), some (a + n, bytes.drop n))
    | _, _ => (writeRuns s f y (vs.length + 1) x vs, none)

/-- One burst of a command: its source, and for BLEND its destination, read, then its pixels written (R183). -/
def moveSpan (s : State) (w : List Nat) (src dst : Surf) (e : Nat × Nat × Nat) : Blked × Option (Nat × List Byte) :=
  let (row, x, cnt) := e
  let sx := cmdLow w 1 + x
  let sy := cmdHigh w 1 + row
  let dx := cmdLow w 2 + x
  let dy := cmdHigh w 2 + row
  let (s, ok1, sv) := if opReads (cmdOp w) then readRun s src sx sy cnt else (s, true, fun _ => 0)
  let (s, ok2, dv) := if cmdOp w == 3 then readRun s dst dx dy cnt else (s, true, fun _ => 0)
  let (s, ok3, cl) := if ok1 && ok2 then readClut s w src ((List.range cnt).map sv) else (s, false, [])
  if !ok3 then (⟨s, 0, false⟩, none)
  else writeBurst s dst dy dx ((List.range cnt).map (fun i => cmdPixel w src dst (sv i) (dv i) (cl.getD i 0)))

/-! ## The list (R180, R181) -/

/-- Whether a list is in progress and the engine may act on it. -/
def State.blkRunning (s : State) : Bool := s.bit BLK_STAT BLK_STAT_running && s.blkOn 8

/-- The first error since the last clear is recorded with its command's index (R180). -/
def blkErr (s : State) (code : Nat) : State :=
  if s.fld BLK_STAT BLK_STAT_err == 0 then
    (s.setFld BLK_STAT BLK_STAT_err code).setFld BLK_STAT BLK_STAT_err_cmd s.blk.idx
  else s

/-- The list stops. -/
def blkStop (s : State) : State :=
  { s.setBit BLK_STAT BLK_STAT_running false with blk := { s.blk with job := none, wait := .none } }

/-- An error or poison response stops the list (R181). -/
def blkFail (s : State) : State := blkStop (blkErr s 5)

/-- The engine goes on to the next command. -/
def blkAdvance (s : State) : State := { s with blk := { s.blk with idx := s.blk.idx + 1, job := none, wait := .none } }

/-- A command has been executed, and the engine goes on. -/
def blkDone (s : State) : State := blkAdvance (s.count BLK_CNT BLK_CNT_commands)

/-- A command is rejected with an error code, and the engine goes on (R180). -/
def blkReject (s : State) (code : Nat) : State := blkAdvance ((blkErr s code).count BLK_CNT BLK_CNT_rejected)

/-- A write of BLK_CTRL.go (R181): ignored while a list runs, or the engine is not ON. -/
def blkGo (s : State) : State :=
  if s.bit BLK_STAT BLK_STAT_running || !s.blkOn 8 then s
  else { s.setBit BLK_STAT BLK_STAT_running true with blk := ⟨(s.reg BLK_LIST).toNat, 0, none, .none⟩ }

/-- A write of BLK_CTRL.abort: the list stops, the bursts issued being complete. -/
def blkAbort (s : State) : State := if s.bit BLK_STAT BLK_STAT_running then blkStop s else s

/-- A write of BLK_CTRL. -/
def blkCtrlWrite (s : State) (w : Word) : State :=
  let s := if bitOf w BLK_CTRL_abort then blkAbort s else s
  if bitOf w BLK_CTRL_go then blkGo s else s

/-- The eight words of the command at hand: those of the one under way, else fetched from the list. -/
def blkFetch (s : State) : State × Bool × List Nat :=
  match s.blk.job with
  | some j => (s, true, j.words)
  | none =>
    let r := blkRead s (s.blk.base + 32 * s.blk.idx) 32
    (r.s, r.ok, (List.range 8).map (fun i => bitsN r.val (32 * i + 31) (32 * i)))

/-- The command at hand, of an operation that `want` admits, taken up by `f`; nothing where the engine waits, or the command is another
one. A failed fetch stops the list. -/
def blkTake (s : State) (want : Nat → Bool) (f : State → List Nat → State) : State :=
  if !s.blkRunning || s.blk.wait != .none then s
  else
    let (t, ok, w) := blkFetch s
    if !ok then blkFail t else if want (cmdOp w) then f t w else s

/-- END, and a reserved opcode (R178, R180). -/
def blkEnd (s : State) : State :=
  blkTake s (fun op => op == 0 || 9 ≤ op) fun s w =>
    let s := if cmdOp w == 0 then s.count BLK_CNT BLK_CNT_commands else (blkErr s 1).count BLK_CNT BLK_CNT_rejected
    fireTrigger ((blkStop s).setBit BLK_STAT BLK_STAT_done true) 21

/-- The bursts of a drawing command moved one after another, `fuel` of them, what a straddling pixel left over first; a failed one stops the list. -/
def moveSpans (s : State) (w : List Nat) (src dst : Surf) : Nat → Option (Nat × List Byte) → List (Nat × Nat × Nat) → State
  | _, none, [] => blkDone s
  | 0, tail, es => { s with blk := { s.blk with job := some ⟨w, es, tail⟩ } }
  | fuel + 1, some (a, bs), es =>
    let r := blkWriteBytes s a bs
    if r.ok then moveSpans r.s w src dst fuel none es else blkFail r.s
  | fuel + 1, none, e :: es =>
    let r := moveSpan s w src dst e
    if r.1.ok then moveSpans r.1.s w src dst fuel r.2 es else blkFail r.1.s

/-- A drawing command checked and moved by up to `fuel` bursts (R180 to R183). -/
def blkDraw (s : State) (w : List Nat) (fuel : Nat) : State :=
  let d := blkSurf s (cmdDst w)
  if !d.ok then blkFail d.s
  else
    let r := if opReads (cmdOp w) then blkSurf d.s (cmdSrc w) else d
    if !r.ok then blkFail r.s
    else
      let src := surfOf r.val
      let dst := surfOf d.val
      match r.s.blk.job with
      | some j => moveSpans r.s w src dst fuel j.tail j.spans
      | none =>
        match cmdCheck w src dst with
        | 0 => moveSpans r.s w src dst fuel none (cmdSpans w src dst)
        | code => blkReject r.s code

/-- More bursts than any command has. -/
def allSpans : Nat := 2 * 4096 * 4097

/-- A drawing command of operation `op` carried to its end. -/
def blkRun (s : State) (op : Nat) : State := blkTake s (fun o => o == op) (fun s w => blkDraw s w allSpans)

/-- One burst of the drawing command at hand (R183). -/
def blkBurst (s : State) : State := blkTake s (fun o => o == 2 || opReads o) (fun s w => blkDraw s w 1)

/-- WAIT issues: it waits for the next occurrence of its trigger. -/
def blkWait (s : State) : State :=
  blkTake s (· == 6) fun s w => { s with blk := { s.blk with wait := .trig (cmdSrc w) } }

/-- Whether the current line of head `n` is at or beyond line `l` in the current frame. -/
def State.lineReached (s : State) (n l : Nat) : Bool := (s.head n).inFrame && l ≤ (s.head n).line

/-- WAITLINE issues (R185): on a head that is OFF it releases at once and sets wait_off, and with next at 0 at once where the line has been reached. -/
def blkWaitLine (s : State) : State :=
  blkTake s (· == 7) fun s w =>
    let n := bitsN (w.getD 0 0) 27 26
    let l := min (bitsN (w.getD 0 0) 11 0) (s.height n)
    if s.blkState (blkHead n) == 0 then blkDone (s.setBit BLK_STAT BLK_STAT_wait_off true)
    else if (w.getD 0 0).testBit 25 then { s with blk := { s.blk with wait := .boundary n l } }
    else if s.lineReached n l then blkDone s
    else { s with blk := { s.blk with wait := .line n l } }

/-- Whether the engine's wait is over. -/
def State.blkReleased (s : State) : Bool :=
  match s.blk.wait with
  | .hit => true
  | .line n l => s.blkState (blkHead n) == 0 || s.lineReached n l
  | .boundary n _ => s.blkState (blkHead n) == 0
  | _ => false

/-- The wait is over and the engine goes on. A head that went OFF meanwhile releases a WAITLINE with wait_off. -/
def blkRelease (s : State) : State :=
  if s.blkRunning && s.blkReleased then
    let off := match s.blk.wait with
      | .line n _ => s.blkState (blkHead n) == 0
      | .boundary n _ => s.blkState (blkHead n) == 0
      | _ => false
    blkDone (if off then s.setBit BLK_STAT BLK_STAT_wait_off true else s)
  else s

/-- SIG (Table 9-4). -/
def blkSig (s : State) : State :=
  blkTake s (· == 8) fun s w =>
    blkDone (s.setFld BLK_STAT BLK_STAT_sig (s.fld BLK_STAT BLK_STAT_sig ||| 2 ^ bitsN (w.getD 0 0) 2 0))

/-- A register write to the BLK block: BLK_STAT.err clears only by 0xF. -/
def blkWrite (s : State) (a : Nat) (w : Word) : State :=
  if a == BLK_CTRL then blkCtrlWrite s w
  else if a == BLK_STAT then
    let e := s.fld BLK_STAT BLK_STAT_err
    (s.writeCodes a w).setFld BLK_STAT BLK_STAT_err (if getF w BLK_STAT_err == 0xF then 0 else e)
  else s.writeCodes a w

end Sys2Proof.Machine
end

