-- ==== Sys2Proof/Machine/Dma.lean ====
section
/-! DEFINITION. The control of the DMA channels (R187 to R193): go, abort, pause, software triggers and waits. The transfers themselves are in
DmaRun. -/

namespace Sys2Proof.Machine

/-- A field of the descriptor in a channel's working registers (Table 9-6). -/
def DmaCh.w (c : DmaCh) (i hi lo : Nat) : Nat := bitsN (c.words.getD i 0) hi lo
def DmaCh.src (c : DmaCh) : Nat := c.w 0 31 0
def DmaCh.dst (c : DmaCh) : Nat := c.w 1 31 0
def DmaCh.lines (c : DmaCh) : Nat := c.w 2 31 16 + 1
def DmaCh.len (c : DmaCh) : Nat := c.w 2 15 0 + 1
def DmaCh.srcStride (c : DmaCh) : Nat := c.w 3 31 0
def DmaCh.dstStride (c : DmaCh) : Nat := c.w 4 31 0
def DmaCh.srcFix (c : DmaCh) : Bool := c.w 5 2 2 == 1
def DmaCh.dstFix (c : DmaCh) : Bool := c.w 5 1 1 == 1

/-- The address on a side at a place in the descriptor. -/
def dmaAddr (start stride line byte : Nat) (fix : Bool) : Nat := if fix then start else (start + line * stride + byte) % 2 ^ 32

/-- The source address of the burst at hand of channel `k`. -/
def State.dmaFrom (s : State) (k : Nat) : Nat :=
  let c := s.dmaCh k
  dmaAddr c.src c.srcStride (s.fld (DMA_CH_POS k) DMA_CH_POS_line) (s.fld (DMA_CH_POS k) DMA_CH_POS_byte) c.srcFix

/-- The state that a DMA channel reports, set. -/
def setDmaState (s : State) (k v : Nat) : State := s.setFld (DMA_CH_STAT k) DMA_CH_STAT_state v

/-- A channel that needs a trigger before it goes on takes a pending one, else waits (R190). -/
def dmaAwait (s : State) (k : Nat) : State :=
  let r := DMA_CH_STAT k
  if s.bit r DMA_CH_STAT_trig_pend then
    ((setDmaState s k 1).setBit r DMA_CH_STAT_trig_pend false).setDma k { s.dmaCh k with phase := .move }
  else (setDmaState s k 2).setDma k { s.dmaCh k with phase := .lineStart }

/-- The chain of a channel ends: it is IDLE. -/
def dmaIdle (s : State) (k : Nat) : State :=
  (setDmaState s k 0).setDma k DmaCh.init

/-- The chain ends by abort (R192). -/
def dmaAborted (s : State) (k : Nat) : State := (dmaIdle s k).setBit (DMA_CH_STAT k) DMA_CH_STAT_aborted true

/-- The chain ends by an error: its code and the channel's event (R192). -/
def dmaError (s : State) (k code : Nat) : State :=
  let s := (dmaIdle s k).setFld (DMA_CH_STAT k) DMA_CH_STAT_err code
  s.setFld DMA_INT_STAT DMA_INT_STAT_error (s.fld DMA_INT_STAT DMA_INT_STAT_error ||| 2 ^ k)

/-- A write of go: an IDLE channel starts at its descriptor, PAUSED while pause is 1 (R191); the engine must be ON. -/
def dmaGo (s : State) (k : Nat) : State :=
  if s.dmaState k != 0 || !s.blkOn 13 then s
  else
    let st := cond (s.bit (DMA_CH_CTRL k) DMA_CH_CTRL_pause) 3 1
    let s := ((setDmaState s k st).setFld (DMA_CH_STAT k) DMA_CH_STAT_err 0).setReg (DMA_CH_POS k) 0
    s.setDma k { DmaCh.init with desc := s.fld (DMA_CH_DESC k) DMA_CH_DESC_addr }

/-- A write of abort (R192): at once, or after the burst that is issued. -/
def dmaAbort (s : State) (k : Nat) : State :=
  if s.dmaState k == 0 then s
  else if (s.dmaCh k).burst.isSome then s.setDma k { s.dmaCh k with abort := true }
  else dmaAborted s k

/-- pause is 1 (R191): a channel with no burst issued is PAUSED at once. -/
def dmaPause (s : State) (k : Nat) : State :=
  let s := s.setBit (DMA_CH_CTRL k) DMA_CH_CTRL_pause true
  if s.dmaState k == 0 || (s.dmaCh k).burst.isSome then s else setDmaState s k 3

/-- pause is 0 (R191): the channel goes on from POS, or with its wait. -/
def dmaResume (s : State) (k : Nat) : State :=
  let s := s.setBit (DMA_CH_CTRL k) DMA_CH_CTRL_pause false
  if s.dmaState k == 3 then
    let s := setDmaState s k 1
    if (s.dmaCh k).phase == .lineStart then dmaAwait s k else s
  else s

/-- A write of DMA_CH_k_CTRL: abort before pause and go, then a software trigger (R190 to R192). -/
def dmaCtrlWrite (s : State) (k : Nat) (w : Word) : State :=
  let s := s.setFld (DMA_CH_CTRL k) DMA_CH_CTRL_prio (getF w DMA_CH_CTRL_prio)
  let s := if bitOf w DMA_CH_CTRL_abort then (dmaAbort s k).setBit (DMA_CH_CTRL k) DMA_CH_CTRL_pause (bitOf w DMA_CH_CTRL_pause)
    else
      let s := if bitOf w DMA_CH_CTRL_go then dmaGo s k else s
      if bitOf w DMA_CH_CTRL_pause then dmaPause s k else dmaResume s k
  if bitOf w DMA_CH_CTRL_trig_sw then dmaOccurrence s k 63 else s

/-- A register write to the DMA block: DESC takes no write while its channel is not IDLE. -/
def dmaWrite (s : State) (a : Nat) (w : Word) : State :=
  let off := a - 0x400B0000
  if off < 0x200 ∧ off % 0x20 = 0 then dmaCtrlWrite s (off / 0x20) w
  else if off < 0x200 ∧ off % 0x20 = 4 ∧ s.dmaState (off / 0x20) ≠ 0 then s
  else s.writeCodes a w

/-- A register read of the DMA block: DESC reads the current descriptor while its channel is not IDLE. -/
def dmaRead (s : State) (a : Nat) : State × Word :=
  let off := a - 0x400B0000
  let k := off / 0x20
  if off < 0x200 ∧ off % 0x20 = 4 ∧ s.dmaState k ≠ 0 then (s, setF 0 DMA_CH_DESC_addr (s.dmaCh k).desc)
  else (s.readClears a, s.readCodes a)

/-- A trigger of Table 9-8 occurs: numbers 0 and 42 to 62 never do, and 63 is a channel's own (R193). -/
def dmaTrigger (s : State) (t : Nat) : State := if 1 ≤ t && t ≤ 41 then fireTrigger s t else s

end Sys2Proof.Machine
end

