-- ==== Sys2Proof/Machine/Audio.lean ====
section
/-! DEFINITION. The audio island (chapter 10): the latch at block boundaries, voices and their formats, buses, effect programs, routes and
ramps, and the serial ports. -/

namespace Sys2Proof.Machine

/-! ## Values and ramps -/

/-- A value saturated to 24 bits, signed. -/
def sat24 (x : Int) : Int := clampI (-8388608) 8388607 x

/-- A value saturated to 32 bits, signed. -/
def sat32 (x : Int) : Int := clampI (-2147483648) 2147483647 x

/-- The signed value of a word. -/
def sval (w : Word) : Int := w.toInt

/-- A product divided by `2 ^ 20`, an inexact one rounded one way or the other (assumption 30). -/
def amp (x g : Int) : Int := x * g / 1048576 + (if x * g % 1048576 = 0 then 0 else ((Config.audioRound x g).val : Int))

/-- The gain of sample `i` of a block in which a gain goes from `g0` to `g1`, in units of 1 / 2 ^ 20 (R203). -/
def ramp (g0 g1 : Nat) (i : Nat) : Int := 32 * (g0 : Int) + ((g1 : Int) - g0) * ((i + Config.rampPhase.val : Nat) : Int)

/-- Samples with a gain that goes from `g0` to `g1` over the block. -/
def ramped (g0 g1 : Nat) (xs : List Int) : List Int :=
  (List.zip (List.range xs.length) xs).map (fun e => if g0 == g1 then amp e.2 (32 * (g1 : Int)) else amp e.2 (ramp g0 g1 e.1))

/-- Two lists of samples added. -/
def mix (xs ys : List Int) : List Int := List.zipWith (· + ·) xs ys

/-- A block of silence. -/
def silence : List Int := List.replicate 32 0

/-! ## Latched values -/

/-- The value latched for a register. -/
def latched (vals : List (Nat × Word)) (a : Nat) (f : Fld) : Nat := getF (smGet regReset vals a) f

/-- The registers of the audio block as they stand. -/
def State.audRegs (s : State) : List (Nat × Word) := s.regs.filter (fun e => 0x400D0000 ≤ e.1 && e.1 < 0x400E0000)

/-- The hidden state of serial port `k`. -/
def State.port (s : State) (k : Nat) : SpSt := smGet (fun _ => SpSt.init) s.sp k

/-- The state with the hidden state of serial port `k` replaced. -/
def State.setPort (s : State) (k : Nat) (p : SpSt) : State := { s with sp := smSet (fun _ => SpSt.init) s.sp k p }

/-- The values latched for the block now playing (R194): those of reset before the first such latch. -/
def State.audNow (s : State) : List (Nat × Word) := (s.aud.latches.lookup (s.reg AUD_BLOCK).toNat).getD []

/-- A setting of serial port `k` in the block now playing. -/
def State.spCfg (s : State) (k : Nat) (f : Fld) : Nat := latched s.audNow (AUD_SP_CFG k) f

/-- Whether a serial port is master by the values latched, or locked (R205). -/
def State.portLive (s : State) (vals : List (Nat × Word)) (k : Nat) : Bool :=
  latched vals (AUD_SP_CFG k) AUD_SP_CFG_master == 1 || s.bit (AUD_SP_TRACK k) AUD_SP_TRACK_locked

/-- The bits of a slot of a serial port. -/
def State.slotBits (s : State) (k : Nat) : Nat := 16 + 8 * s.spCfg k AUD_SP_CFG_width

/-- The slots of a frame of a serial port: two in I²S (R209). -/
def State.slotCount (s : State) (k : Nat) : Nat := if s.spCfg k AUD_SP_CFG_i2s == 1 then 2 else s.spCfg k AUD_SP_CFG_slots + 1

/-- The shape of a frame of a serial port; I²S is TDM with two slots, a 50 % FS and a delay of 1 (R209). -/
def State.portShape (s : State) (k : Nat) : SpShape :=
  let i2s := s.spCfg k AUD_SP_CFG_i2s == 1
  ⟨s.slotCount k, s.slotBits k, !i2s && s.spCfg k AUD_SP_CFG_fs_pulse == 1, if i2s then 1 else s.spCfg k AUD_SP_CFG_fs_delay⟩

/-- The BCLK of a master port in Hz (R209). -/
def SpShape.bclkHz (p : SpShape) : Nat := 48000 * p.slots * p.bits

/-- The error of a slave port's rate, in ppm, as it was last measured, which its converters hold while the port is unlocked (R210). -/
def State.spError (s : State) (k : Nat) : Int := signed 16 (s.fld (AUD_SP_TRACK k) AUD_SP_TRACK_err_ppm)

/-- One sample of a slave port's converter that stands at a phase: the rate it tracks is the nominal one with the error last measured (R210). -/
def State.converted (s : State) (k phase : Nat) (xs : List Int) (i : Nat) : Int :=
  sat24 (Config.rateConvert (s.spCfg k AUD_SP_CFG_rate) (s.spError k) phase xs i)

/-- A received slot word as a signed 24-bit sample, MSB first and left-aligned (R209). -/
def slotSample (bits v : Nat) : Int := signed bits v * 2 ^ (32 - bits) / 256

/-- A signed 24-bit sample as a slot word. -/
def slotWord (bits : Nat) (x : Int) : Nat := wrapTo bits (x * 256 / 2 ^ (32 - bits))

/-- The 32 samples of input slot `i` of a port in the block that has just been received, before the group delay of a slave's converter (R202, R210). -/
def State.slotFresh (s : State) (k i : Nat) : List Int :=
  let one := fun (f : List Nat) => slotSample (s.slotBits k) (f.getD i 0)
  if s.spCfg k AUD_SP_CFG_master == 1 then (List.range 32).map (fun n => one ((s.port k).got.getD n []))
  else (List.range 32).map (s.converted k (s.port k).phIn (((s.port k).past ++ (s.port k).got).map one))

/-- The group delay of a rate converter, in samples at 48 kHz (R210). -/
def convDelay : Nat := 16

/-- The samples that slot `i` of a slave port's input converter holds back. -/
def State.slotLine (s : State) (k i : Nat) : List Int := smGet (fun _ => List.replicate convDelay 0) (s.port k).line i

/-- The 32 samples of input slot `i` of a port that reach the mixer with the block that has just been received (R202, R210). -/
def State.slotIn (s : State) (k i : Nat) : List Int :=
  if s.spCfg k AUD_SP_CFG_master == 1 then s.slotFresh k i else (s.slotLine k i ++ s.slotFresh k i).take 32

/-- The converters of port `k` after a block: the phases they stand at, and the samples that the input's still holds; a master's rest. -/
def portBlock (s : State) (k : Nat) : State :=
  let p := s.port k
  let p' := { p with past := p.got, got := [], idx := 0 }
  if s.spCfg k AUD_SP_CFG_master == 1 then s.setPort k { p' with phIn := 0, phOut := 0, line := [] }
  else
    let next := Config.ratePhase (s.spCfg k AUD_SP_CFG_rate) (s.spError k)
    s.setPort k { p' with
      phIn := next p.phIn, phOut := next p.phOut,
      line := (List.range (s.slotCount k)).foldl (fun l i => smSet (fun _ => List.replicate convDelay 0) l i ((s.slotFresh k i).drop (32 - convDelay))) [] }

/-! ## Sample formats (R197, R198) -/

/-- The 89 steps of IMA ADPCM (PRESUMED, assumption 31). -/
def imaStep (i : Nat) : Int :=
  ([7, 8, 9, 10, 11, 12, 13, 14, 16, 17, 19, 21, 23, 25, 28, 31, 34, 37, 41, 45, 50, 55, 60, 66, 73, 80, 88, 97, 107, 118, 130, 143, 157] ++
   [173, 190, 209, 230, 253, 279, 307, 337, 371, 408, 449, 494, 544, 598, 658, 724, 796, 876, 963, 1060, 1166, 1282, 1411, 1552, 1707] ++
   [1878, 2066, 2272, 2499, 2749, 3024, 3327, 3660, 4026, 4428, 4871, 5358, 5894, 6484, 7132, 7845, 8630, 9493, 10442, 11487, 12635] ++
   [13899, 15289, 16818, 18500, 20350, 22385, 24623, 27086, 29794, 32767] : List Int).getD i 0

/-- The change of the step index for a nibble. -/
def imaIndex (n : Nat) : Int := ([-1, -1, -1, -1, 2, 4, 6, 8] : List Int).getD (n % 8) 0

/-- One nibble decoded: the predictor and the step index after it. -/
def imaDecode (p : Int × Int) (n : Nat) : Int × Int :=
  let step := imaStep p.2.toNat
  let b := fun (i : Nat) (v : Int) => if n.testBit i then v else 0
  let diff := step / 8 + b 0 (step / 4) + b 1 (step / 2) + b 2 step
  (clampI (-32768) 32767 (if n.testBit 3 then p.1 - diff else p.1 + diff), clampI 0 88 (p.2 + imaIndex n))

/-- Sample `m` of an ADPCM block from its bytes; none when its header's step index is above 88 (R198). -/
def adpcmSample (bs : List Byte) (m : Nat) : Option Int :=
  let index := (bs.getD 2 0).toNat
  if 88 < index then none
  else
    let nibbles := (bs.drop 4).flatMap (fun b => [b.toNat % 16, b.toNat / 16])
    some ((nibbles.take m).foldl imaDecode (signed 16 (leOf (bs.take 2)), (index : Int))).1

/-- What a fetch for the audio island gives: the state, and the sample unless the fetch failed. -/
structure Fetched where
  s : State
  val : Option Int

/-- A read of the audio island through its own wrapper and port 10: refused while the block is not ON (R29, R32). -/
def audFetch (s : State) (a n : Nat) : Access := if s.blkOn 15 then memRead s 10 a n [] else ⟨s, [], true, false⟩

/-- A write of the audio island. -/
def audStore (s : State) (a : Nat) (bs : List Byte) : Access := if s.blkOn 15 then memWrite s 10 a bs [] else ⟨s, [], true, false⟩

/-- Sample `n` of a voice's asset as a 24-bit value, fetched through port 10. -/
def fetchSample (s : State) (v : Voice) (n : Nat) : Fetched :=
  if v.format == 3 then
    let m := n % 505
    let r := audFetch s (v.start / 4 * 4 + 256 * (n / 505)) (4 + (m + 1) / 2)
    ⟨r.s, if r.err || r.poison then none else (adpcmSample r.data m).map (· * 256)⟩
  else
    let len := [1, 2, 4].getD v.format 4
    let r := audFetch s (v.start + len * n) len
    let x := signed (8 * len) (leOf r.data)
    ⟨r.s, if r.err || r.poison then none else some (if v.format == 0 then x * 65536 else if v.format == 1 then x * 256 else x / 256)⟩

/-! ## Voices (R199 to R201) -/

/-- What a voice is set to for a block. -/
structure VoiceSet where
  loop : Bool
  loopAt : Nat
  endAt : Nat
  step : Nat
  bus : Nat
  gl : Nat
  gr : Nat
deriving DecidableEq, Repr

/-- The settings latched for voice `v`. -/
def voiceSet (vals : List (Nat × Word)) (v : Nat) : VoiceSet :=
  ⟨latched vals (AUD_V_CTRL v) AUD_V_CTRL_loop == 1, latched vals (AUD_V_LOOP v) AUD_V_LOOP_index, latched vals (AUD_V_END v) AUD_V_END_index,
   latched vals (AUD_V_STEP v) AUD_V_STEP_step, latched vals (AUD_V_CTRL v) AUD_V_CTRL_bus, latched vals (AUD_V_GAIN v) AUD_V_GAIN_gain_l,
   latched vals (AUD_V_GAIN v) AUD_V_GAIN_gain_r⟩

/-- The sample index that a tap at integer position `i` reads; none where a tap reads 0. -/
def VoiceSet.tap (c : VoiceSet) (i : Int) : Option Nat :=
  if i < 0 then none
  else if i.toNat ≤ c.endAt then some i.toNat
  else if c.loop && c.loopAt ≤ c.endAt then some (c.loopAt + (i.toNat - c.loopAt) % (c.endAt + 1 - c.loopAt))
  else none

/-- The taps of one output sample fetched in order; a failed one ends them. -/
def fetchTaps (s : State) (v : Voice) (c : VoiceSet) : List Int → State × Option (List Int)
  | [] => (s, some [])
  | i :: is =>
    match c.tap i with
    | none =>
      let (s, r) := fetchTaps s v c is
      (s, r.map (0 :: ·))
    | some n =>
      let f := fetchSample s v n
      match f.val with
      | none => (f.s, none)
      | some x =>
        let (s, r) := fetchTaps f.s v c is
        (s, r.map (x :: ·))

/-- The position after one output sample (R199). -/
def VoiceSet.advance (c : VoiceSet) (pos : Nat) : Nat :=
  let p := pos + c.step
  if c.loop && c.loopAt ≤ c.endAt && c.endAt < p / 65536 then p - (c.endAt + 1 - c.loopAt) * 65536 * ((p / 65536 - c.loopAt) / (c.endAt + 1 - c.loopAt))
  else p

/-- One output sample of a voice: the state, the sample, the voice after it, and whether its fetch failed (R199, R201). -/
def voiceSample (s : State) (v : Voice) (c : VoiceSet) : State × Int × Voice × Bool :=
  match v.held with
  | some x => (s, x, v, false)
  | none =>
    let i : Int := (v.pos / 65536 : Nat)
    if !c.loop && c.endAt + 4 < v.pos / 65536 then (s, 0, v, false)
    else
      let (s, taps) := fetchTaps s v c ((List.range 8).map (fun (k : Nat) => i - 3 + k))
      match taps with
      | none => (s, v.last, { v with held := some v.last }, true)
      | some xs =>
        let phase := v.pos % 65536 / 1024
        let x := if phase == 0 then xs.getD 3 0 else sat24 (Config.interp phase xs)
        (s, x, { v with pos := c.advance v.pos, last := x }, false)

/-- The samples of a voice for `n` output samples. -/
def voiceRun (s : State) (v : Voice) (c : VoiceSet) : Nat → State × List Int × Voice × Bool
  | 0 => (s, [], v, false)
  | n + 1 =>
    let (s, x, v, bad) := voiceSample s v c
    let (s, xs, v, bad') := voiceRun s v c n
    (s, x :: xs, v, bad || bad')

/-- Samples on their way to one channel of a bus. -/
structure Feed where
  bus : Nat
  chan : Nat
  xs : List Int

/-- A mono sound's two feeds, its gains going from one pair to another. -/
def feeds (bus : Nat) (xs : List Int) (l0 l1 r0 r1 : Nat) : List Feed := [⟨bus, 0, ramped l0 l1 xs⟩, ⟨bus, 1, ramped r0 r1 xs⟩]

/-- Whether the settings latched for a key-on fault the voice at once (R200). -/
def keyOnBad (vals : List (Nat × Word)) (v : Nat) : Bool :=
  let c := voiceSet vals v
  c.endAt < c.loopAt || (latched vals (AUD_V_CTRL v) AUD_V_CTRL_format == 3 && c.loopAt % 505 != 0)

/-- Whether a key-on of voice `v` waits for a render still outstanding. -/
def State.keyedAgain (s : State) (v : Nat) : Bool := s.aud.jobs.any (fun j => latched j.vals (AUD_V_CTRL v) AUD_V_CTRL_key_on == 1)

/-- A voice goes to IDLE: its bit in AUD_VEND and the audio event (R200); a key-on that waits for a later render keeps it playing. -/
def voiceIdle (s : State) (v : Nat) : State :=
  let r := AUD_VEND (v / 32)
  let s := s.setFld r AUD_VEND_ended (s.fld r AUD_VEND_ended ||| 2 ^ (v % 32))
  let s := if s.keyedAgain v then s else s.setFld (AUD_V_CTRL v) AUD_V_CTRL_state 0
  { s with aud := { s.aud with voices := smErase s.aud.voices v } }

/-- A failed fetch of a voice recorded and counted (R201). -/
def faultNote (s : State) (v : Nat) : State := (s.setBit (AUD_V_CTRL v) AUD_V_CTRL_fault true).count AUD_CNT AUD_CNT_fault

/-- A voice faults: it is releasing from here on, unless a key-on that waits for a later render keeps it playing (R200, R201). -/
def voiceFault (s : State) (v : Nat) : State :=
  let s := faultNote s v
  if s.keyedAgain v then s else s.setFld (AUD_V_CTRL v) AUD_V_CTRL_state 2

/-- A sound rendered for `n` samples and stored: a releasing sound ends with the block that ramps it to 0, and a sound past its end ends (R199, R200). -/
def voicePlay (s : State) (v : Nat) (x : Voice) (c : VoiceSet) (release : Bool) (n : Nat) : State × List Int :=
  let (s, xs, y, bad) := voiceRun s x c n
  let s := { s with aud := { s.aud with voices := smInsert v y (smErase s.aud.voices v) } }
  let pos := AUD_V_POS v
  let s := (s.setFld pos AUD_V_POS_index (y.pos / 65536)).setFld pos AUD_V_POS_frac (y.pos % 65536 / 256)
  let s := if bad then voiceFault s v else s
  (if release || (!c.loop && c.endAt + 4 < y.pos / 65536) then voiceIdle s v else s, xs)

/-- The feeds of voice `v` for a block of `n` samples, with key-on, key-off, restart, release and change of route (R200, R203). -/
def voiceBlock (s : State) (job : AudJob) (v n : Nat) : State × List Feed :=
  let c := voiceSet job.vals v
  let c0 := voiceSet s.aud.prev v
  let on := latched job.vals (AUD_V_CTRL v) AUD_V_CTRL_key_on == 1
  let off := latched job.vals (AUD_V_CTRL v) AUD_V_CTRL_key_off == 1
  let old := s.aud.voices.lookup v
  let fade := fun (s : State) (x : Voice) =>
    let (s, xs, _, bad) := voiceRun s x c0 n
    (if bad then faultNote s v else s, feeds c0.bus xs c0.gl 0 c0.gr 0)
  if on && !keyOnBad job.vals v then
    let x : Voice := ⟨(smGet regReset job.vals (AUD_V_START v)).toNat, latched job.vals (AUD_V_CTRL v) AUD_V_CTRL_format, 0, none, 0⟩
    let (s, before) := match old with
      | some o => fade s o
      | none => (s, [])
    let (s, xs) := voicePlay s v x c off n
    let l1 := if off then 0 else c.gl
    let r1 := if off then 0 else c.gr
    (s, before ++ (if old.isSome then feeds c.bus xs 0 l1 0 r1 else feeds c.bus xs c.gl l1 c.gr r1))
  else
    match if on && old.isNone then some ⟨0, 0, 0, some 0, 0⟩ else old with
    | none => (s, [])
    | some o =>
      let o := if on then { o with held := some o.last } else o
      let release := off || o.held.isSome
      let (s, xs) := voicePlay s v o c release n
      let l1 := if release then 0 else c.gl
      let r1 := if release then 0 else c.gr
      (s, if c.bus == c0.bus then feeds c.bus xs c0.gl l1 c0.gr r1
        else feeds c0.bus xs c0.gl 0 c0.gr 0 ++ feeds c.bus xs 0 l1 0 r1)

/-- The feeds of every voice. -/
def voicesBlock (s : State) (job : AudJob) (n : Nat) : State × List Feed :=
  (List.range 128).foldl (fun (r : State × List Feed) v => let (s, f) := voiceBlock r.1 job v n; (s, r.2 ++ f)) (s, [])

/-! ## Routes (R202, R203) -/

/-- The feeds of one route that may have changed: on the bus and channel it had, then on those it has. -/
def routeFeeds (xs : List Int) (was : Bool) (b0 c0 g0 : Nat) (now : Bool) (b1 c1 g1 : Nat) : List Feed :=
  if was && now && b0 == b1 && c0 == c1 then [⟨b1, c1, ramped g0 g1 xs⟩]
  else (if was then [⟨b0, c0, ramped g0 0 xs⟩] else []) ++ (if now then [⟨b1, c1, ramped 0 g1 xs⟩] else [])

/-- The feeds of input `i`. -/
def inputFeeds (s : State) (job : AudJob) (i : Nat) : List Feed :=
  let f := fun (vals : List (Nat × Word)) (x : Fld) => latched vals (AUD_IN i) x
  let was := f s.aud.prev AUD_IN_enable == 1 && s.aud.prevLive.testBit (i / 16)
  let now := f job.vals AUD_IN_enable == 1 && job.live.testBit (i / 16)
  routeFeeds ((job.ins.lookup i).getD silence) was (f s.aud.prev AUD_IN_bus) (f s.aud.prev AUD_IN_chan) (f s.aud.prev AUD_IN_gain)
    now (f job.vals AUD_IN_bus) (f job.vals AUD_IN_chan) (f job.vals AUD_IN_gain)

/-- The feeds that bus `b` sends, from its two channels' signals. -/
def sendFeeds (s : State) (job : AudJob) (b : Nat) (l r : List Int) : List Feed :=
  let f := fun (vals : List (Nat × Word)) (x : Fld) => latched vals (AUD_BUS_CTRL b) x
  let go := fun chan xs => routeFeeds xs (f s.aud.prev AUD_BUS_CTRL_send_en == 1) (f s.aud.prev AUD_BUS_CTRL_send) chan 0x8000
    (f job.vals AUD_BUS_CTRL_send_en == 1) (f job.vals AUD_BUS_CTRL_send) chan 0x8000
  go 0 l ++ go 1 r

/-- The autoscale factor of bus `b` for a block, 0x8000 for 1 (R205). -/
def busFactor (job : AudJob) (b : Nat) : Nat :=
  let f := fun (x : Fld) => latched job.vals (AUD_BUS_CTRL b) x
  let voices := ((List.range 128).filter (fun v => (voiceSet job.vals v).bus == b && latched job.vals (AUD_V_CTRL v) AUD_V_CTRL_state != 0)).length
  let inputs := ((List.range 64).filter (fun i => latched job.vals (AUD_IN i) AUD_IN_enable == 1 && job.live.testBit (i / 16) &&
    latched job.vals (AUD_IN i) AUD_IN_bus == b)).length
  let sends := ((List.range b).filter (fun c => latched job.vals (AUD_BUS_CTRL c) AUD_BUS_CTRL_send_en == 1 &&
    latched job.vals (AUD_BUS_CTRL c) AUD_BUS_CTRL_send == b)).length
  let n := voices + inputs + sends
  let nref := f AUD_BUS_CTRL_nref
  if f AUD_BUS_CTRL_autoscale == 0 || n ≤ nref then 0x8000
  else nref * 0x8000 / n + (if nref * 0x8000 % n = 0 then 0 else (Config.audioRound nref n).val)

/-! ## Effect programs (R206 to R208) -/

/-- Register `r` of the effect program of bus `b`. -/
def State.fx (s : State) (b r : Nat) : Word := smGet (fun _ => 0) s.aud.fx (32 * b + r)

/-- The state with an effect register set. -/
def State.setFx (s : State) (b r : Nat) (w : Word) : State := { s with aud := { s.aud with fx := smSet (fun _ => 0) s.aud.fx (32 * b + r) w } }

/-- The word of an effect product: one that does not fit is the manual's open value (R207). -/
def fxWord (x : Int) : Word := if sat32 x = x then BitVec.ofInt 32 x else Config.fxWide x

/-- MULK: d = (a × imm) >> 15. -/
def fxMulK (s : State) (b d a : Nat) (imm : Word) : State := s.setFx b d (fxWord (sval (s.fx b a) * signed 16 imm.toNat / 32768))

/-- MACK: d = d + ((a × imm) >> 15), saturated. -/
def fxMacK (s : State) (b d a : Nat) (imm : Word) : State :=
  s.setFx b d (BitVec.ofInt 32 (sat32 (sval (s.fx b d) + sval (s.fx b a) * signed 16 imm.toNat / 32768)))

/-- MUL: d = (a × b) >> 23. -/
def fxMul (s : State) (b d a c : Nat) : State := s.setFx b d (fxWord (sval (s.fx b a) * sval (s.fx b c) / 8388608))

/-- ADD and SUB, saturated. -/
def fxAdd (s : State) (b d a c : Nat) : State := s.setFx b d (BitVec.ofInt 32 (sat32 (sval (s.fx b a) + sval (s.fx b c))))
def fxSub (s : State) (b d a c : Nat) : State := s.setFx b d (BitVec.ofInt 32 (sat32 (sval (s.fx b a) - sval (s.fx b c))))

/-- SAT: d = a clamped to 24 bits. -/
def fxSat (s : State) (b d a : Nat) : State := s.setFx b d (BitVec.ofInt 32 (sat24 (sval (s.fx b a))))

/-- LDK: d = imm sign-extended, shifted left by 8. -/
def fxLdk (s : State) (b d : Nat) (imm : Word) : State := s.setFx b d (BitVec.ofInt 32 (signed 16 imm.toNat * 256))

/-- The write pointer of the delay ring of bus `b`. -/
def State.ringWp (s : State) (b : Nat) : Nat := smGet (fun _ => 0) s.aud.wp b

/-- DRD: a tap of the delay ring, at least 32 samples back; a failed read gives 0 and is counted (R208). `vals` are the latched values. -/
def fxDrd (vals : List (Nat × Word)) (s : State) (b d : Nat) (imm : Word) : State :=
  let len := max 1 (latched vals (AUD_BUS_DLYLEN b) AUD_BUS_DLYLEN_len)
  let back := max (imm.toNat % 65536) 32
  let i := (s.ringWp b + len - back % len) % len
  let r := audFetch s (latched vals (AUD_BUS_DLY b) AUD_BUS_DLY_base * 256 + 4 * i) 4
  if r.err || r.poison then (r.s.count AUD_CNT AUD_CNT_fault).setFx b d 0 else r.s.setFx b d (BitVec.ofNat 32 (leOf r.data))

/-- DWR: the value that the ring takes at the write pointer; the last of a sample stands. -/
def fxDwr (s : State) (b a : Nat) : State := { s with aud := { s.aud with dwr := smInsert b (s.fx b a) (smErase s.aud.dwr b) } }

/-- The program of bus `b` ends for this sample: the ring is written, a failed write being dropped and counted, and the write pointer
advances (R207, R208). -/
def fxEnd (vals : List (Nat × Word)) (s : State) (b : Nat) : State :=
  let len := max 1 (latched vals (AUD_BUS_DLYLEN b) AUD_BUS_DLYLEN_len)
  let wp := s.ringWp b % len
  let s := match s.aud.dwr.lookup b with
    | none => s
    | some w =>
      let r := audStore s (latched vals (AUD_BUS_DLY b) AUD_BUS_DLY_base * 256 + 4 * wp) (leBytes 4 w.toNat)
      if r.err then r.s.count AUD_CNT AUD_CNT_fault else r.s
  { s with aud := { s.aud with dwr := smErase s.aud.dwr b, wp := smSet (fun _ => 0) s.aud.wp b ((wp + 1) % len) } }

/-- One effect instruction (Table 10-3) that does not end the program; none for one that does. -/
def fxStep (vals : List (Nat × Word)) (s : State) (b : Nat) (w : Word) : Option State :=
  let x := w.toNat
  let d := bitsN x 27 23
  let a := bitsN x 22 18
  let c := bitsN x 17 13
  match bitsN x 31 28 with
  | 1 => some (fxMulK s b d a w)
  | 2 => some (fxMacK s b d a w)
  | 3 => some (fxMul s b d a c)
  | 4 => some (fxAdd s b d a c)
  | 5 => some (fxSub s b d a c)
  | 6 => some (fxDrd vals s b d w)
  | 7 => some (fxDwr s b a)
  | 8 => some (fxSat s b d a)
  | 9 => some (fxLdk s b d w)
  | _ => none

/-- The program of bus `b` from instruction `i` on, at most `n` of them, for one sample. -/
def fxRun (vals : List (Nat × Word)) (s : State) (b i : Nat) : Nat → State
  | 0 => fxEnd vals s b
  | n + 1 =>
    match if i < 2048 then fxStep vals s b (smGet regReset vals (AUD_FX_PROG i)) else none with
    | some s => fxRun vals s b (i + 1) n
    | none => fxEnd vals s b

/-- The samples of a bus through its program. -/
def fxBlock (vals : List (Nat × Word)) (s : State) (b : Nat) : List (Int × Int) → State × List (Int × Int)
  | [] => (s, [])
  | (l, r) :: xs =>
    let s := (s.setFx b 0 (BitVec.ofInt 32 (sat32 l))).setFx b 1 (BitVec.ofInt 32 (sat32 r))
    let s := fxRun vals s b (latched vals (AUD_BUS_FX b) AUD_BUS_FX_start) (latched vals (AUD_BUS_FX b) AUD_BUS_FX_length)
    let out := (sval (s.fx b 0), sval (s.fx b 1))
    let (s, ys) := fxBlock vals s b xs
    (s, out :: ys)

/-- The write pointer of a bus whose program does not run passes `n` samples (R208). -/
def ringPass (vals : List (Nat × Word)) (s : State) (b n : Nat) : State :=
  let len := max 1 (latched vals (AUD_BUS_DLYLEN b) AUD_BUS_DLYLEN_len)
  { s with aud := { s.aud with wp := smSet (fun _ => 0) s.aud.wp b ((s.ringWp b + n) % len) } }

/-- Whether the program of bus `b` runs within the budget of 1,536 instructions a sample (R206); none where it is not enabled. -/
def fxFits (vals : List (Nat × Word)) (b : Nat) : Option Bool :=
  let len := fun c => latched vals (AUD_BUS_FX c) AUD_BUS_FX_length
  let total := (List.range b).foldl (fun n c =>
    if latched vals (AUD_BUS_FX c) AUD_BUS_FX_fx_en == 1 && n + len c ≤ 1536 then n + len c else n) 0
  if latched vals (AUD_BUS_FX b) AUD_BUS_FX_fx_en == 1 then some (total + len b ≤ 1536) else none

/-! ## Buses and outputs -/

/-- A channel's samples saturated to 24 bits, each saturated one counted (R202). -/
def clipBlock (s : State) (xs : List Int) : State × List Int :=
  (s.countBy AUD_CNT AUD_CNT_clip (xs.filter (fun x => sat24 x != x)).length, xs.map sat24)

/-- The signal of bus `b` from the feeds that reach it. -/
def busBlock (s : State) (job : AudJob) (b : Nat) (fs : List Feed) (n : Nat) : State × List Int × List Int :=
  let zero := List.replicate n (0 : Int)
  let sum := fun chan => (fs.filter (fun f => f.bus == b && f.chan == chan)).foldl (fun acc f => mix acc f.xs) zero
  let f0 := smGet (fun _ => 0x8000) s.aud.factor b
  let f1 := busFactor job b
  let s := { s with aud := { s.aud with factor := smSet (fun _ => 0x8000) s.aud.factor b f1 } }
  let l := ramped f0 f1 (sum 0)
  let r := ramped f0 f1 (sum 1)
  let newly := latched job.vals (AUD_BUS_FX b) AUD_BUS_FX_fx_en == 1 && latched s.aud.prev (AUD_BUS_FX b) AUD_BUS_FX_fx_en == 0
  let s := if newly then { s with aud := { s.aud with fx := s.aud.fx.filter (fun e => e.1 / 32 != b) } } else s
  let s := s.setBit (AUD_BUS_FX b) AUD_BUS_FX_fx_over (fxFits job.vals b == some false)
  let (s, lr) := if fxFits job.vals b == some true then fxBlock job.vals s b (List.zip l r) else (ringPass job.vals s b n, List.zip l r)
  let g := fun (vals : List (Nat × Word)) => latched vals (AUD_BUS_CTRL b) AUD_BUS_CTRL_gain
  let (s, l) := clipBlock s (ramped (g s.aud.prev) (g job.vals) (lr.map (·.1)))
  let (s, r) := clipBlock s (ramped (g s.aud.prev) (g job.vals) (lr.map (·.2)))
  (s, l, r)

/-- The buses rendered in ascending order, each after those that send to it: their signals by bus and channel. -/
def busesBlock (s : State) (job : AudJob) (n : Nat) (fs : List Feed) : State × List Feed :=
  let r := (List.range 16).foldl (fun (r : State × List Feed × List Feed) b =>
    let (s, l, x) := busBlock r.1 job b r.2.1 n
    (s, r.2.1 ++ sendFeeds s job b l x, r.2.2 ++ [⟨b, 0, l⟩, ⟨b, 1, x⟩])) (s, fs, [])
  (r.1, r.2.2)

/-- The samples of output `o`, a changed route fading over (R203). -/
def outputBlock (s : State) (job : AudJob) (signals : List Feed) (n o : Nat) : List Int :=
  let zero := List.replicate n (0 : Int)
  let src := fun (vals : List (Nat × Word)) =>
    let f := fun (x : Fld) => latched vals (AUD_OUT o) x
    ((signals.find? (fun g => g.bus == f AUD_OUT_bus && g.chan == f AUD_OUT_chan)).map (·.xs)).getD zero
  let on := fun (vals : List (Nat × Word)) => latched vals (AUD_OUT o) AUD_OUT_enable == 1
  let same := smGet regReset s.aud.prev (AUD_OUT o) == smGet regReset job.vals (AUD_OUT o)
  if same then (if on job.vals then src job.vals else zero)
  else mix (if on s.aud.prev then ramped 0x8000 0 (src s.aud.prev) else zero) (if on job.vals then ramped 0 0x8000 (src job.vals) else zero)

/-- The first `n` samples of a block rendered: the state, and a frame of 72 outputs for each sample. -/
def renderBlock (s : State) (job : AudJob) (n : Nat) : State × List (List Int) :=
  let (s, vf) := voicesBlock s job n
  let ins := (List.range 64).flatMap (fun i => (inputFeeds s job i).map (fun f => { f with xs := f.xs.take n }))
  let (s, signals) := busesBlock s job n (vf ++ ins)
  let outs := (List.range 72).map (outputBlock s job signals n)
  let s := { s with aud := { s.aud with prev := job.vals, prevLive := job.live } }
  (s, (List.range n).map (fun i => outs.map (fun xs => xs.getD i 0)))

/-! ## Boundaries (R194 to R196) -/

/-- The time that `n` samples at 48 kHz take, in ns: 64 of them take 1,333,333 ns (R196). -/
def sampleNs (n : Nat) : Nat := n * 62500 / 3

/-- How many blocks block `b` lies ahead of block `k`: AUD_BLOCK wraps at 32 bits, so half its range counts as behind. -/
def blocksAhead (b k : Nat) : Option Nat := let d := (b + 2 ^ 32 - k % 2 ^ 32) % 2 ^ 32; if d < 2 ^ 31 then some d else none

/-- The samples of the block now playing that the frames of port `k` have played: a master's rate is 48 kHz, a slave's its nominal one (R209, R210). -/
def State.portPlayed (s : State) (k : Nat) : Nat :=
  if s.spCfg k AUD_SP_CFG_master == 1 then (s.port k).idx
  else (s.port k).idx * 48000 / [8000, 16000, 32000, 44100, 48000, 88200, 96000].getD (s.spCfg k AUD_SP_CFG_rate) 48000

/-- The samples of the block now playing that have not been played, as the frames of the ports show (R196). -/
def State.samplesLeft (s : State) : Nat := 32 - min 32 ((List.range 4).foldl (fun n k => max n (s.portPlayed k)) 0)

/-- The tolerance of the audio island restated: the rendered samples not yet played (R196). -/
def audRestate (s : State) : State :=
  let k := (s.reg AUD_BLOCK).toNat
  let ahead := (s.aud.done.filter (fun d => (blocksAhead d.1 k).any (0 < ·))).length * 32
  let left := if s.aud.done.any (fun d => d.1 == k) then s.samplesLeft else 0
  stateTolerance s 4 (min 0xFFFFFE (sampleNs (ahead + left)))

/-- A rendered block is kept until it has been played. -/
def keepBlock (s : State) (block : Nat) (frames : List (List Int)) : State :=
  { s with aud := { s.aud with done := s.aud.done ++ [(block, frames)], lastOut := frames.getLastD [] } }

/-- A late block (R195): its first `m` samples as rendered, then a ramp to 0 from the last value rendered, which for `m` = 0 is the end of the block before. -/
def lateBlock (s : State) (job : AudJob) (m : Nat) : State :=
  let m := min m 31
  let (s, frames) := renderBlock s job m
  let last := frames.getLastD ((List.range 72).map (fun o => s.aud.lastOut.getD o 0))
  let tail := (List.range (32 - m)).map fun i => last.map (fun x =>
    let num := x * ((32 - m : Nat) - ((i + Config.rampPhase.val : Nat) : Int))
    num / (32 - m : Nat) + (if num % (32 - m : Nat) = 0 then 0 else ((Config.audioRound num (32 - m : Nat)).val : Int)))
  (keepBlock s job.block (frames ++ tail)).count AUD_CNT AUD_CNT_late

/-! ## PDM outputs (R212) -/

/-- The samples of output `o` in a block, silence where none has been rendered. -/
def State.outSamples (s : State) (block o : Nat) : List Int :=
  match s.aud.done.lookup block with
  | some frames => frames.map (·.getD o 0)
  | none => silence

/-- The block before block `k`. -/
def prevBlock (k : Nat) : Nat := (k + 2 ^ 32 - 1) % 2 ^ 32

/-- PDM output `p` over block `k`: its modulator's integrators after it and its bits, 64 for each sample, from the samples that had reached its interpolator three
samples before. -/
def State.pdmBits (s : State) (k p : Nat) : List Int × List Bool :=
  let xs := s.outSamples (prevBlock k) (64 + p) ++ s.outSamples k (64 + p)
  let r := (List.range 2048).foldl (fun (r : List Int × List Bool) i =>
    let m := Config.pdmStep r.1 (xs.take (30 + i / 64)).reverse (Fin.ofNat 64 i)
    (m, Config.pdmBit m :: r.2)) (smGet (fun _ => [0, 0, 0, 0]) s.aud.mods p, [])
  (r.1, r.2.reverse)

/-- The PDM outputs of the block now playing: those enabled while PDM_CLK, 98.304 MHz / 32, runs. -/
def pdmBlock (s : State) : State :=
  let on := fun p => latched s.audNow AUD_PDM AUD_PDM_clk_en == 1 && (latched s.audNow AUD_PDM AUD_PDM_enable).testBit p
  let runs := ((List.range 8).filter on).map (fun p => (p, s.pdmBits (s.reg AUD_BLOCK).toNat p))
  { s with aud := { s.aud with
      pdm := runs.map (fun e => (e.1, e.2.2)), mods := runs.foldl (fun m e => smSet (fun _ => [0, 0, 0, 0]) m e.1 e.2.1) s.aud.mods } }

/-! ## The boundary -/

/-- The key writes of voice `v` latched: its state, or a fault (R200). -/
def latchKeys (s : State) (v : Nat) : State :=
  let r := AUD_V_CTRL v
  let on := s.bit r AUD_V_CTRL_key_on
  let off := s.bit r AUD_V_CTRL_key_off
  let s := if on then (if keyOnBad s.regs v then (faultNote s v).setFld r AUD_V_CTRL_state 2 else s.setFld r AUD_V_CTRL_state 1) else s
  if off && s.fld r AUD_V_CTRL_state != 0 then s.setFld r AUD_V_CTRL_state 2 else s

/-- The block boundary: the block counter counts, a block due and not rendered is late, the registers are latched, and the render of the
second block after starts (R194 to R196). `m` is how many samples of a late block had been rendered. -/
def audBoundary (s : State) (m : Nat) : State :=
  if !s.blkOn 15 then s
  else
    let ins := (List.range 64).map (fun i => (i, s.slotIn (i / 16) (i % 16)))
    let s := (List.range 4).foldl portBlock s
    let s := s.setReg AUD_BLOCK (s.reg AUD_BLOCK + 1)
    let k := (s.reg AUD_BLOCK).toNat
    let late := s.aud.jobs.filter (fun j => j.block == k)
    let s := { s with aud := { s.aud with jobs := s.aud.jobs.filter (fun j => j.block != k), done := s.aud.done.filter (fun d => d.1 == prevBlock k || (blocksAhead d.1 k).isSome) } }
    let s := late.foldl (fun s j => lateBlock s j m) s
    let s := (List.range 128).foldl latchKeys s
    let live := (List.range 4).foldl (fun n k => if s.portLive s.audRegs k then n + 2 ^ k else n) 0
    let due := (k + 2) % 2 ^ 32
    let job : AudJob := ⟨due, s.audRegs, ins, live⟩
    let s := pdmBlock { s with aud := { s.aud with latches := s.aud.latches.filter (fun l => (blocksAhead l.1 k).isSome) ++ [(due, job.vals)] } }
    let s := (List.range 128).foldl (fun s v => (s.setBit (AUD_V_CTRL v) AUD_V_CTRL_key_on false).setBit (AUD_V_CTRL v) AUD_V_CTRL_key_off false) s
    audRestate { s with aud := { s.aud with jobs := s.aud.jobs ++ [job] } }

/-- The oldest render outstanding completes. -/
def audRenderDone (s : State) : State :=
  match s.aud.jobs with
  | [] => s
  | j :: rest =>
    if !s.blkOn 15 then s else
    let s := { s with aud := { s.aud with jobs := rest } }
    let (s, frames) := renderBlock s j 32
    audRestate (keepBlock s j.block frames)

/-! ## Serial ports (R209 to R211) -/

/-- Trigger 38 + k where a raw FIFO of port `k` asks for it (R211). -/
def fifoTrigger (s : State) (k : Nat) : State :=
  let p := s.port k
  if p.tx.length ≤ 32 || 32 ≤ p.rx.length then fireTrigger s (38 + k) else s

/-- Whether port `k` is on in raw mode. -/
def State.portRaw (s : State) (k : Nat) : Bool := s.spCfg k AUD_SP_CFG_enable == 1 && s.spCfg k AUD_SP_CFG_raw == 1 && s.blkOn 15

/-- A word queued to send in raw mode; a full FIFO takes no more. -/
def fifoWrite (s : State) (k : Nat) (w : Word) : State :=
  let p := s.port k
  if !s.portRaw k || 64 ≤ p.tx.length then s else fifoTrigger (s.setPort k { p with tx := p.tx ++ [w.toNat] }) k

/-- A received word taken in raw mode; what an empty FIFO, or one not in raw mode, gives is the manual's open value. -/
def fifoRead (s : State) (k : Nat) : State × Word :=
  let p := s.port k
  match if s.portRaw k then p.rx else [] with
  | [] => let (w, s) := s.draw; (s, w)
  | v :: rest => (fifoTrigger (s.setPort k { p with rx := rest }) k, BitVec.ofNat 32 v)

/-- One slot of a raw frame sent: an underflow sends zero. -/
def rawSend (s : State) (k : Nat) : State × Nat :=
  let p := s.port k
  match p.tx with
  | [] => (s.count (AUD_SP_CNT k) AUD_SP_CNT_tx_under, 0)
  | v :: rest => (s.setPort k { p with tx := rest }, v)

/-- The slots of a raw frame sent, `n` of them. -/
def rawFrame (s : State) (k : Nat) : Nat → State × List Nat
  | 0 => (s, [])
  | n + 1 =>
    let (s, v) := rawSend s k
    let (s, vs) := rawFrame s k n
    (s, v :: vs)

/-- One word received in raw mode: an overflow drops it. -/
def rawReceive (s : State) (k v : Nat) : State :=
  let p := s.port k
  if 64 ≤ p.rx.length then s.count (AUD_SP_CNT k) AUD_SP_CNT_rx_over else s.setPort k { p with rx := p.rx ++ [v] }

/-- The slot words that a mixed port sends in its frame number `i` of the block; a slave's converter has had the samples of its group delay before (R210). -/
def State.mixFrame (s : State) (k i n : Nat) : List Nat :=
  let b := (s.reg AUD_BLOCK).toNat
  (List.range n).map fun slot =>
    let xs := s.outSamples b (16 * k + slot)
    let delayed := (s.outSamples (prevBlock b) (16 * k + slot) ++ xs).take (64 - convDelay)
    slotWord (s.slotBits k) (if s.spCfg k AUD_SP_CFG_master == 1 then xs.getD i 0 else s.converted k (s.port k).phOut delayed i)

/-- Whether a port has its bit clock and frame sync: it makes them, or its inputs for them can change (R209, R316). -/
def State.portClocked (s : State) (k : Nat) : Bool :=
  s.spCfg k AUD_SP_CFG_master == 1 || (s.inputLive (16 + 3 * k) && s.inputLive (17 + 3 * k))

/-- The words of a frame as a port receives them, from those that SD_IN and the alternate pin carry in its slots (R316). -/
def State.received (s : State) (k : Nat) (rx alt : List Nat) : List Nat :=
  (List.range (min (s.slotCount k) (max rx.length alt.length))).map (fun i => s.inputWord (18 + 3 * k) (s.slotBits k) (rx.getD i 0) (alt.getD i 0))

/-- One frame of serial port `k`, with the slot words on SD_IN and on its alternate pin (R209, R211, R316); the samples it has played no longer stand in the
output FIFO (R196). -/
def serialFrame (s : State) (k : Nat) (rx alt : List Nat) : State :=
  let n := s.slotCount k
  let rx := s.received k rx alt
  let tx := s.spCfg k AUD_SP_CFG_tx_en == 1
  let rxOn := s.spCfg k AUD_SP_CFG_rx_en == 1
  if !s.blkOn 15 || s.spCfg k AUD_SP_CFG_enable == 0 || !s.portClocked k then s
  else if s.spCfg k AUD_SP_CFG_raw == 1 then
    let (s, out) := if tx then rawFrame s k n else (s, [])
    let s := if rxOn then rx.foldl (fun s v => rawReceive s k v) s else s
    fifoTrigger (s.setPort k { s.port k with out := out, shape := some (s.portShape k) }) k
  else
    let p := s.port k
    let out := if tx then s.mixFrame k p.idx n else []
    audRestate (s.setPort k
      { p with out := out, shape := some (s.portShape k), got := if rxOn then p.got ++ [rx] else p.got, idx := p.idx + 1 })

/-- A slave port loses lock (R210). -/
def portLockLoss (s : State) (k : Nat) : State :=
  if s.bit (AUD_SP_TRACK k) AUD_SP_TRACK_locked then
    (s.setBit (AUD_SP_TRACK k) AUD_SP_TRACK_locked false).setBit (AUD_SP_TRACK k) AUD_SP_TRACK_lost true
  else s

/-- A slave port has measured its rate, `ppm` from nominal: it locks to it, and loses lock where that is more than 2,000 ppm (R210). -/
def portLock (s : State) (k : Nat) (ppm : Word) : State :=
  if s.spCfg k AUD_SP_CFG_enable == 0 || s.spCfg k AUD_SP_CFG_master == 1 || !s.blkOn 15 || !s.portClocked k then s
  else if 2000 < (signed 16 (ppm.toNat % 65536)).natAbs then portLockLoss s k
  else (s.setBit (AUD_SP_TRACK k) AUD_SP_TRACK_locked true).setFld (AUD_SP_TRACK k) AUD_SP_TRACK_err_ppm (ppm.toNat % 65536)

/-! ## Register access -/

/-- A register write to the AUD block: a send to a bus not above its own is a reserved encoding (R202). -/
def audWrite (s : State) (a : Nat) (w : Word) : State :=
  let off := a - 0x400D0000
  if 0x3000 ≤ off ∧ off < 0x3040 ∧ off % 0x10 = 8 then fifoWrite s ((off - 0x3000) / 0x10) w
  else if 0x2000 ≤ off ∧ off < 0x2100 ∧ off % 0x10 = 0 ∧ getF w AUD_BUS_CTRL_send ≤ (off - 0x2000) / 0x10 then
    s.writeCodes a (setF w AUD_BUS_CTRL_send (s.fld a AUD_BUS_CTRL_send))
  else s.writeCodes a w

/-- A register read of the AUD block. -/
def audRead (s : State) (a : Nat) : State × Word :=
  let off := a - 0x400D0000
  if 0x3000 ≤ off ∧ off < 0x3040 ∧ off % 0x10 = 8 then fifoRead s ((off - 0x3000) / 0x10) else (s.readClears a, s.readCodes a)

end Sys2Proof.Machine
end

