-- ==== Sys2Proof/Machine/Trace.lean ====
section
/-! DEFINITION. The debug trace (R531). -/

namespace Sys2Proof.Machine

/-- Whether the device is unlocked for debug (R523). -/
def State.unlocked (s : State) : Bool := s.bit DBG_AUTH DBG_AUTH_unlocked

/-- A record of four words. -/
def State.traceRecord (s : State) (kind src info a : Nat) : List Byte :=
  leBytes 4 (kind * 2 ^ 28 + src % 64 * 2 ^ 22 + info % 2 ^ 22) ++ leBytes 4 a ++ leBytes 8 s.tb

/-- A record leaves the FIFO: for the ring through crossbar port 8, or for pins PF0 to PF8. -/
def traceSend (s : State) (r : List Byte) : State :=
  let size := s.fld DBG_TRACE_SIZE DBG_TRACE_SIZE_value * 16
  if s.bit DBG_TRACE_CTRL DBG_TRACE_CTRL_pins || size == 0 then s
  else
    let off := s.fld DBG_TRACE_WR DBG_TRACE_WR_value * 16
    let s := (memWrite s 8 (s.fld DBG_TRACE_BASE DBG_TRACE_BASE_value * 16 + off) r []).s
    s.setFld DBG_TRACE_WR DBG_TRACE_WR_value ((off + 16) % size / 16)

/-- Up to `n` records leave the FIFO; an overflow record takes the first room that they leave after records were dropped. -/
def traceDrain (s : State) : Nat → State
  | 0 => s
  | n + 1 =>
    match s.trc with
    | [] => s
    | r :: rest =>
      let s := traceSend { s with trc := rest } r
      traceDrain (if s.trcLost == 0 then s else { s with trc := s.trc ++ [s.traceRecord 5 0 s.trcLost 0], trcLost := 0 }) n

/-- A record enters the FIFO of 64, or is dropped and counted. -/
def tracePut (s : State) (r : List Byte) : State :=
  if s.trc.length < 64 then { s with trc := s.trc ++ [r] } else { s.count DBG_TRACE_CTRL DBG_TRACE_CTRL_lost with trcLost := s.trcLost + 1 }

/-- A trace record is made, while trace is on. How many have left the FIFO since the last one is free (assumption 41). -/
def trace (s : State) (kind src info a : Nat) : State :=
  if s.unlocked && s.bit DBG_TRACE_CTRL DBG_TRACE_CTRL_enable && s.blkOn 39 then
    let (n, s) := s.draw
    tracePut (traceDrain s (n.toNat % 65)) (s.traceRecord kind src info a)
  else s

end Sys2Proof.Machine
end

