-- ==== Sys2Proof/Machine/Pads.lean ====
section
/-! DEFINITION. Kindling ports and general pads as they stand: clocks and timers of ports, the value a port puts out, and what each pad drives, is pulled to and
keeps (R295, R296, R301, R314, R317 to R319, R325, R326). -/

namespace Sys2Proof.Machine

/-! ## Ports and their clocks -/

/-- Port `n` beside its registers. -/
def State.kport (s : State) (n : Nat) : Port := smGet (fun _ => Port.init) s.ports n

/-- The state with the hidden part of port `n` replaced. -/
def State.setKport (s : State) (n : Nat) (p : Port) : State := { s with ports := smSet (fun _ => Port.init) s.ports n p }

/-- Clock `k` of the ports: clock block 0 to 7, or 8, the Kindling clock. -/
def State.clk (s : State) (k : Nat) : Clk := smGet (fun _ => Clk.init) s.kind.clks k

/-- The state with clock `k` of the ports replaced. -/
def State.setClk (s : State) (k : Nat) (c : Clk) : State := { s with kind := { s.kind with clks := smSet (fun _ => Clk.init) s.kind.clks k c } }

/-- The settings of port `n` (KPORT_n_CFG). -/
def State.portMode (s : State) (n : Nat) : Nat := s.fld (KPORT_CFG n) KPORT_CFG_mode
def State.portCond (s : State) (n : Nat) : Nat := s.fld (KPORT_CFG n) KPORT_CFG_cond
def State.portWidth (s : State) (n : Nat) : Nat := s.fld (KPORT_CFG n) KPORT_CFG_width
def State.portClock (s : State) (n : Nat) : Nat := s.fld (KPORT_CFG n) KPORT_CFG_clock
def State.portDrives (s : State) (n : Nat) : Bool := s.portMode n == 2 || s.portMode n == 3

/-- The bits of a word of port `n`. -/
def State.portBits (s : State) (n : Nat) : Nat := [1, 8, 16, 32].getD (s.portWidth n) 1

/-- The timer of port `n` (R296): it counts the rising edges of its clock. -/
def State.portTimer (s : State) (n : Nat) : Nat := ((s.kport n).base + (s.clk (s.portClock n)).ticks) % 65536

/-- The state with port `n`'s timer standing at `v`. -/
def setPortTimer (s : State) (n v : Nat) : State :=
  s.setKport n { s.kport n with base := (v + (65536 - (s.clk (s.portClock n)).ticks % 65536)) % 65536 }

/-- The active edges that the clock of port `n` has had: of a clock block, falling ones where the port shifts on those (R294). -/
def State.shiftEdges (s : State) (n : Nat) : Nat :=
  let c := s.clk (s.portClock n)
  if s.portClock n < 8 && s.bit (KPORT_CFG n) KPORT_CFG_falling then c.falls else c.ticks

/-- Bit `i`, in the order sent, of a word of port `n`. -/
def State.sentBit (s : State) (n w i : Nat) : Bool :=
  if s.bit (KPORT_CFG n) KPORT_CFG_msb_first then w.testBit (s.portBits n - 1 - i) else w.testBit i

/-- The filtered level of port `n`: 0 where Kindling does not own the pin, or the pin is in analogue mode (R315, R319). -/
def State.portLevel (s : State) (n : Nat) : Bool := (s.kport n).level && s.pinSeen 1 n

/-- The output of clock block `k` (R295): high in its high phase, or its source port's level. The Kindling clock has none that a port drives (R302). -/
def State.clockHigh (s : State) (k : Nat) : Bool :=
  k < 8 && if s.bit (KPORT_CB k) KPORT_CB_pin_src then s.portLevel (s.fld (KPORT_CB k) KPORT_CB_src_port) else (s.clk k).phase.any (·.1)

/-- The value that port `n` puts out before invert, when it puts one out: the bit that its shift register has come to, whose last one waits for the word
boundary (R301), the value of a direct port, or the clock of a clock-out port, a steady 0 on the Kindling clock (R302). -/
def State.portValue (s : State) (n : Nat) : Option Bool :=
  let p := s.kport n
  match s.portMode n with
  | 2 | 3 =>
    match p.shift with
    | some (w, from_) => some (s.sentBit n w (min (s.shiftEdges n - from_) (s.portBits n - 1)))
    | none => p.drive
  | 4 => some (s.clockHigh (s.portClock n))
  | _ => none

/-- What Kindling drives on pin `n`: the value after invert, an open-drain port only a 0 (R294, R301); after a maximum-on trip the inactive level, until the next
OUT (R309). -/
def State.portDrive (s : State) (n : Nat) : Option Bool :=
  if s.portMode n != 0 && s.portMode n != 1 && (s.kport n).stopped then some !s.bit (KPORT_ACT n) KPORT_ACT_level
  else ((s.portValue n).map (· != s.bit (KPORT_CFG n) KPORT_CFG_invert)).filter (fun b => s.portMode n != 3 || !b)

/-! ## Pads -/

/-- Whether pin `n` is an actuator port (R309, R321). -/
def State.isActuator (s : State) (n : Nat) : Bool := s.bit (KPORT_ACT n) KPORT_ACT_actuator

/-- The level that a retained port keeps. -/
def State.retained (s : State) (n : Nat) : Bool := smGet (fun _ => false) s.retain n

/-- Whether the audio function drives pin `n` (R209, R212, Table 15-2): the clocks of a master port, SD_OUT of one that sends, and the PDM pins. -/
def State.audioDrives (s : State) (n : Nat) : Bool :=
  let k := (n - 32) / 4
  48 ≤ n || (if n % 4 < 2 then s.bit (AUD_SP_CFG k) AUD_SP_CFG_master else n % 4 == 3 && s.bit (AUD_SP_CFG k) AUD_SP_CFG_tx_en)

/-- The level that a pad drives, when it drives one (R314, R317, R318, R319, R321, R326): a bank that is bad drives
nothing, analogue mode drives nothing, nothing is driven outside Dawn, Noon and Dusk but what HOLD retains (R325), a trip drives the inactive level, a retained
port keeps its level, and the owner drives its own. Where in a stream an audio or trace pin stands at this moment is free (assumption 117). -/
def State.padDrive (s : State) (n : Nat) : Option Bool :=
  let live := s.ember.phase == .run
  let held := s.ember.phase == .held && s.ember.level == 2
  if !(live || held) || s.bit (PIN_BANK (n / 16)) PIN_BANK_bad || s.bit (PIN_CFG n) PIN_CFG_analog then none
  else if live && s.isActuator n && (s.fld PIN_GUARD_STAT PIN_GUARD_STAT_tripped != 0 || (s.kport n).inactive) then
    some !s.bit (KPORT_ACT n) KPORT_ACT_level
  else if s.bit (PIN_CFG n) PIN_CFG_retained then some (s.retained n)
  else if held then none
  else match s.fld (PIN_CFG n) PIN_CFG_func with
    | 1 => s.portDrive n
    | 2 => if s.fld (TMR_CTRL n) TMR_CTRL_out_mode == 0 then none else some (smGet (fun _ => Tmr.init) s.tmr n).out
    | 4 => if s.audioDrives n then some (Config.streamLevel n s.tb) else none
    | 5 => some (Config.streamLevel n s.tb)
    | _ => none

/-- The pull on pad `n` in each period of Table 15-4, as PIN_CFG_n.pull codes it: down while VDD_CORE is low, in COLD until the fuses are loaded and after a load
has failed, the fused direction that PIN_CFG_n takes from then, and the setting of PIN_CFG_n, off in analogue mode (R319, R325). Without a bank supply nothing
pulls. -/
def State.padPull (s : State) (n : Nat) : Nat :=
  let set := if s.bit (PIN_CFG n) PIN_CFG_analog then 0 else s.fld (PIN_CFG n) PIN_CFG_pull
  if s.fld (PIN_BANK (n / 16)) PIN_BANK_vdet == 0 then 0
  else match s.ember.phase with
    | .run => set
    | .held | .load => if s.ember.level == 0 then 1 else set
    | .up _ | .good _ => if (s.fld PWR_STAT PWR_STAT_pg).testBit 1 then set else 1
    | _ => 1

/-- The level of pad `n` where nothing outside drives it: what it drives, else its pull, else the last level, which its bus keeper holds (R317, R319). In
analogue mode it has none. -/
def State.padLevel (s : State) (n : Nat) : Option Bool :=
  match s.padDrive n with
  | some b => some b
  | none =>
    match s.padPull n with
    | 1 => some false
    | 2 => some true
    | _ => if s.bit (PIN_CFG n) PIN_CFG_analog then none else some (smGet (fun _ => false) s.keep n)

/-- The drive strength of pad `n`: what it had before HOLD while it is retained (R326). -/
def State.padStrength (s : State) (n : Nat) : Nat :=
  if s.bit (PIN_CFG n) PIN_CFG_retained then smGet (fun _ => 0) s.retDrive n else s.fld (PIN_CFG n) PIN_CFG_drive

/-- Pad `n` is seen at a level: its bus keeper takes it. -/
def padSeen (s : State) (n : Nat) (b : Bool) : State := { s with keep := smSet (fun _ => false) s.keep n b }

/-- From `s` to `t`: where pad `n` does not drive, its bus keeper has the level that it had (R317, R319). -/
def padKeep (s t : State) (n : Nat) : State :=
  match s.padLevel n, t.padDrive n with
  | some b, none => padSeen t n b
  | _, _ => t

end Sys2Proof.Machine
end

