-- ==== Sys2Proof/Machine/Kindling.lean ====
section
/-! DEFINITION. Kindling (chapter 13): the slot tables, threads and their start and end, channel ends, routes and tokens, Kiln ends, locks,
thread exceptions, the stall detector and ABANDON. -/

namespace Sys2Proof.Machine

/-! ## Accessors -/

/-- Thread `t`. -/
def State.thr (s : State) (t : Nat) : Thr := smGet (fun _ => Thr.init) s.kind.thr t

/-- The state with thread `t` replaced. -/
def State.setThr (s : State) (t : Nat) (x : Thr) : State :=
  { s with kind := { s.kind with thr := smSet (fun _ => Thr.init) s.kind.thr t x } }

/-- General register `r` of thread `t`. -/
def State.treg (s : State) (t r : Nat) : Word := smGet (fun _ => 0) (s.thr t).g r

/-- The state with a general register of a thread set. -/
def State.setTreg (s : State) (t r : Nat) (w : Word) : State :=
  s.setThr t { s.thr t with g := smSet (fun _ => 0) (s.thr t).g r w }

/-- Channel end `e`. -/
def State.chEnd (s : State) (e : Nat) : ChEnd := smGet (fun _ => ChEnd.init) s.kind.ends e

/-- The state with channel end `e` replaced. -/
def State.setEnd (s : State) (e : Nat) (x : ChEnd) : State :=
  { s with kind := { s.kind with ends := smSet (fun _ => ChEnd.init) s.kind.ends e x } }

/-- Kiln end `k`. -/
def State.kEnd (s : State) (k : Nat) : KEnd := smGet (fun _ => KEnd.init) s.kind.kends k

/-- The state with Kiln end `k` replaced. -/
def State.setKEnd (s : State) (k : Nat) (x : KEnd) : State :=
  { s with kind := { s.kind with kends := smSet (fun _ => KEnd.init) s.kind.kends k x } }

/-- What holds destination `d`, and who waits for it. -/
def State.inbound (s : State) (d : Nat) : Inbound := smGet (fun _ => Inbound.init) s.kind.into d

/-- The state with a destination's holder and waiters replaced. -/
def State.setInbound (s : State) (d : Nat) (x : Inbound) : State :=
  { s with kind := { s.kind with into := smSet (fun _ => Inbound.init) s.kind.into d x } }

/-- Lock `l`. -/
def State.lock (s : State) (l : Nat) : Lock := smGet (fun _ => ⟨none, []⟩) s.kind.locks l

/-- The state with lock `l` replaced. -/
def State.setLock (s : State) (l : Nat) (x : Lock) : State :=
  { s with kind := { s.kind with locks := smSet (fun _ => ⟨none, []⟩) s.kind.locks l x } }

/-- The sender whose route into destination `d` is open. -/
def State.routeInto (s : State) (d : Nat) : Option Nat := if (s.inbound d).opened then (s.inbound d).holder else none

/-! ## Stores of threads (R266, R271) -/

/-- `n` bytes at a home address as thread `t` reads them: its own stores, and those of others that it sees. -/
def State.tbytes (s : State) (t a n : Nat) : List Byte :=
  let mine := s.kind.stores.filter (fun e => e.thr == t && e.addr < a + n && a < e.addr + e.bytes.length)
  if mine.isEmpty then s.bytes a n
  else (List.range n).map fun k =>
    ((mine.reverse.filter (fun e => e.addr ≤ a + k && a + k < e.addr + e.bytes.length)).head?.bind (fun e => e.bytes[a + k - e.addr]?)).getD
      ((s.bytes (a + k) 1).headD 0)

/-- A store of a thread becomes visible to all. It goes over the bytes of the stores made before it that are not visible yet (R271). -/
def landStore (s : State) (e : ThrStore) : State :=
  let t := s.setBytes e.addr e.bytes
  { t with kind := { t.kind with stores := t.kind.stores.flatMap (fun x => if x.num < e.num then x.without e.addr e.bytes.length else [x]) } }

/-- Stores that meet a test become visible, in the order they were made. -/
def landStores (s : State) (now : ThrStore → Bool) : State :=
  (s.kind.stores.filter now).foldl landStore { s with kind := { s.kind with stores := s.kind.stores.filter (fun e => !now e) } }

/-- A store of thread `t`: it completes within the 4 cycles after its issue, and others see it 4 cycles later. -/
def threadStore (s : State) (t a : Nat) (bs : List Byte) : State :=
  let k := s.kind
  { s with kind := { k with stores := k.stores ++ [⟨k.storeNum, (((s.thr t).issued).getD k.cyc) + 8, t, a, bs⟩], storeNum := k.storeNum + 1 } }

/-! ## Slot tables (R267 to R269) -/

/-- Entry `i` of slot table `tab`: its thread when it is valid. -/
def State.slotEntry (s : State) (tab i : Nat) : Option Nat :=
  let e := bitsN (s.reg (KIND_SLOT tab (i % 128 / 4))).toNat (8 * (i % 4) + 7) (8 * (i % 4))
  if 128 ≤ e then some (e % 64) else none

/-- Whether no two entries of a table that name the same thread lie fewer than 4 apart, counted cyclically (R268). -/
def State.tableOk (s : State) (tab : Nat) : Bool :=
  (List.range 128).all fun i =>
    match s.slotEntry tab i with
    | none => true
    | some t => (List.range 3).all fun d => s.slotEntry tab (i + d + 1) != some t

/-- The active table. -/
def State.curTable (s : State) : Nat := s.fld KIND_CTRL KIND_CTRL_cur

/-- In a cycle whose number is a multiple of 128 the selected table is checked and becomes active, or bad_table is set (R267, R268). -/
def slotTableSwitch (s : State) : State :=
  if !s.blkOn 14 || s.kind.cyc % 128 != 0 then s
  else
    let next := s.fld KIND_CTRL KIND_CTRL_next
    if next == s.curTable then s
    else if s.tableOk next then s.setFld KIND_CTRL KIND_CTRL_cur next
    else s.setBit KIND_CTRL KIND_CTRL_bad_table true

/-- Whether a thread may issue in the current cycle (R269). -/
def State.eligible (s : State) (t : Nat) : Bool :=
  let x := s.thr t
  (x.state == .ready || x.state == .blocked) &&
    match x.issued with
    | some c => c + 4 ≤ s.kind.cyc
    | none => true

/-- The thread that the current cycle's slot goes to, and whether it borrows it (R269). -/
def State.slotFor (s : State) : Option (Nat × Bool) :=
  let c := s.kind.cyc
  let tab := s.curTable
  let own := s.slotEntry tab c
  match own.filter s.eligible with
  | some t => some (t, false)
  | none =>
    let may := fun t => s.eligible t && some t != own && (List.range 3).all (fun d => s.slotEntry tab (c + d + 1) != some t)
    (((List.range 64).map (fun i => (s.kind.borrower + 1 + i) % 64)).find? may).map (fun t => (t, true))

/-- One Kindling cycle (R269): the slot is given by the table that is active in it, a halt that waits takes effect there (R289), and the cycle counts. -/
def slotIssue (s : State) : State :=
  if !s.blkOn 14 then s
  else
    let s := slotTableSwitch s
    match s.slotFor with
    | none => { s with kind := { s.kind with slot := none, cyc := s.kind.cyc + 1 } }
    | some (t, borrowed) =>
      let x := s.thr t
      let s := { s with kind := { s.kind with borrower := if borrowed then t else s.kind.borrower, cyc := s.kind.cyc + 1 } }
      let s := if x.halt then s.setThr t { x with state := .halted, before := x.state, halt := false }
        else s.setThr t { x with issued := some (s.kind.cyc - 1) }
      { s with kind := { s.kind with slot := if x.halt then none else some t } }

/-! ## Tokens and routes (R278 to R281, R291) -/

/-- Token classes (Table 13-5). -/
def tokClass (w : Nat) : Nat := bitsN w 9 8
def isMarker (w : Nat) : Bool := 2 ≤ tokClass w
def ctEnd : Nat := 0x200
def ctAbort : Nat := 0x300

/-- The destination that a ROUTE value names (R279). -/
def destOf (v : Nat) : Nat := if v.testBit 8 then 256 + v % 16 else v % 128

/-- The tokens on their way to a destination. -/
def State.inFlight (s : State) (d : Nat) : Nat := (s.kind.flight.filter (fun e => e.1 == d)).length

/-- Whether Kiln end `k` serves a mailbox agent: end 14 for MBX_6, end 15 for MBX_7 (R350). -/
def State.agentOn (s : State) (k : Nat) : Bool :=
  (k == 14 && s.bit MBX_AGENT MBX_AGENT_en_6) || (k == 15 && s.bit MBX_AGENT MBX_AGENT_en_7)

/-- The tokens that a Kiln end's buffer holds: an agent has taken those of its first message out as they came, which may be more than the buffer has room for
(DEDUCED from R350; assumption 119). -/
def State.rxHeld (s : State) (k : Nat) : Nat :=
  let rx := (s.kEnd k).rx
  if s.agentOn k then ((rx.dropWhile (fun w => !isMarker w)).drop 1).length else rx.length

/-- Whether a destination has room for `n` more tokens; an unallocated end takes every token and discards it (R281, R553). -/
def State.hasRoom (s : State) (d n : Nat) : Bool :=
  if 256 ≤ d then s.rxHeld (d - 256) + s.inFlight d + n ≤ 64
  else !(s.chEnd d).alloc || (s.chEnd d).buf.length + s.inFlight d + n ≤ 8

/-- Whether sender `src` has a message open into destination `d`: it has sent a token there and no end marker has left it since (R279). -/
def State.routeOpen (s : State) (src d : Nat) : Bool :=
  if src < 128 then (s.chEnd src).out && (s.chEnd src).dest.map destOf == some d else (s.kEnd (src - 128)).out && (s.kEnd (src - 128)).dest == d

/-- Whether the next token of `src` may go to destination `d` (R280). Its holder goes on with its open message, or begins the message it was granted. While
its own end marker is still on the way, the holder may begin another only where no other sender waits: those that do are granted first. -/
def State.mayHold (s : State) (src d : Nat) : Bool :=
  let i := s.inbound d
  match i.holder with
  | none => true
  | some h => h == src && (s.routeOpen src d || !i.opened || i.waiters.all (· == src))

/-- Sender `src` may send `n` tokens to destination `d`, and its route there is open with them: it holds the destination and there is room. Where there is
none, the destination stays granted to it; where another sender holds it, `src` joins the waiters (R280, R281). -/
def takeDest (s : State) (src d n : Nat) : State × Bool :=
  let i := s.inbound d
  if s.mayHold src d then
    let room := s.hasRoom d n
    (s.setInbound d { holder := some src, waiters := i.waiters.filter (· != src), opened := i.opened || room }, room)
  else (s.setInbound d { i with waiters := if i.waiters.contains src then i.waiters else i.waiters ++ [src] }, false)

/-- Tokens leave sender `src`, of a thread if it is a channel end, for a destination. -/
def launch (s : State) (src : Nat) (thr : Option Nat) (d : Nat) (toks : List Nat) : State :=
  { s with kind := { s.kind with flight := s.kind.flight ++ toks.map (fun w => (d, ⟨w, src, thr, s.kind.storeNum⟩)) } }

/-- The holder of a destination gives it up, and the first waiter is granted it (R280); nothing waits for an end that is not allocated. -/
def grantNext (s : State) (d : Nat) : State :=
  let i := s.inbound d
  if d < 128 && !(s.chEnd d).alloc then s.setInbound d Inbound.init else s.setInbound d ⟨i.waiters.head?, i.waiters.drop 1, false⟩

/-- The outbound route of a channel end closes, and a held ROUTE applies (R279). -/
def closeOut (s : State) (e : Nat) : State :=
  let x := s.chEnd e
  s.setEnd e { x with out := false, dest := if !x.alloc then none else if x.held.isSome then x.held else x.dest, held := none }

/-- An end's CT_ABORT leaves when its destination has room (R291). -/
def sendAbort (s : State) (e : Nat) : State :=
  let x := s.chEnd e
  match x.dest with
  | some v =>
    if x.abort && s.hasRoom (destOf v) 1 then
      closeOut ((launch s e none (destOf v) [ctAbort]).setEnd e { x with abort := false }) e
    else s
  | none => s

/-- Every CT_ABORT that now can leaves. -/
def pumpAborts (s : State) : State := (List.range 128).foldl sendAbort s

/-- A sender with no open route leaves the destinations that it waits for, and one that it was granted and has sent nothing to. One that its end marker is
still on the way to it holds until the marker has entered (R280). -/
def dropSender (s : State) (src : Nat) : State :=
  s.kind.into.foldl (fun s e =>
    let i := s.inbound e.1
    let i := { i with waiters := i.waiters.filter (· != src) }
    let s := s.setInbound e.1 i
    if i.holder == some src && !i.opened then grantNext s e.1 else s) s

/-- A message that has reached Kiln takes its place among those that wait for it: after those that came before, and among those of the same cycle by its
channel end (R18). -/
def enterArrival (l : List Arrival) (a : Arrival) : List Arrival :=
  l.takeWhile (fun b => b.at_ < a.at_ || b.src ≤ a.src) ++ a :: l.dropWhile (fun b => b.at_ < a.at_ || b.src ≤ a.src)

/-- An end marker from channel end `src` has reached Kiln end `k`: its message is bound to the head that WITNESS_BIND gave the end (R176), and the Kindling
channel event is raised (R283). -/
def messageArrives (s : State) (k src : Nat) : State :=
  let a : Arrival := ⟨k, src, s.fw.bind.lookup src, s.kind.cyc⟩
  raisePulse { s with kind := { s.kind with arrived := enterArrival s.kind.arrived a } } 70

/-- Whether the holder of a destination keeps it when an end marker of sender `src` enters: it has begun another message there (R280). -/
def State.keepsDest (s : State) (src d : Nat) : Bool := s.routeOpen src d || s.kind.flight.any (fun e => e.1 == d && e.2.src == src)

/-- The buffer of a destination takes a token; an unallocated end discards it (R281, R553). The holder's last end marker frees the destination for the next
waiter (R280), and every end marker raises the Kindling channel event at a Kiln end (R283). -/
def arrive (s : State) (d : Nat) (f : Flying) : State :=
  let w := f.tok
  let s :=
    if 256 ≤ d then
      let k := d - 256
      let id := 16 + f.thr.getD (s.chEnd f.src).owner
      let s := s.setKEnd k { s.kEnd k with rx := (s.kEnd k).rx ++ [w], ids := (s.kEnd k).ids ++ (if isMarker w then [id] else []) }
      let s := trace s 4 k w 0
      if isMarker w && !s.agentOn k then messageArrives s k f.src else s
    else if (s.chEnd d).alloc then s.setEnd d { s.chEnd d with buf := (s.chEnd d).buf ++ [w] }
    else s
  pumpAborts (if isMarker w && !s.keepsDest f.src d then grantNext s d else s)

/-- The first entry for a key taken out of a list of pairs. -/
def takeFirst {α : Type} (k : Nat) : List (Nat × α) → Option (α × List (Nat × α))
  | [] => none
  | e :: es => if e.1 == k then some (e.2, es) else (takeFirst k es).map (fun r => (r.1, e :: r.2))

/-- The stores that the sender of a token made before it are seen by whoever takes it (R271). -/
def landBefore (s : State) (f : Flying) : State := landStores s (fun e => f.thr == some e.thr && e.num < f.after)

/-- The oldest token on its way to a destination enters it (R281), after the stores its thread made before it (R271). -/
def tokenDeliver (s : State) (d : Nat) : State :=
  match takeFirst d s.kind.flight with
  | none => s
  | some (f, rest) => arrive (landBefore { s with kind := { s.kind with flight := rest } } f) d f

/-- A Kiln end's STAT.src names the end whose route is open into it as soon as the route opens. -/
def noteSource (s : State) (d src : Nat) : State :=
  if 256 ≤ d then s.setKEnd (d - 256) { s.kEnd (d - 256) with src := src % 128 } else s

/-- What a COUT gives: the state, and whether it sent its tokens, blocks, or takes a thread exception. -/
inductive Sent where
  | done (s : State)
  | block (s : State)
  | fault (cause : Nat)

/-- Channel end `e` sends tokens, all or none (R278 to R281). -/
def sendTokens (s : State) (e : Nat) (toks : List Nat) : Sent :=
  let x := s.chEnd e
  match x.dest with
  | none => .fault 4
  | some v =>
    let d := destOf v
    if !x.out && d < 256 && !(s.chEnd d).alloc then .fault 5
    else
      let (s, may) := takeDest s e d toks.length
      if !may then .block s
      else
        let s := noteSource (launch s e (some x.owner) d toks) d e
        .done (if toks.any isMarker then closeOut s e else s.setEnd e { s.chEnd e with out := true })

/-! ## Thread exceptions and completion -/

/-- Thread `t` stops FAULTED at its instruction, which has no effect (R286). -/
def threadFault (s : State) (t cause : Nat) : State :=
  let x := s.thr t
  let s := s.setThr t { x with state := .faulted, wait := 0, res := 0 }
  let s := (s.setReg (KIND_T_FAULT t) (BitVec.ofNat 32 cause)).setReg (KIND_T_FPC t) x.pc
  let r := if t < 32 then KIND_FAULTED_LO else KIND_FAULTED_HI
  raisePulse (s.setReg r (s.reg r ||| (1#32 <<< (t % 32)))) 71

/-- Thread `t` completes its instruction of `len` bytes: it is READY at the next one (R266, R287). -/
def threadDone (s : State) (t len : Nat) : State :=
  let x := s.thr t
  let s := (s.setThr t { x with state := .ready, wait := 0, res := 0, pc := x.pc + BitVec.ofNat 32 len }).count (KIND_T_ISSUE t) KIND_T_ISSUE_count
  { s with kind := { s.kind with armed := true } }

/-- Thread `t` is BLOCKED in its instruction on a resource (R266). -/
def threadBlock (s : State) (t wait res : Nat) : State := s.setThr t { s.thr t with state := .blocked, wait := wait, res := res }

/-! ## Ends of a thread -/

/-- A channel end becomes free: its tokens are discarded, and a sender that has no open route into it is no longer granted it (R275, R553). -/
def freeEnd (s : State) (e : Nat) : State :=
  let x := s.chEnd e
  let s := if (s.inbound e).opened then s else s.setInbound e Inbound.init
  let s := s.setEnd e { ChEnd.init with dest := if x.out then x.dest else none, out := x.out, abort := x.abort }
  if x.out then s else dropSender s e

/-- The ends that a thread owns. -/
def State.endsOf (s : State) (t : Nat) : List Nat := (List.range 128).filter (fun e => (s.chEnd e).alloc && (s.chEnd e).owner == t)

/-- A lock passes to its next waiter (R284). -/
def passLock (s : State) (l : Nat) : State :=
  let x := s.lock l
  s.setLock l ⟨x.waiters.head?, x.waiters.drop 1⟩

/-- A thread leaves every lock that it waits for. -/
def dropWaits (s : State) (t : Nat) : State :=
  (List.range 32).foldl (fun s l => s.setLock l { s.lock l with waiters := (s.lock l).waiters.filter (· != t) }) s

/-- The registers of a port empty, its capture clears and its condition becomes none; its pin keeps the value that it puts out (R294). -/
def portRestart (s : State) (n : Nat) : State :=
  let p := s.kport n
  (s.setKport n { p with met := none, latch := none, outCap := none, xfer := none, xcap := none, shift := none, drive := s.portValue n }).setFld
    (KPORT_CFG n) KPORT_CFG_cond 0

/-- A port goes to mode off: its pad takes the bank pull, its registers empty, and it has no owner (R293, R294). -/
def portOff (s : State) (n : Nat) : State :=
  let r := KPORT_CFG n
  let t := ((portRestart s n).setBit r KPORT_CFG_owned false).setFld r KPORT_CFG_mode 0
  padKeep s (t.setKport n { t.kport n with outTime := none, pend := none, due := false, drive := none }) n

/-- Every port that a thread owns goes off. -/
def releasePorts (s : State) (t : Nat) : State :=
  (List.range 96).foldl (fun s n =>
    if s.bit (KPORT_CFG n) KPORT_CFG_owned && s.fld (KPORT_CFG n) KPORT_CFG_owner == t then portOff s n else s) s

/-- A thread starts with a program counter, stack pointer, g0 and parent (R273, R276). -/
def threadStart (s : State) (t : Nat) (pc sp g0 : Word) (parent : Option Nat) : State :=
  s.setThr t { Thr.init with state := .ready, pc := pc &&& 0xFFFFFFFE, g := smSet (fun _ => 0) (smSet (fun _ => 0) [] 0 g0) 13 sp,
                             parent := parent, issued := (s.thr t).issued }

/-- The bit of a thread in KIND_FAULTED cleared. -/
def clearFaulted (s : State) (t : Nat) : State :=
  let r := if t < 32 then KIND_FAULTED_LO else KIND_FAULTED_HI
  s.setReg r (s.reg r &&& ~~~(1#32 <<< (t % 32)))

/-- A thread becomes FREE: its ports go off, its ends are freed and its mailbox locks released (R275, R276, R348). -/
def threadFree (s : State) (t : Nat) : State :=
  let s := (s.endsOf t).foldl freeEnd (releasePorts (mbxDrop s (16 + t)) t)
  s.setThr t { Thr.init with parent := (s.thr t).parent, issued := (s.thr t).issued }

/-- A write of KIND_T_t_CTRL.start (R276). -/
def kilnStart (s : State) (t : Nat) : State :=
  if (s.thr t).state == .free && s.blkOn 14 then threadStart s t (s.reg (KIND_T_PC t)) (s.reg (KIND_T_SP t)) 0xFFFFFFFF none
  else s.setBit (KIND_T_CTRL t) KIND_T_CTRL_refused true

/-- A write of KIND_T_t_CTRL.free (R276, R291): open routes are aborted, locks released, ends freed; a freed end takes every CT_ABORT that waited for room
in it (R553). -/
def kilnFree (s : State) (t : Nat) : State :=
  if (s.thr t).state == .halted || (s.thr t).state == .faulted then
    let s := (s.endsOf t).foldl (fun s e => if (s.chEnd e).out then s.setEnd e { s.chEnd e with abort := true } else s) s
    let s := pumpAborts s
    let s := (List.range 32).foldl (fun s l => if (s.lock l).holder == some t then passLock s l else s) (dropWaits s t)
    pumpAborts (clearFaulted (threadFree s t) t)
  else s.setBit (KIND_T_CTRL t) KIND_T_CTRL_refused true

/-- A write of KIND_ABANDON.end (R290, R291). -/
def abandon (s : State) (e : Nat) : State :=
  let x := s.chEnd e
  let st := (s.thr x.owner).state
  if x.alloc && x.out && (st == .halted || st == .faulted) then pumpAborts (s.setEnd e { x with abort := true })
  else s.setBit KIND_ABANDON KIND_ABANDON_refused true

/-! ## Kiln ends (R283) -/

/-- The first message at Kiln end `k` no longer waits for Kiln. -/
def dropArrival (s : State) (k : Nat) : State := { s with kind := { s.kind with arrived := s.kind.arrived.eraseP (fun a => a.kend == k) } }

/-- A read of RX takes one token; with none, or while an agent serves the end, the empty bit reads 1. -/
def kendRead (s : State) (k : Nat) : State × Word :=
  let x := s.kEnd k
  match if s.agentOn k then [] else x.rx with
  | [] => (s, 0x80000000)
  | w :: rest =>
    let s := pumpAborts (s.setKEnd k { x with rx := rest, ids := if isMarker w then x.ids.drop 1 else x.ids })
    (if isMarker w then dropArrival s k else s, BitVec.ofNat 32 w)

/-- A write of TX queues one token, or is dropped and sets tx_ovf. -/
def kendWrite (s : State) (k w : Nat) : State :=
  let x := s.kEnd k
  if s.agentOn k || 64 ≤ x.tx.length || tokClass w == 3 then s.setBit (KIND_KEND_STAT k) KIND_KEND_STAT_tx_ovf true
  else s.setKEnd k { x with tx := x.tx ++ [w % 1024] }

/-- The destination that a Kiln end's next token goes to: DEST, or while a message is open the one it began with. -/
def State.kendDest (s : State) (k : Nat) : Nat :=
  if (s.kEnd k).out || s.agentOn k then (s.kEnd k).dest else s.fld (KIND_KEND_DEST k) KIND_KEND_DEST_end

/-- The oldest queued token of a Kiln end leaves under the flow control of R280 and R281; a message is not opened into an unallocated end: there an agent's reply
is dropped and counted (R350). -/
def kendSend (s : State) (k : Nat) : State :=
  let x := s.kEnd k
  match x.tx with
  | [] => s
  | w :: rest =>
    let d := s.kendDest k
    if !x.out && !(s.chEnd d).alloc then
      if s.agentOn k then (s.setKEnd k { x with tx := (x.tx.dropWhile (fun w => !isMarker w)).drop 1 }).count MBX_AGENT MBX_AGENT_bad else s
    else
      let (s, may) := takeDest s (128 + k) d 1
      if !may then s
      else (launch s (128 + k) none d [w]).setKEnd k { x with tx := rest, dest := d, out := !isMarker w }

/-! ## Status registers (R288) -/

/-- The thread that thread `t` waits for, when there is one. -/
def State.waitsOn (s : State) (t : Nat) : Option Nat :=
  let x := s.thr t
  let i := x.res % 256
  let ownerOf := fun (e : Nat) => if e < 128 && (s.chEnd e).alloc then some (s.chEnd e).owner else none
  match x.wait with
  | 1 => (s.routeInto i).bind ownerOf
  | 2 => (s.chEnd i).dest.bind fun v =>
      match (s.inbound (destOf v)).holder with
      | some h => if h == i then ownerOf (destOf v) else ownerOf h
      | none => ownerOf (destOf v)
  | 3 => (s.lock i).holder
  | 4 => some i
  | _ => none

/-- The code of a thread state (Table 13-1). -/
def ThrState.code : ThrState → Nat
  | .free => 0 | .ready => 1 | .blocked => 2 | .halted => 3 | .faulted => 4

/-- KIND_T_t_STAT as it reads now. -/
def State.threadStat (s : State) (t : Nat) : Word :=
  let x := s.thr t
  let on := s.waitsOn t
  BitVec.ofNat 32 (x.state.code * 2 ^ 29 + x.wait * 2 ^ 26 + x.res % 65536 * 256 + cond on.isSome 128 0 + on.getD 0)

/-- KIND_CH_e as it reads now. -/
def State.chStat (s : State) (e : Nat) : Word :=
  let x := s.chEnd e
  BitVec.ofNat 32 (cond x.alloc (2 ^ 31) 0 + cond x.out (2 ^ 30) 0 + cond (s.routeInto e).isSome (2 ^ 29) 0 + cond x.held.isSome (2 ^ 28) 0 +
    x.owner * 2 ^ 22 + cond x.dest.isSome (2 ^ 17) 0 + x.dest.getD 0 * 256 + x.buf.length)

/-- KIND_KEND_k_STAT as it reads now. -/
def State.kendStat (s : State) (k : Nat) : Word :=
  let x := s.kEnd k
  BitVec.ofNat 32 (cond (s.routeInto (256 + k)).isSome (2 ^ 31) 0 + s.fld (KIND_KEND_STAT k) KIND_KEND_STAT_tx_ovf * 2 ^ 30 +
    x.src % 128 * 2 ^ 23 + x.tx.length * 128 + s.rxHeld k)

/-! ## The stall detector (R287) -/

/-- Whether a channel end is fed by a Kiln end. -/
def State.kilnFed (s : State) (e : Nat) : Bool := match s.routeInto e with | some h => 128 ≤ h | none => false

/-- Whether a thread is stall-blocked. -/
def State.stallBlocked (s : State) (t : Nat) : Bool :=
  let x := s.thr t
  match x.state with
  | .halted | .faulted => true
  | .blocked =>
    if x.wait == 5 then
      x.events.all (fun e => !(e.1 / 256 == 1 || e.1 / 256 == 7 || (e.1 / 256 == 2 && s.kilnFed (e.1 % 256))))
    else 1 ≤ x.wait && x.wait ≤ 4
  | _ => false

/-- Whether some thread is not FREE and every such thread has been stall-blocked for 1,024 cycles. -/
def State.allStalled (s : State) : Bool :=
  let live := (List.range 64).filter (fun t => (s.thr t).state != .free)
  !live.isEmpty && live.all (fun t => s.stallBlocked t && 1024 ≤ (s.thr t).calm)

/-- The cycles for which each thread has been stall-blocked, after one more. -/
def stallCount (s : State) : State :=
  { s with kind := { s.kind with thr := s.kind.thr.map (fun e => (e.1, { e.2 with calm := if s.stallBlocked e.1 then e.2.calm + 1 else 0 })) } }

/-- The detector fires once: snapshot, count and KINDLING_STALL. -/
def stallDetect (s : State) : State :=
  if s.blkOn 14 && s.bit KIND_CTRL KIND_CTRL_stall_en && s.kind.armed && s.allStalled then
    let s := (s.setBit KIND_STALL KIND_STALL_fired true).count KIND_STALL KIND_STALL_count
    let s := (List.range 64).foldl (fun s t => s.setReg (KIND_SNAP t) (s.threadStat t)) s
    { s with kind := { s.kind with armed := false } }
  else s

/-! ## Register access -/

/-- A write of KIND_T_t_CTRL. -/
def threadCtrlWrite (s : State) (t : Nat) (w : Word) : State :=
  let s := if bitOf w KIND_T_CTRL_refused then s.setBit (KIND_T_CTRL t) KIND_T_CTRL_refused false else s
  let s := if bitOf w KIND_T_CTRL_start then kilnStart s t else s
  if bitOf w KIND_T_CTRL_free then kilnFree s t else s

/-- A write of KIND_KEND_k_DEST. Between messages the Kiln end sends to the new destination, and waits for the old one no more (R280, R283). -/
def kendDestWrite (s : State) (k a : Nat) (w : Word) : State :=
  let t := s.writeCodes a w
  if !(s.kEnd k).out && t.kendDest k != s.kendDest k then dropSender t (128 + k) else t

/-- A register write to the KIND block; bit 6 of each byte of a slot-table word stays 0. -/
def kindWrite (s : State) (a : Nat) (w : Word) : State :=
  let off := a - 0x40180000
  if off == 0x30 then
    let s := if bitOf w KIND_ABANDON_refused then s.setBit KIND_ABANDON KIND_ABANDON_refused false else s
    abandon s (getF w KIND_ABANDON_end)
  else if 0x1000 ≤ off ∧ off < 0x1800 ∧ off % 0x20 = 0 then threadCtrlWrite s ((off - 0x1000) / 0x20) w
  else if 0x100 ≤ off ∧ off < 0x200 then s.writeCodes a (w &&& 0xBFBFBFBF)
  else if 0x3000 ≤ off ∧ off < 0x3100 ∧ off % 0x10 = 4 then kendWrite s ((off - 0x3000) / 0x10) (getF w KIND_KEND_TX_token)
  else if 0x3000 ≤ off ∧ off < 0x3100 ∧ off % 0x10 = 8 then kendDestWrite s ((off - 0x3000) / 0x10) a w
  else s.writeCodes a w

/-- A register read of the KIND block. -/
def kindRead (s : State) (a : Nat) : State × Word :=
  let off := a - 0x40180000
  if 0x1000 ≤ off ∧ off < 0x1800 ∧ off % 0x20 = 0xC then (s, s.threadStat ((off - 0x1000) / 0x20))
  else if 0x2000 ≤ off ∧ off < 0x2200 then (s, s.chStat ((off - 0x2000) / 4))
  else if 0x2400 ≤ off ∧ off < 0x2480 then
    let l := s.lock ((off - 0x2400) / 4)
    (s, BitVec.ofNat 32 (cond l.holder.isSome (2 ^ 31) 0 + l.holder.getD 0))
  else if 0x3000 ≤ off ∧ off < 0x3100 ∧ off % 0x10 = 0 then kendRead s ((off - 0x3000) / 0x10)
  else if 0x3000 ≤ off ∧ off < 0x3100 ∧ off % 0x10 = 0xC then (s, s.kendStat ((off - 0x3000) / 0x10))
  else (s.readClears a, s.readCodes a)

end Sys2Proof.Machine
end

