-- ==== Sys2Proof/Machine/Ports.lean ====
section
/-! DEFINITION. Kindling ports (chapter 14): ownership, settings, conditions, inputs, outputs, captures, clock blocks and actuator limits. The
thread instructions of ThreadOps and the port events are built from these. -/

namespace Sys2Proof.Machine

/-- The result of a port operation of a thread: done with a value, blocked, or a thread exception. -/
inductive PortRes where
  | done (s : State) (v : Word)
  | block (s : State)
  | fault (cause : Nat)

/-- The port that an identifier names, when thread `t` may use it (R272, R292, R293); else the exception's cause. -/
def portUse (s : State) (t : Nat) (id : Word) : Except Nat Nat :=
  let n := id.toNat % 256
  if id.toNat / 256 != 1 || 96 ≤ n then .error 4
  else if !(s.reg (KPORT_EN (n / 16))).getLsbD (n % 16) then .error 11
  else if s.bit (KPORT_CFG n) KPORT_CFG_owned && s.fld (KPORT_CFG n) KPORT_CFG_owner != t then .error 12
  else .ok n

/-- The capture of a port at this moment (R305). -/
def State.captureNow (s : State) (n : Nat) : Capture := ⟨s.portTimer n, s.tb % 65536⟩

/-- A port counts a miss (R306). -/
def portMiss (s : State) (n : Nat) : State := s.count (KPORT_MISS n) KPORT_MISS_port_miss

/-- A time has passed when it is armed: late (R297). -/
def portLate (s : State) (n : Nat) : State := portMiss (s.setBit (KPORT_STAT n) KPORT_STAT_late true) n

/-- How far a time lies ahead of a port's timer, modulo 65,536 (R297). -/
def State.timeAhead (s : State) (n time : Nat) : Nat := (time + 65536 - s.portTimer n) % 65536

/-! ## Clock blocks (R295) -/

/-- The ports' source of clock block `k`, and whether it is gated on a port, whose shift or transfer register holds data. -/
def State.gateData (s : State) (k : Nat) : Bool :=
  let g := s.fld (KPORT_CB k) KPORT_CB_gate_port
  g == 0x7F || (s.kport g).shift.isSome || (s.kport g).xfer.isSome

/-- Whether clock `k` of the ports ticks: the Kindling clock always, a clock block while run is 1 and its gate lets it run or its phases have not ended, and one
on a pin while its source port is an input. -/
def State.clockTicks (s : State) (k : Nat) : Bool :=
  8 ≤ k ||
    (s.bit (KPORT_CB k) KPORT_CB_run &&
      if s.bit (KPORT_CB k) KPORT_CB_pin_src then s.portMode (s.fld (KPORT_CB k) KPORT_CB_src_port) == 1
      else s.gateData k || (s.clk k).phase.isSome)

/-- A prescaled cycle of a running block. A stopped one starts with its low phase; a low phase ends with a rising edge, or, when run is clear or the gate's data
has run out, with the stop; a high phase ends with a falling edge. -/
def prescaledCycle (s : State) (k : Nat) : State :=
  let c := s.clk k
  match c.phase with
  | none => if s.gateData k then s.setClk k { c with phase := some (false, 0) } else s
  | some (false, n) =>
    if n + 1 < s.fld (KPORT_CB_TIME k) KPORT_CB_TIME_lo then s.setClk k { c with phase := some (false, n + 1) }
    else if c.stop then (s.setClk k { c with phase := none, stop := false }).setBit (KPORT_CB k) KPORT_CB_run false
    else if s.gateData k then s.setClk k { c with phase := some (true, 0), ticks := c.ticks + 1 }
    else s.setClk k { c with phase := none }
  | some (true, n) =>
    if n + 1 < s.fld (KPORT_CB_TIME k) KPORT_CB_TIME_hi then s.setClk k { c with phase := some (true, n + 1) }
    else s.setClk k { c with phase := some (false, 0), falls := c.falls + 1 }

/-- One Kindling cycle of clock block `k`: its prescaler passes the first and then every P-th. -/
def blockCycle (s : State) (k : Nat) : State :=
  if !s.bit (KPORT_CB k) KPORT_CB_run || s.bit (KPORT_CB k) KPORT_CB_pin_src then s
  else
    let c := s.clk k
    let s := s.setClk k { c with pre := c.pre + 1 }
    if c.pre % [1, 8, 64, 512].getD (s.fld (KPORT_CB k) KPORT_CB_pre) 1 == 0 then prescaledCycle s k else s

/-- One Kindling cycle of the ports' clocks. -/
def clockCycle (s : State) : State :=
  let c := s.clk 8
  (List.range 8).foldl blockCycle (s.setClk 8 { c with ticks := c.ticks + 1 })

/-- The filtered level of port `n` changes: each clock block that runs on it has an edge. -/
def sourceEdge (s : State) (n : Nat) (rising : Bool) : State :=
  (List.range 8).foldl (fun s k =>
    if s.bit (KPORT_CB k) KPORT_CB_pin_src && s.fld (KPORT_CB k) KPORT_CB_src_port == n && s.clockTicks k then
      let c := s.clk k
      s.setClk k (if rising then { c with ticks := c.ticks + 1 } else { c with falls := c.falls + 1 })
    else s) s

/-- Whether the clock of port `n` ticks. -/
def State.portTicks (s : State) (n : Nat) : Bool := s.clockTicks (s.portClock n)

/-- The timer and the filtered level of a port as they stand now. -/
def portNow (s : State) (n timer : Nat) (level : Bool) : State :=
  let old := s.portLevel n
  let s := setPortTimer s n timer
  let s := padSeen (s.setKport n { s.kport n with level := level }) n level
  if old == level then s else sourceEdge s n level

/-! ## Conditions (R300, R303) -/

/-- The condition of port `n` is met: the capture is taken. -/
def portMet (s : State) (n : Nat) : State :=
  let p := s.kport n
  s.setKport n { p with met := some (s.portLevel n, s.captureNow n) }

/-- Whether the level part of a condition holds. -/
def levelMet (cond : Nat) (level cmp : Bool) : Bool :=
  match cond with
  | 1 => level == cmp
  | 2 => level != cmp
  | 4 => level == cmp
  | 5 => level != cmp
  | _ => false

/-- A direct input's condition armed: met at once by a time that has passed, which is late whatever the level, by its level, or by a time reached (R297,
R300). -/
def armCond (s : State) (n : Nat) : State :=
  let p := s.kport n
  let c := s.portCond n
  let d := s.timeAhead n p.cmpTime
  if s.portMode n != 1 || c == 0 || p.met.isSome then s
  else if 3 ≤ c && 32768 ≤ d then portMet (portLate s n) n
  else if levelMet c (s.portLevel n) p.cmpLevel || (3 ≤ c && d == 0) then portMet s n
  else s

/-- A tick at which a port sees a level, with its timer there: the condition is met when its test holds (R300). A pin that Kindling does not own, or in
analogue mode, reads 0 (R315, R319); a port whose clock has stopped has no tick (R295). -/
def portCondition (s : State) (n timer : Nat) (level : Bool) : State :=
  if 96 ≤ n || !s.portTicks n then s
  else
    let level := level && s.pinSeen 1 n
    let s := portNow s n timer level
    let p := s.kport n
    let c := s.portCond n
    if s.portMode n == 1 && s.portWidth n == 0 && c != 0 && p.met.isNone && (levelMet c level p.cmpLevel || (3 ≤ c && s.portTimer n == p.cmpTime)) then portMet s n
    else s

/-- Whether the gate of a direct output is met; an output with no condition has none (R303). -/
def State.gateMet (s : State) (n : Nat) : Bool :=
  let p := s.kport n
  match s.portCond n with
  | 1 => s.portLevel p.cmpGate == p.cmpLevel
  | 2 => s.portLevel p.cmpGate != p.cmpLevel
  | _ => true

/-- Whether a port is ready for EWAIT (R307). -/
def State.portReady (s : State) (n : Nat) : Bool :=
  let p := s.kport n
  if s.portMode n == 1 then (if s.portWidth n == 0 then s.portCond n == 0 || p.met.isSome else p.xfer.isSome)
  else if s.portDrives n then (if s.portWidth n == 0 then p.pend.isNone && s.gateMet n else p.xfer.isNone)
  else false

/-! ## Outputs (R301, R302, R309, R322) -/

/-- Whether OUTs of an actuator port have no effect on its pin: a trip of its own, or a guard trip (R309, R322). -/
def State.outHeld (s : State) (n : Nat) : Bool :=
  s.bit (KPORT_ACT n) KPORT_ACT_actuator &&
    (s.bit (KPORT_STAT n) KPORT_STAT_trip || s.fld PIN_GUARD_STAT PIN_GUARD_STAT_tripped != 0)

/-- A port puts a value out, unless the pin is held (R301, R322); an open-drain port that releases its pin leaves it to the pull or keeper (R317). -/
def drivePin (s : State) (n : Nat) (b : Bool) : State :=
  if s.outHeld n then s else padKeep s (s.setKport n { s.kport n with drive := some b, inactive := false, stopped := false }) n

/-- The shift register is loaded, and its first bit goes out. -/
def loadShift (s : State) (n w : Nat) : State :=
  if s.outHeld n then s
  else padKeep s (s.setKport n { s.kport n with shift := some (w, s.shiftEdges n), inactive := false, stopped := false }) n

/-- A word enters the transfer register of a buffered output, where the port captures (R305), and the shift register when that is empty (R301). -/
def bufferOut (s : State) (n w : Nat) : State :=
  let w := w % 2 ^ s.portBits n
  let s := s.setKport n { s.kport n with outCap := some (s.captureNow n) }
  if (s.kport n).shift.isNone then loadShift s n w else s.setKport n { s.kport n with xfer := some w }

/-- A value or word of port `n` applied: to the pin of a direct port, to the transfer register of a buffered one. -/
def applyOut (s : State) (n w : Nat) : State :=
  if s.portWidth n == 0 then drivePin (s.setKport n { s.kport n with outCap := some (s.captureNow n) }) n (w.testBit 0) else bufferOut s n w

/-- A timed output comes to its tick: it is applied, or on a buffered port whose transfer register is full waits until that empties (DEDUCED from R301, R302;
assumption 113). -/
def placeOut (s : State) (n time w : Nat) : State :=
  if s.portWidth n != 0 && (s.kport n).xfer.isSome then s.setKport n { s.kport n with pend := some (time, w), due := true }
  else applyOut (s.setKport n { s.kport n with pend := none, due := false }) n w

/-- A timed OUT (R297, R302): pending until its tick, or applied at once when that has been reached or has passed. -/
def timedOut (s : State) (n time w : Nat) : State :=
  let d := s.timeAhead n time
  let s := s.setKport n { s.kport n with outTime := none }
  if d == 0 then placeOut s n time w
  else if 32768 ≤ d then placeOut (portLate s n) n time w
  else s.setKport n { s.kport n with pend := some (time, w) }

/-- OUT of a word to port `n` (R301 to R303, R309, R311). Where a trip holds the pin it completes with no effect. A timed OUT of a buffered port completes at
once (R302). -/
def portOut (s : State) (n : Nat) (w : Word) : PortRes :=
  let p := s.kport n
  let direct := s.portWidth n == 0
  let ungated := if direct then s.setFld (KPORT_CFG n) KPORT_CFG_cond 0 else s
  if !s.portDrives n then .fault 14
  else if s.outHeld n then .done (ungated.setKport n { p with outTime := none }) 0
  else if p.pend.isSome || (!direct && p.outTime.isNone && p.xfer.isSome) || (direct && !s.gateMet n) then .block s
  else
    .done (match p.outTime with
      | some time => timedOut ungated n time w.toNat
      | none => applyOut ungated n w.toNat) 0

/-- A pending timed output is applied at its tick (R302); a clock that has stopped has none. -/
def portTimed (s : State) (n : Nat) : State :=
  match if s.portTicks n && !(s.kport n).due then (s.kport n).pend else none with
  | some (time, w) => placeOut (setPortTimer s n time) n time w
  | none => s

/-- Whether a port is on a clock block that is gated on it, so that it never underruns (R295, R301). -/
def State.gatedOn (s : State) (n : Nat) : Bool :=
  let k := s.fld (KPORT_CFG n) KPORT_CFG_clock
  k < 8 && s.fld (KPORT_CB k) KPORT_CB_gate_port == n

/-- A word boundary of a buffered output (R301): the shift register reloads, and a timed word that waited enters the transfer register; or it empties with an
underrun, and the pin keeps its last bit. A clock that has stopped has no edge. -/
def wordBoundary (s : State) (n timer : Nat) : State :=
  match if s.portDrives n && s.portWidth n != 0 && s.portTicks n then (s.kport n).shift else none with
  | none => s
  | some (w, _) =>
    let s := setPortTimer s n timer
    let p := s.kport n
    match p.xfer with
    | some next =>
      let s := loadShift (s.setKport n { p with shift := none, xfer := none, drive := some (s.sentBit n w (s.portBits n - 1)) }) n next
      match if p.due then p.pend else none with
      | some (_, late) => bufferOut (s.setKport n { s.kport n with pend := none, due := false }) n late
      | none => s
    | none =>
      let s := s.setKport n { p with shift := none, drive := some (s.sentBit n w (s.portBits n - 1)) }
      if s.gatedOn n then s else portMiss (s.setBit (KPORT_STAT n) KPORT_STAT_underrun true) n

/-! ## Inputs (R298, R299, R304) -/

/-- A word from the bits that a buffered input has shifted in, in their order (R299). -/
def inWord (msbFirst : Bool) (bits : List Bool) : Nat :=
  if msbFirst then bits.foldl (fun n b => 2 * n + cond b 1 0) 0 else bits.foldr (fun b n => 2 * n + cond b 1 0) 0

/-- A word of a buffered input completes: it moves to the transfer register, or is dropped with an overrun (R299, R305). -/
def wordIn (s : State) (n timer : Nat) (bits : List Bool) : State :=
  if s.portMode n != 1 || s.portWidth n == 0 || bits.length != s.portBits n || !s.portTicks n then s
  else
    let s := setPortTimer s n timer
    let p := s.kport n
    let seen := bits.map (· && s.pinSeen 1 n)
    if p.xfer.isSome then portMiss (s.setBit (KPORT_STAT n) KPORT_STAT_overrun true) n
    else s.setKport n { p with xfer := some (inWord (s.bit (KPORT_CFG n) KPORT_CFG_msb_first) seen), xcap := some (s.captureNow n) }

/-- IN of port `n` (R299, R300, R304, R311). -/
def portIn (s : State) (n : Nat) : PortRes :=
  let p := s.kport n
  let lv : Word := cond (s.portLevel n) 1 0
  if s.portMode n == 0 || s.portMode n == 4 then .fault 14
  else if s.portDrives n then .done s lv
  else if s.portWidth n != 0 then
    match p.xfer with
    | some w => .done (s.setKport n { p with xfer := none, latch := p.xcap }) (BitVec.ofNat 32 w)
    | none => .block s
  else if s.portCond n == 0 then .done s lv
  else
    match p.met with
    | some (b, c) => .done ((s.setKport n { p with met := none, latch := some c }).setFld (KPORT_CFG n) KPORT_CFG_cond 0) (cond b 1 0)
    | none => .block s

/-- PTS of port `n` (R305): what it returns before any capture is the manual's open value. -/
def portPts (s : State) (n : Nat) : PortRes :=
  let p := s.kport n
  if s.portMode n == 0 then .fault 14
  else
    match if s.portDrives n then p.outCap else p.latch with
    | some c => .done s (BitVec.ofNat 32 (c.tb * 65536 + c.timer))
    | none => let (w, s) := s.draw; .done s w

/-- A pulse shorter than the filter is lost (R298), at a pin that Kindling sees (R315, R319). -/
def pulseLost (s : State) (n : Nat) : State := if 96 ≤ n || s.portMode n == 0 || !s.pinSeen 1 n || !s.portTicks n then s else portMiss s n

/-- A pin that Kindling owns differs from its driven value for 16 cycles (R304): counted, and the port event raised. `level` is the pin's. -/
def contention (s : State) (n : Nat) (level : Bool) : State :=
  if s.portDrives n && s.fld (PIN_CFG n) PIN_CFG_func == 1 && s.padDrive n == some !level then
    raisePulse ((s.setBit (KPORT_STAT n) KPORT_STAT_contend true).count (KPORT_MISS n) KPORT_MISS_contend) 73
  else s

/-- Whether Kindling drives an actuator port at its active level (R309); in a guard trip, which takes precedence, it does not (R322). -/
def State.drivenActive (s : State) (n : Nat) : Bool :=
  s.isActuator n && s.fld (PIN_CFG n) PIN_CFG_func == 1 && s.padDrive n == some (s.bit (KPORT_ACT n) KPORT_ACT_level)

/-- An actuator port has been driven active for its limit (R309): it trips inactive until the next OUT, and what its registers held is dropped. -/
def actuatorTrip (s : State) (n : Nat) : State :=
  if s.drivenActive n && s.fld (KPORT_ACT n) KPORT_ACT_maxon != 0 then
    let s := (s.setBit (KPORT_STAT n) KPORT_STAT_trip true).count (KPORT_MISS n) KPORT_MISS_trips
    raisePulse (s.setKport n { (s.kport n).emptied with stopped := true }) 73
  else s

/-! ## Settings (R294, R295) -/

/-- PCFG mode of port `n` by thread `t` (R293, R294). Mode off keeps the other settings of the word, and releases the port. -/
def pcfgMode (s : State) (t n : Nat) (w : Word) : PortRes :=
  let x := w.toNat
  let r := KPORT_CFG n
  let mode := bitsN x 2 0
  if 5 ≤ mode || bitsN x 7 6 != 0 || bitsN x 31 15 != 0 then .fault 13
  else
    let u := portRestart s n
    let u := ((u.setBit r KPORT_CFG_invert (x.testBit 3)).setBit r KPORT_CFG_msb_first (x.testBit 4)).setBit r KPORT_CFG_falling (x.testBit 5)
    let u := (u.setFld r KPORT_CFG_filt (bitsN x 11 8)).setFld r KPORT_CFG_delay (bitsN x 14 12)
    if mode == 0 then .done (padKeep s (portOff u n) n) 0
    else
      let u := ((u.setBit r KPORT_CFG_owned true).setFld r KPORT_CFG_owner t).setFld r KPORT_CFG_mode mode
      let p := u.kport n
      let drive := if mode == 2 || mode == 3 then p.drive else none
      .done (padKeep s (u.setKport n { p with drive := drive, outTime := none, pend := none, due := false }) n) 0

/-- PCFG condition (R300, R303). -/
def pcfgCond (s : State) (n : Nat) (w : Word) : PortRes :=
  let c := w.toNat
  let input := s.portMode n == 1 && s.portWidth n == 0
  let gate := s.portDrives n && s.portWidth n == 0 && c < 3
  if 5 < c || (c != 0 && !input && !gate) then .fault 13
  else
    let s := (s.setFld (KPORT_CFG n) KPORT_CFG_cond c).setKport n { s.kport n with met := none }
    .done (armCond s n) 0

/-- PCFG compare: level, gate port and time. -/
def pcfgCompare (s : State) (n : Nat) (w : Word) : PortRes :=
  let x := w.toNat
  if bitsN x 7 1 != 0 || x.testBit 15 || 96 ≤ bitsN x 14 8 then .fault 13
  else .done (armCond (s.setKport n { s.kport n with cmpLevel := x.testBit 0, cmpGate := bitsN x 14 8, cmpTime := bitsN x 31 16 }) n) 0

/-- PCFG output time (R302): it blocks while a timed output is pending. -/
def pcfgOutTime (s : State) (n : Nat) (w : Word) : PortRes :=
  if bitsN w.toNat 31 16 != 0 || !s.portDrives n then .fault 13
  else if (s.kport n).pend.isSome then .block s
  else .done (s.setKport n { s.kport n with outTime := some w.toNat }) 0

/-- PCFG clock: a clock block, or 8 for the Kindling clock. The timer goes on from where it stands. -/
def pcfgClock (s : State) (n : Nat) (w : Word) : PortRes :=
  if 8 < w.toNat then .fault 13 else .done (setPortTimer ((portRestart s n).setFld (KPORT_CFG n) KPORT_CFG_clock w.toNat) n (s.portTimer n)) 0

/-- PCFG width. -/
def pcfgWidth (s : State) (n : Nat) (w : Word) : PortRes :=
  if 3 < w.toNat then .fault 13 else .done ((portRestart s n).setFld (KPORT_CFG n) KPORT_CFG_width w.toNat) 0

/-- The clock block that an identifier names (R272). -/
def clockUse (id : Word) : Except Nat Nat := if id.toNat / 256 != 5 || 8 ≤ id.toNat % 256 then .error 4 else .ok (id.toNat % 256)

/-- Whether a clock block runs while a port that is not off uses it (R295). -/
def State.clockBusy (s : State) (k : Nat) : Bool :=
  s.bit (KPORT_CB k) KPORT_CB_run && (List.range 96).any (fun n => s.portMode n != 0 && s.fld (KPORT_CFG n) KPORT_CFG_clock == k)

/-- Run of clock block `k` set or cleared (R295): set, the block starts where it is stopped; cleared, it stops at the end of its low phase, or at once where it
is in none. -/
def clockRun (s : State) (k : Nat) (run : Bool) : State :=
  let c := s.clk k
  if run then
    if s.bit (KPORT_CB k) KPORT_CB_run then s.setClk k { c with stop := false }
    else (s.setClk k { c with pre := 0, phase := none, stop := false }).setBit (KPORT_CB k) KPORT_CB_run true
  else if c.phase.isSome then s.setClk k { c with stop := true }
  else s.setBit (KPORT_CB k) KPORT_CB_run false

/-- PCFG of a clock block's source (R295): it starts or stops the block. A source port that is not an input cannot take the setting (DEDUCED from R294 and R295;
assumption 114). -/
def pcfgCbSource (s : State) (k : Nat) (w : Word) : PortRes :=
  let x := w.toNat
  let r := KPORT_CB k
  if bitsN x 11 7 != 0 || bitsN x 31 16 != 0 || 96 ≤ bitsN x 6 0 || (x.testBit 14 && s.portMode (bitsN x 6 0) != 1) then .fault 13
  else if s.clockBusy k then .fault 15
  else
    let s := if x.testBit 14 && !s.bit r KPORT_CB_pin_src then s.setClk k { s.clk k with phase := none, stop := false } else s
    let s := s.setBit r KPORT_CB_pin_src (x.testBit 14)
    let s := (s.setFld r KPORT_CB_pre (bitsN x 13 12)).setFld r KPORT_CB_src_port (bitsN x 6 0)
    .done (clockRun s k (x.testBit 15)) 0

/-- PCFG of a clock block's gate. -/
def pcfgCbGate (s : State) (k : Nat) (w : Word) : PortRes :=
  let x := w.toNat
  if bitsN x 31 8 != 0 || (x.testBit 7 && 96 ≤ bitsN x 6 0) then .fault 13
  else .done (s.setFld (KPORT_CB k) KPORT_CB_gate_port (if x.testBit 7 then bitsN x 6 0 else 0x7F)) 0

/-- PCFG of a clock block's high or low time. -/
def pcfgCbTime (s : State) (k : Nat) (f : Fld) (w : Word) : PortRes :=
  if w.toNat < 4 || 32767 < w.toNat then .fault 13
  else if s.clockBusy k then .fault 15
  else .done (s.setFld (KPORT_CB_TIME k) f w.toNat) 0

/-! ## Register access -/

/-- A write of KPORT_n_ACT (R310): read-only while locked; a maxon of 0 on an actuator port is a reserved encoding. -/
def actWrite (s : State) (a : Nat) (w : Word) : State :=
  if s.bit KPORT_LOCK KPORT_LOCK_lock then s
  else if s.bit a KPORT_ACT_actuator && getF w KPORT_ACT_maxon == 0 then s.writeCodes a (setF w KPORT_ACT_maxon (s.fld a KPORT_ACT_maxon))
  else s.writeCodes a w

/-- A register write to the KPORT block. -/
def kportWrite (s : State) (a : Nat) (w : Word) : State :=
  let off := a - 0x40190000
  if 0x1000 ≤ off ∧ off < 0x1600 ∧ off % 0x10 = 0xC then actWrite s a w else s.writeCodes a w

/-- A register read of the KPORT block: pending, ready, level and timer as they stand. -/
def kportRead (s : State) (a : Nat) : State × Word :=
  let off := a - 0x40190000
  if 0x1000 ≤ off ∧ off < 0x1600 ∧ off % 0x10 = 4 then
    let n := (off - 0x1000) / 0x10
    let p := s.kport n
    let w := setF (setF (s.readCodes a) KPORT_STAT_pending (cond p.pend.isSome 1 0)) KPORT_STAT_ready (cond (s.portReady n) 1 0)
    (s, setF (setF w KPORT_STAT_level (cond (s.portLevel n) 1 0)) KPORT_STAT_timer (s.portTimer n))
  else (s.readClears a, s.readCodes a)

end Sys2Proof.Machine
end

