-- ==== Sys2Proof/Machine/Timers.lean ====
section
/-! DEFINITION. The timebase, the timers and the monitor ADC (chapter 16). The model's time passes in the cycles of an empty queue. -/

namespace Sys2Proof.Machine

/-! ## The timebase (R327 to R329) -/

/-- A write of TB_STEP (R328): the next edge adds the step, unless it is refused. -/
def tbStep (s : State) (w : Word) : State :=
  if s.bit TB_CTRL TB_CTRL_mono && w.msb then s.setBit TB_CTRL TB_CTRL_step_refused true else { s with tbSteps := s.tbSteps ++ [w.toInt] }

/-- A read of TB_LO_k copies the high word into shadow k (R329). -/
def tbReadLo (s : State) (k : Nat) : State × Word := (s.setReg (TB_HI k) (BitVec.ofNat 32 (s.tb / 2 ^ 32)), BitVec.ofNat 32 s.tb)

/-- Whether a TB_ADJ value lies in its range (R327). -/
def adjLegal (w : Word) : Bool := -200000 ≤ w.toInt && w.toInt ≤ 200000

/-- A register write to the TB block. -/
def tbWrite (s : State) (a : Nat) (w : Word) : State :=
  if a == TB_STEP then tbStep s w
  else if a == TB_ADJ then (if adjLegal w then s.setReg a w else s)
  else s.writeCodes a w

/-- A register read of the TB block. -/
def tbRead (s : State) (a : Nat) : State × Word :=
  let off := a - TB_LO 0
  if TB_LO 0 ≤ a ∧ off < 0x20 ∧ off % 8 = 0 then tbReadLo s (off / 8) else (s.readClears a, s.readCodes a)

/-! ## The monitor ADC (R336 to R338) -/

/-- The channels of a sequence, in ascending order. -/
def State.adcMask (s : State) : List Nat := (List.range 21).filter (fun c => (s.reg ADC_SEQ).getLsbD c)

/-- A sequence begins. -/
def adcBegin (s : State) : State :=
  if s.adcMask.isEmpty then s else { s with adcTodo := s.adcMask }.setBit ADC_CTRL ADC_CTRL_busy true

/-- A start: it begins a sequence, is held during one, or is dropped (R337). -/
def adcStart (s : State) : State :=
  if !s.blkOn 38 then s
  else if !s.bit ADC_CTRL ADC_CTRL_busy then adcBegin s
  else if s.adcHeld then s.setBit ADC_CTRL ADC_CTRL_seq_ovr true
  else { s with adcHeld := true }

/-- The end of a sequence: a held start begins the next, and cont starts one (R337). -/
def adcEnd (s : State) : State :=
  let held := s.adcHeld
  let s := { s with adcHeld := false }.setBit ADC_CTRL ADC_CTRL_busy false
  let s := if held then adcStart s else s
  if s.bit ADC_CTRL ADC_CTRL_cont then adcStart s else s

/-- The value that channel `c` converts to: an input that the ADC does not own converts as 0; a temperature is a signed code (R336). -/
def State.adcValue (s : State) (c code : Nat) : Nat :=
  if c < 16 then (if s.fld (PIN_CFG (16 + c)) PIN_CFG_func == 3 then code % 4096 else 0)
  else if c < 20 then wrapTo 16 (signed 12 (code % 4096))
  else code % 4096

/-- A conversion ends with a code (R338). -/
def adcDone (s : State) (code : Nat) : State :=
  match s.adcTodo with
  | [] => s
  | c :: rest =>
    let v := s.adcValue c code
    let r := ADC_RES c
    let s := if s.bit r ADC_RES_valid then s.setBit r ADC_RES_ovr true else s
    let s := (s.setFld r ADC_RES_value v).setBit r ADC_RES_valid true
    let out := signed 16 v < signed 16 (s.fld (ADC_LIM c) ADC_LIM_lo) || signed 16 (s.fld (ADC_LIM c) ADC_LIM_hi) < signed 16 v
    let s := if out then s.setReg ADC_LIMIT (s.reg ADC_LIMIT ||| (1#32 <<< c)) else s
    let s := { s with adcTodo := rest }
    if rest.isEmpty then adcEnd s else s

/-- A register write to the ADC block. -/
def adcWrite (s : State) (a : Nat) (w : Word) : State :=
  if a == ADC_CTRL then
    let t := s.writeCodes a (setF w ADC_CTRL_start 0)
    if bitOf w ADC_CTRL_start then adcStart t else t
  else s.writeCodes a w

/-! ## Timers (R330 to R335) -/

/-- Timer `k` beside its registers. -/
def State.timer (s : State) (k : Nat) : Tmr := smGet (fun _ => Tmr.init) s.tmr k

/-- The state with the hidden part of timer `k` replaced. -/
def State.setTimer (s : State) (k : Nat) (t : Tmr) : State := { s with tmr := smSet (fun _ => Tmr.init) s.tmr k t }

/-- What a timer counts, and whether it counts. -/
def State.tmrSrc (s : State) (k : Nat) : Nat := s.fld (TMR_CTRL k) TMR_CTRL_src
def State.tmrRun (s : State) (k : Nat) : Bool :=
  s.blkOn 37 && s.bit (TMR_CTRL k) TMR_CTRL_run && !(s.kiln.halted && (s.fld DBG_CTRL DBG_CTRL_tmr_freeze).testBit k)

/-- The trigger of timer `k` occurs: at DMA and the block engine, at the timers it starts, and at the ADC (R330, R332, R337). -/
def timerTrigger (s : State) (k : Nat) : State :=
  let s := fireTrigger s (22 + k)
  let s := (List.range 16).foldl (fun s j =>
    if s.fld (TMR_IN j) TMR_IN_start_trig == k + 1 then s.setBit (TMR_CTRL j) TMR_CTRL_run true else s) s
  if s.fld ADC_CTRL ADC_CTRL_trig == k + 1 then adcStart s else s

/-- An event of timer `k`, when trig_sel selects it (R332). -/
def timerEvent (s : State) (k ev : Nat) : State := if s.fld (TMR_CTRL k) TMR_CTRL_trig_sel == ev then timerTrigger s k else s

/-- The output of timer `k` takes a level; an actuator pin that a cleared trip left inactive follows its owner's next change (R322). -/
def timerOut (s : State) (k : Nat) (level : Bool) : State :=
  let t := s.timer k
  let s := s.setTimer k { t with out := level }
  if t.out != level && s.fld (PIN_CFG k) PIN_CFG_func == 2 && s.fld PIN_GUARD_STAT PIN_GUARD_STAT_tripped == 0 then
    s.setKport k { s.kport k with inactive := false }
  else s

/-- A match of timer `k` (R331). -/
def timerMatch (s : State) (k : Nat) : State :=
  let s := s.setBit (TMR_STAT k) TMR_STAT_match true
  let s := match s.fld (TMR_CTRL k) TMR_CTRL_out_mode with
    | 1 => timerOut s k !(s.timer k).out
    | 2 => timerOut s k true
    | 3 => timerOut s k false
    | _ => s
  timerEvent s k 0

/-- Timer `k`'s counter equals its compare value, which is not above TOP: a match (R331), whether or not it counts. -/
def timerMatchEvent (s : State) (k : Nat) : State :=
  if s.blkOn 37 && s.reg (TMR_CNT k) == s.reg (TMR_CMP k) && s.reg (TMR_CMP k) ≤ s.reg (TMR_TOP k) then timerMatch s k else s

/-- Timer `k` counts one (R330, R331): its counter goes on, or wraps from TOP, and matches where it comes to its compare value; the timers that count its wraps
count one at a wrap. `n` bounds the chain. -/
def timerStep (s : State) (k : Nat) : Nat → State
  | 0 => s
  | n + 1 =>
    if s.reg (TMR_CNT k) == s.reg (TMR_TOP k) then
      let s := (s.setReg (TMR_CNT k) 0).setBit (TMR_STAT k) TMR_STAT_wrap true
      let s := match s.fld (TMR_CTRL k) TMR_CTRL_out_mode with
        | 2 => timerOut s k false
        | 3 => timerOut s k true
        | _ => s
      let s := timerMatchEvent (timerEvent s k 1) k
      if k + 1 < 16 && s.tmrSrc (k + 1) == 3 && s.tmrRun (k + 1) then timerStep s (k + 1) n else s
    else timerMatchEvent (s.setReg (TMR_CNT k) (s.reg (TMR_CNT k) + 1)) k

/-- Timer `k` counts one. -/
def timerCount (s : State) (k : Nat) : State := timerStep s k 16

/-- The event that timer `k`'s counter wraps (R331): it stands at TOP and counts one. -/
def timerWrapEvent (s : State) (k : Nat) : State := if s.tmrRun k && s.reg (TMR_CNT k) == s.reg (TMR_TOP k) then timerCount s k else s

/-- A pin-control cycle: each timer that counts them counts one of every div + 1 (R330). -/
def pinCycle (s : State) : State :=
  (List.range 16).foldl (fun s k =>
    if s.tmrRun k && s.tmrSrc k == 0 then
      let t := s.timer k
      if t.div < s.fld (TMR_CTRL k) TMR_CTRL_div then s.setTimer k { t with div := t.div + 1 }
      else timerCount (s.setTimer k { t with div := 0 }) k
    else s) s

/-- `n` pin-control cycles pass. -/
def pinCycles (s : State) : Nat → State
  | 0 => s
  | n + 1 => pinCycles (pinCycle s) n

/-- The timebase comes to a new count: each timer that counts rising edges of one of its bits counts one where that rises (R330). -/
def tbMove (s : State) (tb : Nat) : State :=
  (List.range 16).foldl (fun t k =>
    let b := t.fld (TMR_CTRL k) TMR_CTRL_tb_bit
    if t.tmrRun k && t.tmrSrc k == 2 && !s.tb.testBit b && tb.testBit b then timerCount t k else t) { s with tb := tb }

/-- One edge of the 250 MHz clock (R327, R328): the count adds 1, 2 or 0 by the rate accumulator, and the steps that were written, each of which is counted. -/
def tbTick (s : State) : State :=
  let acc := s.tbAcc + signed 32 (s.reg TB_ADJ).toNat
  let (acc, add) := if 1000000000 ≤ acc then (acc - 1000000000, 2) else if acc ≤ -1000000000 then (acc + 1000000000, 0) else (acc, 1)
  let u := s.tbSteps.foldl (fun s _ => s.count TB_CTRL TB_CTRL_steps) { s with tbAcc := acc, tbSteps := [] }
  tbMove u (wrapTo 64 (s.tbSteps.foldl (· + ·) ((s.tb + add : Nat) : Int)))

/-- Four nanoseconds of the pin-control clock: FRC at its nominal 96 MHz and the trim in effect (R480; assumption 115). -/
def pinTick (s : State) : State :=
  let acc := s.pinAcc + 384 * (1000 + s.ember.frc).toNat
  if acc < 1000000 then { s with pinAcc := acc } else pinCycle { s with pinAcc := acc - 1000000 }

/-- A write of TMR_k_CMP (R331): compared against the counter in the cycle in which it arrives. -/
def cmpWrite (s : State) (k : Nat) (w : Word) : State :=
  let c := s.reg (TMR_CNT k)
  let s := s.setReg (TMR_CMP k) w
  if s.blkOn 37 && w ≤ c && w ≤ s.reg (TMR_TOP k) && s.bit (TMR_CTRL k) TMR_CTRL_late_fire then timerMatch (s.setBit (TMR_STAT k) TMR_STAT_late true) k
  else timerMatchEvent s k

/-- Whether timer `k`'s capture input has come to a level by an edge that it selects, from the levels of its own pin and of the alternate pin (R316, R333). -/
def State.edgeSeen (s : State) (k : Nat) (own other : Bool) : Bool :=
  s.inputLive k &&
    match s.fld (TMR_IN k) TMR_IN_edge with
    | 0 => false
    | 1 => s.inputLevel k own other
    | 2 => !s.inputLevel k own other
    | _ => true

/-- A capture by timer `k` (R334); a timer that counts such edges then counts one. -/
def timerLatch (s : State) (k : Nat) : State :=
  let r := TMR_STAT k
  let s := if s.bit r TMR_STAT_cap_full then s.setBit r TMR_STAT_cap_ovr true else s
  let s := (s.setReg (TMR_CAP k) (s.reg (TMR_CNT k))).setBit r TMR_STAT_cap_full true
  let s := s.setTimer k { s.timer k with capTb := BitVec.ofNat 32 s.tb }
  let s := timerEvent s k 2
  if s.tmrRun k && s.tmrSrc k == 1 then timerCount s k else s

/-- A capture-input change that its filter lost (R333). -/
def edgeOverrun (s : State) (k : Nat) : State := if s.blkOn 37 && s.inputLive k then s.setBit (TMR_STAT k) TMR_STAT_edge_ovr true else s

/-- Whether N samples of timer `k`'s filter see a level that stands for `held` ns (R333): surely in N sample periods, never in N - 1, and between them as the
samples fall, which is free. -/
def filterPass (s : State) (k held : Nat) : Bool × State :=
  let p := 10 * 10 ^ s.fld (TMR_IN k) TMR_IN_fclk
  let n := s.fld (TMR_IN k) TMR_IN_filt + 1
  if n * p ≤ held then (true, s)
  else if held ≤ (n - 1) * p then (false, s)
  else let (w, s) := s.draw; (w.getLsbD 0, s)

/-- A change of timer `k`'s capture input to the levels of its two pins, which then stand for `held` ns (R333, R334): its filter loses it, or passes it, and of
the edges that the timer selects every one, or every second, fourth or eighth, captures. -/
def timerCapture (s : State) (k : Nat) (own other : Bool) (held : Nat) : State :=
  if !s.blkOn 37 || !s.inputLive k then s
  else
    let (pass, s) := filterPass s k held
    if !pass then edgeOverrun s k
    else if !s.edgeSeen k own other then s
    else
      let e := (s.timer k).edges + 1
      if e % 2 ^ s.fld (TMR_IN k) TMR_IN_prescale == 0 then timerLatch (s.setTimer k { s.timer k with edges := 0 }) k
      else s.setTimer k { s.timer k with edges := e }

/-- A read of TMR_k_CAP (R334). -/
def capRead (s : State) (k : Nat) : State × Word :=
  ((s.setReg (TMR_CAP_TB k) (s.timer k).capTb).setBit (TMR_STAT k) TMR_STAT_cap_full false, s.reg (TMR_CAP k))

/-- The counts of the timers above `k` in its cascade chain copied into their shadows (R335): `n` bounds the chain. -/
def copyCascade (s : State) (k : Nat) : Nat → State
  | 0 => s
  | n + 1 =>
    if k + 1 < 16 && s.tmrSrc (k + 1) == 3 then
      let s := s.setTimer (k + 1) { s.timer (k + 1) with shadow := s.reg (TMR_CNT (k + 1)) }
      copyCascade (s.setBit (TMR_STAT (k + 1)) TMR_STAT_pending true) (k + 1) n
    else s

/-- A read of TMR_k_CNT (R335): the shadow where it is pending, else the live count. -/
def cntRead (s : State) (k : Nat) : State × Word :=
  if s.bit (TMR_STAT k) TMR_STAT_pending then (s.setBit (TMR_STAT k) TMR_STAT_pending false, (s.timer k).shadow)
  else (copyCascade s k 16, s.reg (TMR_CNT k))

/-- A register write to the TMR block. Where out_mode makes the output's pad stop driving, its bus keeper has the level. -/
def tmrWrite (s : State) (a : Nat) (w : Word) : State :=
  let k := (a - TMR_CTRL 0) / 0x20
  if a == TMR_CTRL k && k == 0 && getF w TMR_CTRL_src == 3 then padKeep s (s.writeCodes a (setF w TMR_CTRL_src (s.fld a TMR_CTRL_src))) k
  else if a == TMR_CTRL k then padKeep s (s.writeCodes a w) k
  else if a == TMR_CMP k then cmpWrite s k w
  else s.writeCodes a w

/-- A register read of the TMR block. -/
def tmrRead (s : State) (a : Nat) : State × Word :=
  let k := (a - TMR_CTRL 0) / 0x20
  if a == TMR_CAP k then capRead s k
  else if a == TMR_CNT k then cntRead s k
  else (s.readClears a, s.readCodes a)

end Sys2Proof.Machine
end

