-- ==== Sys2Proof/Machine/Doorbell.lean ====
section
/-! DEFINITION. Doorbells and MSI-X messages (R351, R352). -/

namespace Sys2Proof.Machine

/-- An entry of the MSI-X table. -/
def State.msix (s : State) (i : Nat) : Msix := smGet (fun _ => Msix.init) s.host.msix i

/-- The state with an entry of the MSI-X table replaced. -/
def State.setMsix (s : State) (i : Nat) (m : Msix) : State :=
  { s with host := { s.host with msix := smSet (fun _ => Msix.init) s.host.msix i m } }

/-- A pending bit of the PBA. -/
def State.pba (s : State) (i : Nat) : Bool := smGet (fun _ => false) s.host.pba i

/-- The state with a pending bit set. -/
def State.setPba (s : State) (i : Nat) (b : Bool) : State := { s with host := { s.host with pba := smSet (fun _ => false) s.host.pba i b } }

/-- The messages sent for a vector. -/
def State.msixSent (s : State) (i : Nat) : Nat := smGet (fun _ => 0) s.host.sent i

/-- Whether a message of vector `i` can leave: the link up, the function in D0, the vector unmasked. -/
def State.canSend (s : State) (i : Nat) : Bool := s.bit HOST_LINK HOST_LINK_up && s.host.d0 && !(s.msix i).masked

/-- A message becomes due: it is sent, or its pending bit is set (R352). -/
def msgDue (s : State) (i : Nat) : State :=
  if s.canSend i then { s with host := { s.host with sent := smSet (fun _ => 0) s.host.sent i (s.msixSent i + 1) } } else s.setPba i true

/-- A pending message of vector `i` is sent once it can leave, if its bit is still set (R352). -/
def sendPending (s : State) (i : Nat) : State :=
  if s.pba i && s.canSend i && (s.reg HOST_DB).getLsbD i then msgDue (s.setPba i false) i else s

/-- Every pending message that can leave is sent. -/
def sendAllPending (s : State) : State := (List.range 32).foldl sendPending s

/-- A bit of HOST_DB is set (R352). -/
def hostDbSet (s : State) (i : Nat) : State :=
  if (s.reg HOST_DB).getLsbD i then s
  else
    let s := s.setReg HOST_DB (s.reg HOST_DB ||| (1#32 <<< i))
    if (s.reg HOST_DB_MASK).getLsbD i then msgDue s i else s

/-- A bit of HOST_DB is cleared, and its pending bit with it; bit 31 stays while Kiln is locked up (R351, R352). -/
def hostDbClr (s : State) (i : Nat) : State :=
  if (i == 31 && s.kiln.lockup) || (i == 30 && s.bit SYS_WDOG_CTRL SYS_WDOG_CTRL_expired) then s else (s.setReg HOST_DB (s.reg HOST_DB &&& ~~~(1#32 <<< i))).setPba i false

/-- A write of HOST_DB_MASK: a bit that goes to 1 over a set doorbell bit makes its message due (R352). -/
def hostMaskWrite (s : State) (w : Word) : State :=
  let old := s.reg HOST_DB_MASK
  (List.range 32).foldl (fun s i => if w.getLsbD i && !old.getLsbD i && (s.reg HOST_DB).getLsbD i then msgDue s i else s) (s.setReg HOST_DB_MASK w)

/-- The bits of a word, lowest first. -/
def bitList (w : Word) : List Nat := (List.range 32).filter (fun i => w.getLsbD i)

/-- A bit of KILN_DB, and of KIND_DB, is set. -/
def kilnDbSet (s : State) (i : Nat) : State := s.setReg KILN_DB (s.reg KILN_DB ||| (1#32 <<< i))
def kindDbSet (s : State) (i : Nat) : State := s.setReg KIND_DB (s.reg KIND_DB ||| (1#32 <<< i))

/-- A write to one of the registers of the three doorbell words (R351). -/
def dbWrite (s : State) (a : Nat) (w : Word) : State :=
  if a == HOST_DB_SET then (bitList w).foldl hostDbSet s
  else if a == HOST_DB_CLR then (bitList w).foldl hostDbClr s
  else if a == HOST_DB_MASK then hostMaskWrite s w
  else if a == KILN_DB_SET then s.setReg KILN_DB (s.reg KILN_DB ||| w)
  else if a == KILN_DB_CLR then s.setReg KILN_DB (s.reg KILN_DB &&& ~~~w)
  else if a == KIND_DB_SET then s.setReg KIND_DB (s.reg KIND_DB ||| w)
  else if a == KIND_DB_CLR then s.setReg KIND_DB (s.reg KIND_DB &&& ~~~w)
  else s.writeCodes a w

/-- A write to the control of MSI-X vector `i`: unmasking sends its pending message (R352). -/
def msixMask (s : State) (i : Nat) (masked : Bool) : State := sendPending (s.setMsix i { s.msix i with masked := masked }) i

end Sys2Proof.Machine
end

