-- ==== Sys2Proof/Machine/Intc.lean ====
section
/-! DEFINITION. The interrupt controller (chapter 17): what asserts each source, the states of a source, firings and storm masking, hold-off
groups, the source offered to Kiln, and delivery to the other doorbells. -/

namespace Sys2Proof.Machine

/-! ## Sources (R339) -/

/-- Whether an event that no register holds is raised for a source. -/
def State.pulsed (s : State) (n : Nat) : Bool := smGet (fun _ => false) s.pulse n

/-- The filtered level of pin-interrupt line `n` (R320). -/
def State.extLevel (s : State) (n : Nat) : Bool := smGet (fun _ => false) s.extl n

/-- How a pin-interrupt source is sensed (R340). -/
def State.sense (s : State) (n : Nat) : Nat := if 32 ≤ n && n < 48 then s.fld (INTC_SRC n) INTC_SRC_sense else 0

/-- Whether a source is sensed by edges. -/
def State.isEdge (s : State) (n : Nat) : Bool := 2 ≤ s.sense n

/-- Whether the Cord's entries beyond the persisted tail reach 7/8 of the ring (R383). -/
def State.cordFull (s : State) : Bool := 7 * (s.reg LEDGER_CORD_CAP).toNat ≤ 8 * (s.led.seq - s.led.tail)

/-- Whether a floor port's receive ring holds an entry: TAIL differs from HEAD − 1 (Table 20-6). -/
def State.rxWaiting (s : State) (p : Nat) : Bool :=
  let size := 2 ^ s.fld (FLOOR_Q_CFG p) FLOOR_Q_CFG_rx_log2
  s.fld (FLOOR_RXQ_TAIL p) FLOOR_RXQ_TAIL_index != (s.fld (FLOOR_RXQ_HEAD p) FLOOR_RXQ_HEAD_index + size - 1) % size

/-- What asserts sources 96 to 113 (Table 3-5, R482, R498). -/
def State.assertedSys (s : State) (n : Nat) : Bool :=
  match n with
  | 96 => s.bit MEM_EVT MEM_EVT_poison
  | 97 => s.bit MEM_EVT MEM_EVT_train
  | 98 => s.bit MEM_EVT MEM_EVT_parity
  | 99 => s.bit MEM_EVT MEM_EVT_drift
  | 100 => s.bit MEM_EVT MEM_EVT_csram
  | 101 => s.bit MEM_EVT MEM_EVT_mirror
  | 104 => s.bit CLK_OSC_STAT CLK_OSC_STAT_xa_lost || s.bit CLK_OSC_STAT CLK_OSC_STAT_xb_lost
  | 105 => s.fld CLK_EVT CLK_EVT_unlock != 0
  | 106 => s.bit CLK_EVT CLK_EVT_meas_done
  | 112 => s.bit PWR_THERM PWR_THERM_changed
  | 113 => s.bit PWR_STAT PWR_STAT_pmbus_fault
  | _ => false

/-- What asserts sources 128 to 183 (Tables 18-8, 20-6 and 21-4). -/
def State.assertedIo (s : State) (n : Nat) : Bool :=
  match n with
  | 128 => s.reg LEDGER_CQ_HEAD != s.reg LEDGER_CQ_TAIL
  | 129 => s.bit LEDGER_EVT LEDGER_EVT_bad_cmd
  | 130 => 32 ≤ s.led.victims.length
  | 131 => s.bit LEDGER_SEEN_STAT LEDGER_SEEN_STAT_full
  | 132 => s.cordFull
  | 133 => s.bit LEDGER_EVT LEDGER_EVT_key_fault
  | 134 => s.bit LEDGER_EVT LEDGER_EVT_auth
  | 135 => s.bit LEDGER_EVT LEDGER_EVT_reissue
  | 160 => s.bit (FLOOR_STAT 0) FLOOR_STAT_changed
  | 161 => s.bit (FLOOR_STAT 1) FLOOR_STAT_changed
  | 162 => s.rxWaiting 0
  | 163 => s.rxWaiting 1
  | 166 => s.bit (FLOOR_TXTS_ID 0) FLOOR_TXTS_ID_valid
  | 167 => s.bit (FLOOR_TXTS_ID 1) FLOOR_TXTS_ID_valid
  | 176 => s.bit HOST_LINK HOST_LINK_changed
  | 177 => s.bit HOST_LINK HOST_LINK_flr
  | 178 => s.fld HOST_CNT HOST_CNT_aer != 0
  | 179 => s.bit HOST_ERR_INFO HOST_ERR_INFO_valid
  | _ => false

/-- What asserts sources 0 to 95 (Table 17-1). -/
def State.assertedLow (s : State) (n : Nat) : Bool :=
  if n < 32 then (s.reg KILN_DB).getLsbD n
  else if n < 48 then s.bit (PIN_EXTL (n - 32)) PIN_EXTL_enable && (s.extLevel (n - 32) != (s.sense n == 1))
  else if n < 64 then
    let r := TMR_STAT (n - 48)
    s.bit r TMR_STAT_match || s.bit r TMR_STAT_wrap || s.bit r TMR_STAT_cap_full
  else if n == 64 then s.fld PIN_GUARD_STAT PIN_GUARD_STAT_tripped != 0
  else if n == 65 then s.fld ADC_LIMIT ADC_LIMIT_limit != 0
  else if n == 66 then s.reg DMA_INT_STAT &&& s.reg DMA_INT_MASK != 0
  else if n == 67 then s.fld BLK_STAT BLK_STAT_sig != 0 || s.bit BLK_STAT BLK_STAT_done
  else if n == 69 then (List.range 4).any (fun j => s.reg (AUD_VEND j) != 0)
  else if n == 72 then s.bit KIND_STALL KIND_STALL_fired
  else if 80 ≤ n && n < 84 then s.fld (SCENE_BEAM_SIG (n - 80)) SCENE_BEAM_SIG_sig != 0
  else if 84 ≤ n && n < 88 then s.bit (SCENE_COLL_STAT (n - 84)) SCENE_COLL_STAT_any
  else if 88 ≤ n && n < 92 then s.bit (HEAD_STAT (n - 88)) HEAD_STAT_bta_stuck || s.bit (HEAD_WIT_STAT (n - 88)) HEAD_WIT_STAT_stuck
  else false

/-- Whether a source is asserted now. -/
def State.asserted (s : State) (n : Nat) : Bool := s.pulsed n || (if n < 96 then s.assertedLow n else if n < 128 then s.assertedSys n else s.assertedIo n)

/-! ## States (R341) -/

/-- The state that a source shows: 0 inactive, 1 pending, 2 active, 3 active and pending. A level source is pending exactly while it is
asserted and not active. -/
def State.srcState (s : State) (n : Nat) : Nat :=
  let st := s.fld (INTC_SRC n) INTC_SRC_state
  if s.isEdge n || 2 ≤ st then st else cond (s.asserted n) 1 0

/-- Whether a source is pending. -/
def State.srcPending (s : State) (n : Nat) : Bool := s.srcState n == 1

/-- Whether a group's hold-off keeps a source back (R343); a Kiln that waits ignores it for its own sources. -/
def State.heldOff (s : State) (n : Nat) : Bool :=
  s.bit (INTC_SRC n) INTC_SRC_hold_en && s.bit (INTC_HOLD (s.fld (INTC_SRC n) INTC_SRC_group)) INTC_HOLD_running &&
    !(s.kiln.waiting && s.fld (INTC_SRC n) INTC_SRC_dest == 0)

/-- The firings counted in a source's window. -/
def State.firings (s : State) (n : Nat) : Nat := smGet (fun _ => 0) s.fires n

/-- Whether a level source has become pending and the firing is not counted yet. -/
def State.uncounted (s : State) (n : Nat) : Bool := s.fld (INTC_SRC n) INTC_SRC_state == 0 && s.srcPending n

/-- Whether a source may be presented or delivered: not where the firing still to be counted is the one that masks it (R344). -/
def State.srcFree (s : State) (n : Nat) : Bool :=
  s.srcPending n && s.bit (INTC_SRC n) INTC_SRC_enable && !s.bit (INTC_SRC n) INTC_SRC_storm && !s.heldOff n &&
    !(s.uncounted n && 1023 ≤ s.firings n)

/-- The hold-off of a source's group starts (R343). -/
def holdStart (s : State) (n : Nat) : State :=
  let r := INTC_HOLD (s.fld (INTC_SRC n) INTC_SRC_group)
  if s.bit (INTC_SRC n) INTC_SRC_hold_en && s.fld r INTC_HOLD_time != 0 then s.setBit r INTC_HOLD_running true else s

/-- The event of a source that no register holds has been taken. -/
def pulseTaken (s : State) (n : Nat) : State :=
  if n == 164 || n == 165 then s else { s with pulse := smSet (fun _ => false) s.pulse n false }

/-- The state with a source's firing count set. -/
def State.setFirings (s : State) (n k : Nat) : State := { s with fires := smSet (fun _ => 0) s.fires n k }

/-- A source becomes pending: a firing, counted while it is not masked; the 1,024th masks it (R344). -/
def fireCount (s : State) (n : Nat) : State :=
  let s := s.setFld (INTC_SRC n) INTC_SRC_state 1
  if s.bit (INTC_SRC n) INTC_SRC_storm then s
  else
    let k := s.firings n + 1
    let s := s.setFirings n k
    if 1024 ≤ k then (s.setBit (INTC_SRC n) INTC_SRC_storm true).count INTC_STAT INTC_STAT_storms else s

/-- A level source that has become pending since the controller acted on it last: the firing is counted before anything is done with it (R344). -/
def noteFiring (s : State) (n : Nat) : State := if s.uncounted n then fireCount s n else s

/-- A source that is not for Kiln sets its doorbell bit and returns to inactive (R345). -/
def deliver (s : State) (n : Nat) : State :=
  let s := noteFiring s n
  let d := s.fld (INTC_SRC n) INTC_SRC_dest
  let b := s.fld (INTC_SRC n) INTC_SRC_db
  if d == 0 || !s.srcFree n then s
  else holdStart ((pulseTaken (if d == 1 then kindDbSet s b else hostDbSet s b) n).setFld (INTC_SRC n) INTC_SRC_state 0) n

/-- A source becomes pending, and is delivered where it may be. -/
def fire (s : State) (n : Nat) : State := deliver (fireCount s n) n

/-- The controller looks at a level source: it becomes pending, stays so, or is inactive again. -/
def levelFire (s : State) (n : Nat) : State :=
  let st := s.fld (INTC_SRC n) INTC_SRC_state
  if s.isEdge n then deliver s n
  else if 2 ≤ st then s
  else if !s.asserted n then s.setFld (INTC_SRC n) INTC_SRC_state 0
  else if st == 0 then fire s n
  else deliver s n

/-- An edge of a pin-interrupt line (R340, R341). -/
def edgeFire (s : State) (n : Nat) (level : Bool) : State :=
  let hit := match s.sense n with
    | 2 => level
    | 3 => !level
    | 4 => true
    | _ => false
  if !hit then s
  else
    match s.fld (INTC_SRC n) INTC_SRC_state with
    | 0 => fire s n
    | 2 => s.setFld (INTC_SRC n) INTC_SRC_state 3
    | _ => s

/-- A write of INTC_EOI ends the active state of a source (R341). -/
def eoi (s : State) (n : Nat) : State :=
  match s.fld (INTC_SRC n) INTC_SRC_state with
  | 3 => fire s n
  | 2 =>
    let s := s.setFld (INTC_SRC n) INTC_SRC_state 0
    if !s.isEdge n && s.asserted n then fire s n else s
  | _ => s

/-- A write of 1 to storm: the bit and the count are cleared, and a source still pending goes on (R344). -/
def stormClear (s : State) (n : Nat) : State := deliver ((s.setBit (INTC_SRC n) INTC_SRC_storm false).setFirings n 0) n

/-- A group's hold-off ends (R343). -/
def holdEnd (s : State) (g : Nat) : State :=
  (List.range 256).foldl (fun s n => if s.fld (INTC_SRC n) INTC_SRC_group == g && s.srcPending n then deliver s n else s)
    (s.setBit (INTC_HOLD g) INTC_HOLD_running false)

/-! ## What is offered to Kiln (R342) -/

/-- Whether a source is presented to Kiln. -/
def State.presented (s : State) (n : Nat) : Bool := s.fld (INTC_SRC n) INTC_SRC_dest == 0 && s.srcFree n

/-- The source offered: the highest priority, and the lowest number among equals. -/
def State.offered (s : State) : Option Nat :=
  (List.range 256).foldl (fun best n =>
    if !s.presented n then best
    else match best with
      | none => some n
      | some m => if s.fld (INTC_SRC m) INTC_SRC_prio < s.fld (INTC_SRC n) INTC_SRC_prio then some n else best) none

/-- Kiln takes a source (R341, R343); its firing has been counted (R344). -/
def intcTake (s : State) (n : Nat) : State := holdStart ((pulseTaken (noteFiring s n) n).setFld (INTC_SRC n) INTC_SRC_state 2) n

/-! ## Register access -/

/-- A register write to the INTC block. -/
def intcWrite (s : State) (a : Nat) (w : Word) : State :=
  let n := (a - INTC_SRC 0) / 4
  if a < INTC_EOI then
    let t := s.writeCodes a (setF w INTC_SRC_storm 0)
    if bitOf w INTC_SRC_storm then stormClear t n else deliver t n
  else if a == INTC_EOI then eoi s (getF w INTC_EOI_source)
  else s.writeCodes a w

/-- A register read of the INTC block: states, the offered source and the pending summary as they stand. -/
def intcRead (s : State) (a : Nat) : State × Word :=
  if a < INTC_EOI then (s, setF (s.readCodes a) INTC_SRC_state (s.srcState ((a - INTC_SRC 0) / 4)))
  else if a == INTC_STAT then
    (s.readClears a, setF (setF (s.readCodes a) INTC_STAT_any (cond s.offered.isSome 1 0)) INTC_STAT_top (s.offered.getD 0))
  else if INTC_PEND 0 ≤ a ∧ a < INTC_PEND 8 then
    let j := (a - INTC_PEND 0) / 4
    (s, BitVec.ofNat 32 ((List.range 32).foldl (fun w i => w + cond (s.srcPending (32 * j + i)) (2 ^ i) 0) 0))
  else (s.readClears a, s.readCodes a)

end Sys2Proof.Machine
end

