-- ==== Sys2Proof/Machine/Pins.lean ====
section
/-! DEFINITION. General pins and the safe state (chapter 15): owners and the function switch, pad settings, banks, pin-interrupt lines, guards
and PIN_SAFE. -/

namespace Sys2Proof.Machine

/-! ## Owners (R313 to R317) -/

/-- Whether each function's enable holds for pin `n` (Table 15-2). -/
def State.timerPin (s : State) (n : Nat) : Bool := n < 16 && s.bit (TMR_CTRL n) TMR_CTRL_pin_en
def State.adcPin (s : State) (n : Nat) : Bool := 16 ≤ n && n < 32 && (s.reg ADC_SEQ).getLsbD (n - 16)
def State.audioPin (s : State) (n : Nat) : Bool :=
  (32 ≤ n && n < 48 && s.bit (AUD_SP_CFG ((n - 32) / 4)) AUD_SP_CFG_enable) ||
    (48 ≤ n && n < 56 && (s.fld AUD_PDM AUD_PDM_enable).testBit (n - 48)) || (n == 56 && s.bit AUD_PDM AUD_PDM_clk_en)
/-- Trace is on pins while it is on: enabled, with its block ON and the device unlocked (R524, R531). -/
def State.tracePin (s : State) (n : Nat) : Bool :=
  80 ≤ n && n < 89 && s.bit DBG_TRACE_CTRL DBG_TRACE_CTRL_enable && s.bit DBG_TRACE_CTRL DBG_TRACE_CTRL_pins && s.unlocked && s.blkOn 39

/-- The owner of pin `n` (R314): 0 none, 1 Kindling, 2 timer, 3 ADC, 4 audio, 5 trace. -/
def State.pinOwner (s : State) (n : Nat) : Nat :=
  if (s.reg (KPORT_EN (n / 16))).getLsbD (n % 16) then 1
  else if s.timerPin n then 2
  else if s.adcPin n then 3
  else if s.audioPin n then 4
  else if s.tracePin n then 5
  else 0

/-- The switch instant of pin `n` (R317, R326): the owner takes it, a retained level ends, a port that loses it sees 0, and the bus keeper has the level of a pad
that stops driving. -/
def pinSwitch (s : State) (n : Nat) : State :=
  if s.pinOwner n == s.fld (PIN_CFG n) PIN_CFG_func then s
  else
    let t := (s.setFld (PIN_CFG n) PIN_CFG_func (s.pinOwner n)).setBit (PIN_CFG n) PIN_CFG_retained false
    let t := { t with retain := smErase s.retain n, retDrive := smErase s.retDrive n }
    let t := padKeep s (t.setKport n { t.kport n with level := false }) n
    if s.portLevel n then sourceEdge t n false else t

/-! ## Banks and pads (R318, R319) -/

/-- The bad bit of bank `b` follows vsel and vdet. -/
def bankCheck (s : State) (b : Nat) : State :=
  let r := PIN_BANK b
  s.setBit r PIN_BANK_bad (s.fld r PIN_BANK_vsel != s.fld r PIN_BANK_vdet)

/-- From `s` to `t`: the bus keepers of bank `b` have the levels of the pads that stop driving. -/
def bankKeep (s t : State) (b : Nat) : State := (List.range 16).foldl (fun t p => padKeep s t (16 * b + p)) t

/-- A bank's supply is measured as `v`. -/
def bankSupply (s : State) (b v : Nat) : State := if b < 6 then bankKeep s (bankCheck (s.setFld (PIN_BANK b) PIN_BANK_vdet v) b) b else s

/-- A write of PIN_CFG_n (R319, R326): analogue mode is a reserved encoding on an actuator pin or one that a digital function owns. -/
def pinCfgWrite (s : State) (n : Nat) (w : Word) : State :=
  let a := PIN_CFG n
  let f := s.fld a PIN_CFG_func
  let w := if bitOf w PIN_CFG_analog && (s.isActuator n || (f != 0 && f != 3)) then setF w PIN_CFG_analog (s.fld a PIN_CFG_analog) else w
  let t := (s.writeCodes a w).setBit a PIN_CFG_retained false
  padKeep s { t with retain := smErase s.retain n, retDrive := smErase s.retDrive n } n

/-! ## Pin-interrupt lines (R320) -/

/-- Line `n` passes a filtered level, or loses a pulse. A pin in analogue mode reads 0 (R319). -/
def extlChange (s : State) (n : Nat) (level lost : Bool) : State :=
  let r := PIN_EXTL n
  let dark := s.bit (PIN_CFG (16 * s.fld r PIN_EXTL_bank + n)) PIN_CFG_analog
  if 16 ≤ n then s
  else if lost then (if dark then s else s.count r PIN_EXTL_miss)
  else
    let s := if dark then s else padSeen s (16 * s.fld r PIN_EXTL_bank + n) level
    let level := level && !dark
    if level == s.extLevel n then s
    else
      let s := { s with extl := smSet (fun _ => false) s.extl n level }
      if s.bit r PIN_EXTL_enable && s.isEdge (32 + n) then edgeFire s (32 + n) level else s

/-! ## Guards (R321 to R323) -/

/-- A four-bit field with bit `g` set or cleared. -/
def setBitOf (v g : Nat) (b : Bool) : Nat := v - cond (v.testBit g) (2 ^ g) 0 + cond b (2 ^ g) 0

/-- Whether guard `g` can trip. -/
def State.guardOn (s : State) (g : Nat) : Bool := (s.reg PIN_GUARD_CFG).getLsbD (8 * g + 7)

/-- Every actuator port goes to its inactive level, and stays there until its owner changes the value that it drives (R321, R322): what its registers held is
dropped. -/
def actuatorsOff (s : State) : State :=
  (List.range 96).foldl (fun s n => if s.isActuator n then s.setKport n { (s.kport n).emptied with inactive := true } else s) s

/-- Guard `g`'s input has been active for its filter time (R321): an enabled guard trips. -/
def guardTrip (s : State) (g : Nat) : State :=
  if 4 ≤ g then s
  else
    let r := PIN_GUARD_STAT
    let s := s.setFld r PIN_GUARD_STAT_level (setBitOf (s.fld r PIN_GUARD_STAT_level) g true)
    if !s.guardOn g then s
    else
      let s := if (s.fld r PIN_GUARD_STAT_tripped).testBit g then s else s.count r PIN_GUARD_STAT_trips
      actuatorsOff (s.setFld r PIN_GUARD_STAT_tripped (setBitOf (s.fld r PIN_GUARD_STAT_tripped) g true))

/-- Guard `g`'s filtered input becomes inactive. -/
def guardInactive (s : State) (g : Nat) : State :=
  if 4 ≤ g then s
  else s.setFld PIN_GUARD_STAT PIN_GUARD_STAT_level (setBitOf (s.fld PIN_GUARD_STAT PIN_GUARD_STAT_level) g false)

/-- A write of 1 to tripped bit `g` (R322). -/
def guardClear (s : State) (g : Nat) : State :=
  let r := PIN_GUARD_STAT
  if 4 ≤ g then s
  else if (s.fld r PIN_GUARD_STAT_level).testBit g then
    s.setFld r PIN_GUARD_STAT_clr_refused (setBitOf (s.fld r PIN_GUARD_STAT_clr_refused) g true)
  else s.setFld r PIN_GUARD_STAT_tripped (setBitOf (s.fld r PIN_GUARD_STAT_tripped) g false)

/-- A write of PIN_SAFE.release (R324): 1 is ignored while a trip is latched. -/
def safeRelease (s : State) (b : Bool) : State :=
  if b && s.fld PIN_GUARD_STAT PIN_GUARD_STAT_tripped != 0 then s else s.setBit PIN_SAFE PIN_SAFE_release b

/-- A write of PIN_SAFE.lock (R323). -/
def guardLock (s : State) : State := s.setBit PIN_SAFE PIN_SAFE_lock true

/-- A register write to the PIN block. -/
def pinWrite (s : State) (a : Nat) (w : Word) : State :=
  if a < PIN_BANK 6 then let b := (a - PIN_BANK 0) / 4; bankKeep s (bankCheck (s.writeCodes a w) b) b
  else if PIN_CFG 0 ≤ a ∧ a < PIN_CFG 96 then pinCfgWrite s ((a - PIN_CFG 0) / 4) w
  else if a == PIN_GUARD_CFG then (if s.bit PIN_SAFE PIN_SAFE_lock then s else s.writeCodes a w)
  else if a == PIN_GUARD_STAT then
    let t := s.writeCodes a (setF w PIN_GUARD_STAT_tripped 0)
    (List.range 4).foldl (fun s g => if w.getLsbD g then guardClear s g else s) t
  else if a == PIN_SAFE then
    let s := safeRelease s (bitOf w PIN_SAFE_release)
    if bitOf w PIN_SAFE_lock then guardLock s else s
  else s.writeCodes a w

end Sys2Proof.Machine
end

