-- ==== Sys2Proof/Machine/Mailbox.lean ====
section
/-! DEFINITION. Mailboxes, their locks, the posts that Falornyr makes in MBX_4 and MBX_5, and the mailbox agent (R347 to R350, R437, R443).
A mailbox's lock is kept in its STAT.holder. -/

namespace Sys2Proof.Machine

/-- The lock IDs of the host and of Kiln; thread t has 16 + t. -/
def idHost : Nat := 1
def idKiln : Nat := 2

/-- The sender of mailbox `n`, and its receiver (Table 17-2). -/
def mbxSender (n id : Nat) : Bool :=
  if n < 4 then id == idHost else if n < 6 then id == idKiln else if n == 6 then 16 ≤ id else id == idKiln
def mbxReceiver (n id : Nat) : Bool :=
  if n < 4 then id == idKiln else if n < 6 then id == idHost else if n == 6 then id == idKiln else 16 ≤ id

/-- The owner of a mailbox's lock; 0 free. -/
def State.mbxOwner (s : State) (n : Nat) : Nat := s.fld (MBX_STAT n) MBX_STAT_holder

/-- Whether a message is posted. -/
def State.mbxBusy (s : State) (n : Nat) : Bool := s.bit (MBX_CTRL n) MBX_CTRL_go

/-- A write that is not accepted (R348, R349). -/
def mbxRefuse (s : State) (n : Nat) : State := s.setBit (MBX_STAT n) MBX_STAT_refused true

/-- A read of MBX_n_LOCK by initiator `id` (R348): the value read beside the state. -/
def mbxLockRead (s : State) (n id : Nat) : State × Nat :=
  if s.mbxOwner n != 0 then (s, s.mbxOwner n)
  else if mbxSender n id then (s.setFld (MBX_STAT n) MBX_STAT_holder id, 0)
  else (s, 0xFF)

/-- A write of MBX_n_LOCK by initiator `id` (R348). -/
def mbxLockWrite (s : State) (n id : Nat) (w : Word) : State :=
  if bitOf w MBX_LOCK_force && id == idKiln then s.setFld (MBX_STAT n) MBX_STAT_holder 0
  else if !bitOf w MBX_LOCK_force && getF w MBX_LOCK_owner == 0 && s.mbxOwner n == id then s.setFld (MBX_STAT n) MBX_STAT_holder 0
  else mbxRefuse s n

/-- The doorbell bit that a go sets, and the one that an ack sets (Table 17-2). -/
def goBell (s : State) (n : Nat) : State :=
  if n < 4 then kilnDbSet s n else if n < 6 then hostDbSet s (n - 4) else if n == 6 then kilnDbSet s 6 else kindDbSet s 1
def ackBell (s : State) (n : Nat) : State :=
  if n < 4 then hostDbSet s (8 + n) else if n < 6 then kilnDbSet s n else if n == 6 then kindDbSet s 0 else kilnDbSet s 7

/-- A write of DATA_k by initiator `id` (R349). -/
def mbxData (s : State) (n k id : Nat) (w : Word) : State :=
  if s.mbxOwner n == id && !s.mbxBusy n then s.setReg (MBX_DATA n k) w else mbxRefuse s n

/-- A write of go = 1 by initiator `id` (R349); Falornyr serves the request mailboxes in the order of their goes (R439). A length above 16 is a reserved encoding: the field stays. -/
def mbxGo (s : State) (n id len : Nat) : State :=
  if s.mbxOwner n == id && !s.mbxBusy n then
    let s := { s with fw := { s.fw with goes := if n < 4 then s.fw.goes ++ [n] else s.fw.goes } }
    goBell ((if len ≤ 16 then s.setFld (MBX_CTRL n) MBX_CTRL_len len else s).setBit (MBX_CTRL n) MBX_CTRL_go true) n
  else mbxRefuse s n

/-! ## What Falornyr posts (R437, R443) -/

/-- Words put in a mailbox that Falornyr owns, and its go set. -/
def fwPost (s : State) (n : Nat) (ws : List Nat) : State :=
  let s := ws.zipIdx.foldl (fun s e => s.setReg (MBX_DATA n e.2) (BitVec.ofNat 32 e.1)) s
  mbxGo (s.setFld (MBX_STAT n) MBX_STAT_holder idKiln) n idKiln ws.length

/-- The next response leaves for the host when MBX_4 is free. -/
def fwPostResp (s : State) : State :=
  if s.mbxBusy 4 then s
  else match s.fw.resps with
    | [] => s
    | r :: rest => fwPost { s with fw := { s.fw with resps := rest } } 4 r

/-- How many entries of an opcode one message takes: seven TXIDs, or the one entry of a HEALTH_EVENT or SYS_EVENT (R443, Table 21-16). -/
def noteRoom (op : Nat) : Nat := if op == 0x50F0 || op == 0x01F0 then 1 else 7

/-- The notification entries that go in one message: at most so many with the first one's opcode, in order. -/
def noteRun : Nat → Nat → List (Nat × Nat) → List Nat
  | 0, _, _ => []
  | _, _, [] => []
  | k + 1, op, e :: es => if e.1 == op then e.2 :: noteRun k op es else []

/-- The next notification message leaves when MBX_5 is free (R443). -/
def fwPostNote (s : State) : State :=
  if s.mbxBusy 5 then s
  else match s.fw.notes with
    | [] => s
    | e :: es =>
      let ids := noteRun (noteRoom e.1) e.1 (e :: es)
      let hdr := e.1 * 65536 + s.fw.noteSeq % 256 * 256 + 0xC0
      let body := ids.foldr (fun i ws => i % 2 ^ 32 :: i / 2 ^ 32 % 2 ^ 32 :: ws) []
      fwPost { s with fw := { s.fw with notes := (e :: es).drop ids.length, noteSeq := s.fw.noteSeq + 1 } } 5 (hdr :: ids.length :: body)

/-- A write of ack = 1 by initiator `id` (R349); what waits for MBX_4 or MBX_5 is posted (R437, R443). -/
def mbxAck (s : State) (n id : Nat) : State :=
  if mbxReceiver n id && s.mbxBusy n then
    let s := ackBell (s.setBit (MBX_CTRL n) MBX_CTRL_go false) n
    if n == 4 then fwPostResp s else if n == 5 then fwPostNote s else s
  else mbxRefuse s n

/-- A register write to the MBX block by initiator `id`. R349 says what a write of MBX_n_CTRL with go or ack does: one with neither leaves len as it was, and of
one with both ack acts first (DESIGN CHOICE, assumption 94). -/
def mbxWrite (s : State) (id a : Nat) (w : Word) : State :=
  let off := a - 0x400A0000
  let n := off / 0x100
  if 0x800 ≤ off then dbWrite s a w
  else if off % 0x100 < 0x40 then mbxData s n (off % 0x100 / 4) id w
  else if off % 0x100 = 0x40 then
    let s := if bitOf w MBX_CTRL_ack then mbxAck s n id else s
    if bitOf w MBX_CTRL_go then mbxGo s n id (getF w MBX_CTRL_len) else s
  else if off % 0x100 = 0x44 then mbxLockWrite s n id w
  else s.writeCodes a w

/-- The doorbell word that a _SET or _CLR register acts on. -/
def dbWord (a : Nat) : Option Nat :=
  if a == HOST_DB_SET || a == HOST_DB_CLR then some HOST_DB
  else if a == KILN_DB_SET || a == KILN_DB_CLR then some KILN_DB
  else if a == KIND_DB_SET || a == KIND_DB_CLR then some KIND_DB
  else none

/-- A register read of the MBX block by initiator `id`: a _SET or _CLR register reads as the word it acts on (Table 0-2, R351). -/
def mbxRead (s : State) (id a : Nat) : State × Word :=
  let off := a - 0x400A0000
  if off < 0x800 ∧ off % 0x100 = 0x44 then
    let r := mbxLockRead s (off / 0x100) id
    (r.1, BitVec.ofNat 32 r.2)
  else if off < 0x800 ∧ off % 0x100 = 0x40 then (s, setF (s.readCodes a) MBX_CTRL_ack 0)
  else match dbWord a with
    | some r => (s, s.reg r)
    | none => (s.readClears a, s.readCodes a)

/-! ## The mailbox agent (R350) -/

/-- The agent's mailbox, and its Kiln end. -/
def agentEnd (n : Nat) : Nat := n + 8

/-- The first closed message of a Kiln end, its marker, and the tokens after it. -/
def firstMessage (toks : List Nat) : Option (List Nat × Nat × List Nat) :=
  match toks.dropWhile (fun w => !isMarker w) with
  | [] => none
  | m :: rest => some (toks.takeWhile (fun w => !isMarker w), m, rest)

/-- The bytes of a reply leave for a reply end, or the reply is dropped and counted. -/
def agentReply (s : State) (n reply : Nat) (bytes : List Nat) : State :=
  if reply < 128 && (s.chEnd reply).alloc then
    let k := agentEnd n
    s.setKEnd k { s.kEnd k with tx := (s.kEnd k).tx ++ bytes ++ [ctEnd], dest := reply }
  else s.count MBX_AGENT MBX_AGENT_bad

/-- The words that a WRITE request carries. -/
def wordsOf : List Nat → List Nat
  | a :: b :: c :: d :: rest => (a + 256 * b + 65536 * c + 16777216 * d) :: wordsOf rest
  | _ => []

/-- The first request of mailbox `n`'s agent: its bytes, when its message is closed by CT_END. -/
def State.agentRequest (s : State) (n : Nat) : Option (List Nat) :=
  if !s.agentOn (agentEnd n) then none
  else match firstMessage (s.kEnd (agentEnd n)).rx with
    | some (toks, m, _) => if m == ctAbort then none else some (toks.map (· % 256))
    | none => none

/-- The first message of an agent's end leaves its buffer. -/
def agentTake (s : State) (n : Nat) : State :=
  let k := agentEnd n
  match firstMessage (s.kEnd k).rx with
  | some (_, _, rest) => pumpAborts (s.setKEnd k { s.kEnd k with rx := rest, ids := (s.kEnd k).ids.drop 1 })
  | none => s

/-- The ID of the first request's sender: 16 plus the owner of the sending end, when it sent the message. -/
def State.agentId (s : State) (n : Nat) : Nat := (s.kEnd (agentEnd n)).ids.headD 16

/-- A mailbox write answered with 0, or with 0xFF when it was refused. -/
def agentTry (s : State) (n : Nat) (f : State → State) : State × List Nat :=
  let was := s.bit (MBX_STAT n) MBX_STAT_refused
  let t := f (s.setBit (MBX_STAT n) MBX_STAT_refused false)
  let no := t.bit (MBX_STAT n) MBX_STAT_refused
  (t.setBit (MBX_STAT n) MBX_STAT_refused (was || no), [cond no 0xFF 0])

/-- WRITE of words from DATA_k. -/
def agentWords (s : State) (n id k : Nat) (ws : List Nat) : State :=
  ws.zipIdx.foldl (fun s e => mbxData s n (k + e.2) id (BitVec.ofNat 32 e.1)) s

/-- What each request does, and its reply (Table 17-3). -/
def agentLock (s : State) (n id : Nat) : State × List Nat :=
  let r := mbxLockRead s n id
  (r.1, [r.2])
def agentUnlock (s : State) (n id : Nat) : State × List Nat := agentTry s n (fun s => mbxLockWrite s n id 0)
def agentWrite (s : State) (n id : Nat) (bs : List Nat) : State × List Nat :=
  let k := bs.getD 0 0
  let c := bs.getD 1 0
  if bs.length < 2 + 4 * c || c == 0 || 16 < k + c then (s, [0xFE])
  else agentTry s n (fun s => agentWords s n id k (wordsOf ((bs.drop 2).take (4 * c))))
def agentRead (s : State) (n : Nat) (bs : List Nat) : State × List Nat :=
  let k := bs.getD 0 0
  let c := bs.getD 1 0
  if bs.length < 2 || c == 0 || 16 < k + c then (s, [0xFE])
  else (s, (List.range c).flatMap (fun i => (leBytes 4 (s.reg (MBX_DATA n (k + i))).toNat).map BitVec.toNat))
def agentGo (s : State) (n id : Nat) (bs : List Nat) : State × List Nat :=
  if bs.isEmpty then (s, [0xFE]) else agentTry s n (fun s => mbxGo s n id (bs.getD 0 0))
def agentAck (s : State) (n id : Nat) : State × List Nat := agentTry s n (fun s => mbxAck s n id)
def agentRing (s : State) (bs : List Nat) : State × List Nat :=
  if bs.length < 4 then (s, [0xFE]) else (dbWrite s KILN_DB_SET (BitVec.ofNat 32 ((wordsOf bs).getD 0 0)), [0])

/-- Whether a reply of mailbox `n`'s agent has still to leave: it serves one request at a time. -/
def State.agentBusy (s : State) (n : Nat) : Bool := !(s.kEnd (agentEnd n)).tx.isEmpty || (s.kEnd (agentEnd n)).out

/-- Mailbox `n`'s agent, once its last reply has left, serves its first request when that is `op`; an unknown op, or one with no reply end, and a message
closed by CT_ABORT are taken in the same way. -/
def agentServe (s : State) (n op : Nat) (f : State → Nat → List Nat → State × List Nat) : State :=
  if s.agentBusy n then s else
  match s.agentRequest n with
  | none =>
    match if s.agentOn (agentEnd n) then firstMessage (s.kEnd (agentEnd n)).rx else none with
    | some (_, m, _) => if m == ctAbort then agentTake s n else s
    | none => s
  | some [] => (agentTake s n).count MBX_AGENT MBX_AGENT_bad
  | some [_] => (agentTake s n).count MBX_AGENT MBX_AGENT_bad
  | some (o :: reply :: bs) =>
    if o == op then
      let r := f (agentTake s n) (s.agentId n) bs
      agentReply r.1 n reply r.2
    else if o == 0 || 7 < o then agentReply (agentTake s n) n reply [0xFE]
    else s

end Sys2Proof.Machine
end

