-- ==== Sys2Proof/Machine/Sha.lean ====
section
/-! DEFINITION. SHA3-256 (FIPS 202), HMAC and HKDF with SHA-256 (RFC 5869), which R359, R361 and R370 name. PRESUMED from those standards
(assumption 20). -/

namespace Sys2Proof.Machine

/-! ## SHA3-256 -/

/-- A 64-bit lane rotated left. -/
def rotl64 (x k : Nat) : Nat := if k == 0 then x else rorWord 64 x (64 - k)

/-- Lane (x, y) of a Keccak state of 25 lanes. -/
def lane (a : List Nat) (x y : Nat) : Nat := a.getD (x % 5 + 5 * (y % 5)) 0

/-- The 25 lanes from a function of x and y. -/
def lanes (f : Nat → Nat → Nat) : List Nat := (List.range 25).map (fun i => f (i % 5) (i / 5))

/-- The rotation offsets of step rho, lane by lane. -/
def keccakRho : List Nat := [0, 1, 62, 28, 27, 36, 44, 6, 55, 20, 3, 10, 43, 25, 39, 41, 45, 15, 21, 8, 18, 2, 61, 56, 14]

/-- The shift register of step iota after `n` steps. -/
def keccakLfsr : Nat → Nat
  | 0 => 1
  | n + 1 => let r := keccakLfsr n * 2; if 256 ≤ r then (r % 256) ^^^ 0x71 else r

/-- The constant of round `r`: bit 2^j - 1 is output 7 r + j of the shift register. -/
def keccakRC (r : Nat) : Nat := (List.range 7).foldl (fun c j => c + (keccakLfsr (7 * r + j) % 2) * 2 ^ (2 ^ j - 1)) 0

/-- One round of Keccak-f[1600]. -/
def keccakRound (a : List Nat) (r : Nat) : List Nat :=
  let c := (List.range 5).map (fun x => lane a x 0 ^^^ lane a x 1 ^^^ lane a x 2 ^^^ lane a x 3 ^^^ lane a x 4)
  let d := (List.range 5).map (fun x => c.getD ((x + 4) % 5) 0 ^^^ rotl64 (c.getD ((x + 1) % 5) 0) 1)
  let a := lanes (fun x y => lane a x y ^^^ d.getD x 0)
  let b := lanes (fun x y => rotl64 (lane a (x + 3 * y) x) (keccakRho.getD ((x + 3 * y) % 5 + 5 * x) 0))
  let a := lanes (fun x y => lane b x y ^^^ ((0xFFFFFFFFFFFFFFFF - lane b (x + 1) y) &&& lane b (x + 2) y))
  a.set 0 (a.getD 0 0 ^^^ keccakRC r)

/-- Keccak-f[1600]. -/
def keccakF (a : List Nat) : List Nat := (List.range 24).foldl keccakRound a

/-- `n` blocks of 136 bytes absorbed. -/
def sha3Absorb : Nat → List Nat → List Byte → List Nat
  | 0, a, _ => a
  | n + 1, a, m =>
    let a := a.zipIdx.map (fun e => if e.2 < 17 then e.1 ^^^ leOf ((m.drop (8 * e.2)).take 8) else e.1)
    sha3Absorb n (keccakF a) (m.drop 136)

/-- SHA3-256 of a list of bytes: 32 bytes. -/
def sha3 (m : List Byte) : List Byte :=
  let z := 136 - m.length % 136
  let pad : List Byte := if z == 1 then [0x86] else [0x06] ++ List.replicate (z - 2) 0 ++ [0x80]
  let p := m ++ pad
  ((sha3Absorb (p.length / 136) (List.replicate 25 0) p).take 4).flatMap (leBytes 8)

/-! ## HMAC and HKDF -/

/-- HMAC-SHA-256. -/
def hmac (key m : List Byte) : List Byte :=
  let k := if 64 < key.length then sha256 key else key
  let k := k ++ List.replicate (64 - k.length) 0
  sha256 (k.map (· ^^^ 0x5C) ++ sha256 (k.map (· ^^^ 0x36) ++ m))

/-- The blocks of HKDF's expand step from block `i` on. -/
def hkdfBlocks (prk info : List Byte) : Nat → Nat → List Byte → List Byte
  | 0, _, _ => []
  | n + 1, i, prev =>
    let t := hmac prk (prev ++ info ++ [BitVec.ofNat 8 i])
    t ++ hkdfBlocks prk info n (i + 1) t

/-- HKDF-SHA-256: `len` bytes from a secret, a salt and info. -/
def hkdf (secret salt info : List Byte) (len : Nat) : List Byte := (hkdfBlocks (hmac salt secret) info ((len + 31) / 32) 1 []).take len

end Sys2Proof.Machine
end

