-- ==== Sys2Proof/Machine/Aes.lean ====
section
/-! DEFINITION. AES-256 (FIPS 197) in Galois/Counter Mode with a 128-bit tag (NIST SP 800-38D), which R371 and R372 name. PRESUMED from those
standards (assumption 20). -/

namespace Sys2Proof.Machine

/-- A product in the field of AES: `n` bits of the second factor remain. -/
def gmul : Nat → Nat → Nat → Nat
  | 0, _, _ => 0
  | n + 1, a, b =>
    let a2 := 2 * a
    (if b % 2 == 1 then a else 0) ^^^ gmul n (if 256 ≤ a2 then (a2 % 256) ^^^ 0x1B else a2) (b / 2)

/-- The powers x, x², … multiplied `n` times: x to the power n + 1. -/
def gpow (x : Nat) : Nat → Nat
  | 0 => x
  | n + 1 => gmul 8 (gpow x n) x

/-- The S-box: the inverse in the field, then the affine map. -/
def sbox (x : Nat) : Nat :=
  let i := gpow x 253
  let r := fun k => (i * 2 ^ k ||| i / 2 ^ (8 - k)) % 256
  i ^^^ r 1 ^^^ r 2 ^^^ r 3 ^^^ r 4 ^^^ 0x63

/-- The 60 words of the key schedule of a 32-byte key, newest first: `n` words still to make. -/
def keyExpand : Nat → Nat → List (List Nat) → List (List Nat)
  | 0, _, w => w
  | n + 1, i, w =>
    let t := w.getD 0 []
    let t := if i % 8 == 0 then
        let r := (t.drop 1 ++ t.take 1).map sbox
        r.set 0 (r.getD 0 0 ^^^ 2 ^ (i / 8 - 1))
      else if i % 8 == 4 then t.map sbox else t
    keyExpand n (i + 1) (List.zipWith (· ^^^ ·) (w.getD 7 []) t :: w)

/-- The 15 round keys of a key. -/
def roundKeys (key : List Byte) : List (List Nat) :=
  let w := (List.range 8).map (fun i => ((key.drop (4 * i)).take 4).map BitVec.toNat)
  let ws := (keyExpand 52 8 w.reverse).reverse
  (List.range 15).map (fun r => ((ws.drop (4 * r)).take 4).flatten)

/-- A round key added to a block. -/
def addKey (b k : List Nat) : List Nat := List.zipWith (· ^^^ ·) b k

/-- SubBytes and ShiftRows of a block held column by column. -/
def subShift (b : List Nat) : List Nat := (List.range 16).map (fun i => sbox (b.getD ((i + 4 * (i % 4)) % 16) 0))

/-- MixColumns. -/
def mixColumns (b : List Nat) : List Nat :=
  (List.range 16).map fun i =>
    let at' := fun j => b.getD (i / 4 * 4 + (i + j) % 4) 0
    gmul 8 (at' 0) 2 ^^^ gmul 8 (at' 1) 3 ^^^ at' 2 ^^^ at' 3

/-- One block encrypted with AES-256. -/
def aesBlock (ks : List (List Nat)) (b : List Byte) : List Byte :=
  let b := addKey (b.map BitVec.toNat) (ks.getD 0 [])
  let b := (List.range 13).foldl (fun b r => addKey (mixColumns (subShift b)) (ks.getD (r + 1) [])) b
  (addKey (subShift b) (ks.getD 14 [])).map (BitVec.ofNat 8)

/-- A product in the field of GHASH, from bit 127 of the first factor down. -/
def ghMul (x : Nat) : Nat → Nat → Nat
  | 0, _ => 0
  | n + 1, v => (if x.testBit n then v else 0) ^^^ ghMul x n (if v % 2 == 1 then v / 2 ^^^ 0xE1 * 2 ^ 120 else v / 2)

/-- GHASH of whole blocks. -/
def ghash (h : Nat) : Nat → Nat → List Byte → Nat
  | 0, y, _ => y
  | n + 1, y, m => ghash h n (ghMul (y ^^^ beOf (m.take 16)) 128 h) (m.drop 16)

/-- Zeros up to a whole number of blocks. -/
def padBlock (m : List Byte) : List Byte := m ++ List.replicate ((16 - m.length % 16) % 16) 0

/-- The key stream of `n` blocks from counter `c`. -/
def ctrStream (ks : List (List Nat)) (iv : List Byte) : Nat → Nat → List Byte
  | 0, _ => []
  | n + 1, c => aesBlock ks (iv ++ beBytes 4 c) ++ ctrStream ks iv n (c + 1)

/-- A text combined with its key stream. -/
def gcmCtr (ks : List (List Nat)) (iv text : List Byte) : List Byte :=
  List.zipWith (· ^^^ ·) text (ctrStream ks iv ((text.length + 15) / 16) 2)

/-- The tag of a ciphertext and its additional data. -/
def gcmTag (ks : List (List Nat)) (iv aad ct : List Byte) : List Byte :=
  let h := beOf (aesBlock ks (List.replicate 16 0))
  let m := padBlock aad ++ padBlock ct ++ beBytes 8 (8 * aad.length) ++ beBytes 8 (8 * ct.length)
  List.zipWith (· ^^^ ·) (beBytes 16 (ghash h (m.length / 16) 0 m)) (aesBlock ks (iv ++ beBytes 4 1))

/-- Encryption: the ciphertext and then the tag (R371). -/
def gcmSeal (key iv aad text : List Byte) : List Byte :=
  let ks := roundKeys key
  let ct := gcmCtr ks iv text
  ct ++ gcmTag ks iv aad ct

/-- Decryption of a ciphertext and tag: the text when the tag verifies (R372). -/
def gcmOpen (key iv aad sealed : List Byte) : Option (List Byte) :=
  let ks := roundKeys key
  let ct := sealed.take (sealed.length - 16)
  if gcmTag ks iv aad ct == sealed.drop (sealed.length - 16) then some (gcmCtr ks iv ct) else none

end Sys2Proof.Machine
end

