-- ==== Sys2Proof/Machine/Curve.lean ====
section
/-! DEFINITION. The Retorts' arithmetic (R361): ECDSA P-256 with deterministic nonces (FIPS 186-5), Ed25519 verification (RFC 8032) and X25519
(RFC 7748). PRESUMED from those standards (assumption 20). -/

namespace Sys2Proof.Machine

/-! ## Arithmetic modulo a prime -/

/-- b to the power e modulo m, over the low `n` bits of e. -/
def powMod (m : Nat) : Nat → Nat → Nat → Nat
  | 0, _, _ => 1 % m
  | n + 1, b, e => (if e % 2 == 1 then b else 1) * powMod m n (b * b % m) (e / 2) % m

/-- The inverse modulo a prime below 2^256. -/
def invMod (p x : Nat) : Nat := powMod p 256 (x % p) (p - 2)

/-- A difference modulo p. -/
def subMod (p x y : Nat) : Nat := (x % p + (p - y % p)) % p

/-! ## P-256 -/

def p256P : Nat := 2 ^ 256 - 2 ^ 224 + 2 ^ 192 + 2 ^ 96 - 1
def p256N : Nat := 0xFFFFFFFF00000000FFFFFFFFFFFFFFFFBCE6FAADA7179E84F3B9CAC2FC632551
def p256B : Nat := 0x5AC635D8AA3A93E7B3EBBD55769886BC651D06B0CC53B0F63BCE3C3E27D2604B
def p256G : Nat × Nat :=
  (0x6B17D1F2E12C4247F8BCE6E563A440F277037D812DEB33A0F4A13945D898C296,
   0x4FE342E2FE1A7F9B8EE7EB4A7C0F9E162BCE33576B315ECECBB6406837BF51F5)

/-- A sum of points; none is the point at infinity. -/
def p256Add (a b : Option (Nat × Nat)) : Option (Nat × Nat) :=
  match a, b with
  | none, q => q
  | q, none => q
  | some (x1, y1), some (x2, y2) =>
    if x1 == x2 && (y1 + y2) % p256P == 0 then none
    else
      let l := if x1 == x2 then subMod p256P (3 * x1 * x1) 3 * invMod p256P (2 * y1) % p256P
        else subMod p256P y2 y1 * invMod p256P (subMod p256P x2 x1) % p256P
      let x3 := subMod p256P (l * l) (x1 + x2)
      some (x3, subMod p256P (l * subMod p256P x1 x3) y1)

/-- A multiple of a point, over `n` bits of the factor. -/
def p256Mul : Nat → Nat → Option (Nat × Nat) → Option (Nat × Nat)
  | 0, _, _ => none
  | n + 1, k, q =>
    let r := p256Mul n (k / 2) (p256Add q q)
    if k % 2 == 1 then p256Add r q else r

/-- Whether a point lies on the curve. -/
def p256On (q : Nat × Nat) : Bool :=
  q.1 < p256P && q.2 < p256P && q.2 * q.2 % p256P == (q.1 * q.1 * q.1 + (p256P - 3) * q.1 + p256B) % p256P

/-- The public key of a private key, x then y (R359). -/
def p256Public (d : Nat) : List Byte :=
  match p256Mul 256 d (some p256G) with
  | some (x, y) => beBytes 32 x ++ beBytes 32 y
  | none => List.replicate 64 0

/-- The nonce of a deterministic signature (FIPS 186-5): the K and V of the generator, with `n` tries left. -/
def detNonce : Nat → List Byte → List Byte → Nat
  | 0, _, _ => 1
  | n + 1, k, v =>
    let v := hmac k v
    let t := beOf v
    if 1 ≤ t && t < p256N then t
    else
      let k := hmac k (v ++ [0])
      detNonce n k (hmac k v)

/-- The nonce for a key and a digest. -/
def ecdsaNonce (d : Nat) (digest : List Byte) : Nat :=
  let x := beBytes 32 d
  let h := beBytes 32 (beOf digest % p256N)
  let v0 : List Byte := List.replicate 32 1
  let k := hmac (List.replicate 32 0) (v0 ++ [0] ++ x ++ h)
  let v := hmac k v0
  let k := hmac k (v ++ [1] ++ x ++ h)
  detNonce 8 k (hmac k v)

/-- An ECDSA signature of a 32-byte digest: r then s. -/
def ecdsaSign (d : Nat) (digest : List Byte) : List Byte :=
  let k := ecdsaNonce d digest
  let r := match p256Mul 256 k (some p256G) with
    | some (x, _) => x % p256N
    | none => 0
  let s := invMod p256N k * (beOf digest + r * d) % p256N
  beBytes 32 r ++ beBytes 32 s

/-- Verification of an ECDSA signature by a public key. -/
def ecdsaVerify (pub digest sig : List Byte) : Bool :=
  let q := (beOf (pub.take 32), beOf ((pub.drop 32).take 32))
  let r := beOf (sig.take 32)
  let s := beOf ((sig.drop 32).take 32)
  if r == 0 || p256N ≤ r || s == 0 || p256N ≤ s || !p256On q then false
  else
    let w := invMod p256N s
    match p256Add (p256Mul 256 (beOf digest * w % p256N) (some p256G)) (p256Mul 256 (r * w % p256N) (some q)) with
    | some (x, _) => x % p256N == r
    | none => false

/-! ## Ed25519 and X25519 -/

def p255 : Nat := 2 ^ 255 - 19
def edL : Nat := 2 ^ 252 + 27742317777372353535851937790883648493
def edD : Nat := subMod p255 0 (121665 * invMod p255 121666)

/-- A sum of points of the Edwards curve. -/
def edAdd (a b : Nat × Nat) : Nat × Nat :=
  let m := a.1 * b.1 % p255 * (a.2 * b.2 % p255) % p255 * edD % p255
  ((a.1 * b.2 + a.2 * b.1) % p255 * invMod p255 (1 + m) % p255, (a.2 * b.2 + a.1 * b.1) % p255 * invMod p255 (subMod p255 1 m) % p255)

/-- A multiple of a point, over `n` bits of the factor. -/
def edMul : Nat → Nat → Nat × Nat → Nat × Nat
  | 0, _, _ => (0, 1)
  | n + 1, k, q =>
    let r := edMul n (k / 2) (edAdd q q)
    if k % 2 == 1 then edAdd r q else r

/-- A point from its 32 bytes. -/
def edDecode (bs : List Byte) : Option (Nat × Nat) :=
  let n := leOf bs
  let y := n % 2 ^ 255
  let odd := n / 2 ^ 255 % 2
  if p255 ≤ y then none
  else
    let u := subMod p255 (y * y) 1
    let v := (edD * y % p255 * y + 1) % p255
    let v3 := v * v % p255 * v % p255
    let x := u * v3 % p255 * powMod p255 256 (u * (v3 * v3 % p255 * v % p255) % p255) ((p255 - 5) / 8) % p255
    let vx := v * (x * x % p255) % p255
    let x := if vx == u then some x
      else if vx == subMod p255 0 u then some (x * powMod p255 256 2 ((p255 - 1) / 4) % p255) else none
    match x with
    | none => none
    | some x => if x == 0 && odd == 1 then none else some (if x % 2 == odd then x else p255 - x, y)

/-- The base point. -/
def edBase : Nat × Nat := (edDecode (leBytes 32 (4 * invMod p255 5 % p255))).getD (0, 1)

/-- Verification of an Ed25519 signature of a message, with the equation of RFC 8032. -/
def edVerify (pub m sig : List Byte) : Bool :=
  match edDecode (pub.take 32), edDecode (sig.take 32) with
  | some a, some r =>
    let s := leOf ((sig.drop 32).take 32)
    let k := leOf (sha512 (sig.take 32 ++ pub.take 32 ++ m)) % edL
    s < edL && edMul 256 (8 * s) edBase == edAdd (edMul 4 8 r) (edMul 260 (8 * k) a)
  | _, _ => false

/-- One step of the Montgomery ladder on (x2, z2, x3, z3). -/
def ladderStep (u : Nat) (q : Nat × Nat × Nat × Nat) : Nat × Nat × Nat × Nat :=
  let (x2, z2, x3, z3) := q
  let a := (x2 + z2) % p255
  let b := subMod p255 x2 z2
  let aa := a * a % p255
  let bb := b * b % p255
  let e := subMod p255 aa bb
  let da := subMod p255 x3 z3 * a % p255
  let cb := (x3 + z3) % p255 * b % p255
  let t := subMod p255 da cb
  (aa * bb % p255, e * ((aa + 121665 * e) % p255) % p255, (da + cb) % p255 * ((da + cb) % p255) % p255, u * (t * t % p255) % p255)

/-- The ladder over the bits of the scalar from bit `n - 1` down. -/
def ladder (u k : Nat) : Nat → Nat × Nat × Nat × Nat → Nat × Nat × Nat × Nat
  | 0, q => q
  | n + 1, q =>
    let (x2, z2, x3, z3) := q
    if k.testBit n then
      let (a, b, c, d) := ladderStep u (x3, z3, x2, z2)
      ladder u k n (c, d, a, b)
    else ladder u k n (ladderStep u q)

/-- X25519 of a scalar and a point, each of 32 bytes. -/
def x25519 (scalar point : List Byte) : List Byte :=
  let k := leOf scalar
  let k := k % 2 ^ 255 - k % 8
  let k := if k.testBit 254 then k else k + 2 ^ 254
  let u := leOf point % 2 ^ 255 % p255
  let (x2, z2, _, _) := ladder u k 255 (1, 0, u, 1)
  leBytes 32 (x2 * invMod p255 z2 % p255)

end Sys2Proof.Machine
end

