-- ==== Sys2Proof/Machine/Xlate.lean ====
section
/-! DEFINITION. Translation engines (R373 to R375): the digit encodings, and one function per instruction of Table 18-6 on an engine's state. -/

namespace Sys2Proof.Machine

/-! ## Reading the input -/

/-- The next `n` bytes of the input and the engine past them; code 1 when it is exhausted. -/
def xlTake (x : Xl) (n : Nat) : Except Nat (List Byte × Xl) :=
  if x.input.length < x.cur + n then .error 1 else .ok ((x.input.drop x.cur).take n, { x with cur := x.cur + n })

/-- The value of a digit character: 16 when it is none (R373). -/
def digitOf (enc : Nat) (b : Byte) : Nat :=
  let base := if enc == 1 then 0x30 else 0xF0
  if base ≤ b.toNat && b.toNat < base + 10 then b.toNat - base else 16

/-- The value of a hex character: 16 when it is none (R373). -/
def hexOf (enc : Nat) (b : Byte) : Nat :=
  let v := b.toNat
  let up := if enc == 1 then 0x41 else 0xC1
  let low := if enc == 1 then 0x61 else 0x81
  if digitOf enc b < 16 then digitOf enc b
  else if up ≤ v && v < up + 6 then v - up + 10
  else if low ≤ v && v < low + 6 then v - low + 10
  else 16

/-- The nibbles of bytes, high one first. -/
def nibbles (bs : List Byte) : List Nat := bs.flatMap (fun b => [b.toNat / 16, b.toNat % 16])

/-- The bytes that `n` digits take. -/
def digitBytes (enc n : Nat) : Nat := if enc == 0 then (n + 1) / 2 else n

/-- The `n` digits in the bytes that hold them; an odd BCD count is padded at the left. -/
def digitsIn (enc n : Nat) (bs : List Byte) : List Nat := if enc == 0 then (nibbles bs).drop (n % 2) else bs.map (digitOf enc)

/-- The number that digits spell; code 2 where one is none. -/
def numberOf (ds : List Nat) : Except Nat Nat := if ds.any (10 ≤ ·) then .error 2 else .ok (ds.foldl (fun v d => 10 * v + d) 0)

/-! ## Results -/

/-- The engine stops (R374, R375): status 0 with a detail, or XL_FAIL with a code. -/
def xlStop (x : Xl) (status detail : Nat) : Xl := { x with stop := some (status, detail) }
def xlFail (x : Xl) (code : Nat) : Xl := xlStop x 9 code

/-- The engine at its next instruction, or stopped. -/
def xlNext (x : Xl) (r : Except Nat Xl) : Xl :=
  match r with
  | .error c => xlFail x c
  | .ok y => { y with pc := x.pc + 1 }

/-- Register x of an engine, and the engine with it set. -/
def Xl.reg (x : Xl) (i : Nat) : Nat := x.x.getD i 0
def Xl.setX (x : Xl) (i v : Nat) : Xl := { x with x := x.x.set i (v % 2 ^ 64) }

/-- Field f of an engine, when it is recorded. -/
def Xl.field (x : Xl) (i : Nat) : Option XlField := (x.f.find? (fun e => e.1 == i)).map (·.2)

/-- Whether bit i of B is set. -/
def Xl.has (x : Xl) (i : Nat) : Bool := x.set.contains i

/-! ## Instructions (Table 18-6): `w` is the instruction word -/

/-- The fields of an instruction word. -/
def xlOp (w : Nat) : Nat := bitsN w 31 26
def xlX (w : Nat) : Nat := bitsN w 25 23
def xlF (w : Nat) : Nat := bitsN w 22 15
def xlEnc (w : Nat) : Nat := bitsN w 12 11
def xlOff (w : Nat) : Nat := bitsN w 22 12

/-- END. -/
def xlEnd (x : Xl) (w : Nat) : Xl := xlStop x 0 (bitsN w 10 0)

/-- FAIL: codes 16 to 255. -/
def xlFailOp (x : Xl) (w : Nat) : Xl := if bitsN w 7 0 < 16 then xlFail x 8 else xlFail x (bitsN w 7 0)

/-- MTI: four digits. -/
def xlMti (x : Xl) (w : Nat) : Xl :=
  xlNext x (do
    if xlEnc w == 3 then .error 8
    let (bs, x) ← xlTake x (digitBytes (xlEnc w) 4)
    let ds := digitsIn (xlEnc w) 4 bs
    let v ← numberOf ds
    return { x.setX (xlX w) v with f := smInsert 0 ⟨bs, ds, false⟩ (smErase x.f 0) })

/-- One bitmap: the bits of B from `base` + 1 on that it sets. -/
def xlBitmap (x : Xl) (enc base : Nat) : Except Nat (List Nat × Xl) := do
  let (bs, x) ← xlTake x (if enc == 1 || enc == 2 then 16 else 8)
  let hs := if enc == 1 || enc == 2 then bs.map (hexOf enc) else nibbles bs
  if hs.any (16 ≤ ·) then .error 2
  let v := hs.foldl (fun v d => 16 * v + d) 0
  return ((List.range 64).filter (fun i => v.testBit (63 - i)) |>.map (fun i => base + i + 1), x)

/-- BMAP: the primary bitmap, the secondary when B[1], the tertiary when tert and B[65]. -/
def xlBmap (x : Xl) (w : Nat) : Xl :=
  xlNext x (do
    let enc := xlEnc w
    let (b1, x) ← xlBitmap x enc 0
    let (b2, x) ← if b1.contains 1 then xlBitmap x enc 64 else .ok ([], x)
    let third := w % 2 == 1 && b2.contains 65
    let (b3, x) ← if third then xlBitmap x enc 128 else .ok ([], x)
    return { x with set := b1 ++ b2 ++ b3, maps := if third then [1, 65] else [1] })

/-- The length of a field: fixed, or given by its prefix. -/
def xlLength (x : Xl) (form enc n : Nat) : Except Nat (Nat × Xl) :=
  if form == 0 then .ok (n, x)
  else do
    let d := form + 1
    let pe := if enc == 3 then 0 else enc
    let (bs, x) ← xlTake x (digitBytes pe d)
    let v ← numberOf (digitsIn pe d bs)
    if n < v then .error 4
    return (v, x)

/-- FLD: a present field is parsed and recorded (R375). -/
def xlFld (x : Xl) (w : Nat) : Xl :=
  let f := xlF w
  xlNext x (do
    if f < 2 || 192 < f || bitsN w 14 13 == 3 then .error 8
    if x.set.any (fun g => g < f && !x.maps.contains g && (x.field g).isNone) then .error 3
    if !x.has f then return x
    let (n, x) ← xlLength x (bitsN w 14 13) (xlEnc w) (bitsN w 10 0)
    let (bs, x) ← xlTake x (digitBytes (xlEnc w) n)
    return { x with f := smInsert f ⟨bs, digitsIn (xlEnc w) n bs, xlEnc w == 3⟩ (smErase x.f f) })

/-- JNB. -/
def xlJnb (x : Xl) (w : Nat) : Xl := { x with pc := if x.has (xlF w) then x.pc + 1 else bitsN w 11 0 }

/-- JMP. -/
def xlJmp (x : Xl) (w : Nat) : Xl :=
  match bitsN w 13 12 with
  | 3 => xlFail x 8
  | c => { x with pc := if c == 0 || x.t == (c == 1) then bitsN w 11 0 else x.pc + 1 }

/-- CMPI and MOVI. -/
def xlCmpi (x : Xl) (w : Nat) : Xl := { x with t := x.reg (xlX w) == bitsN w 15 0, pc := x.pc + 1 }
def xlMovi (x : Xl) (w : Nat) : Xl := { x.setX (xlX w) (bitsN w 15 0) with pc := x.pc + 1 }

/-- The value that NUM gives: none where the manual states none, above 19 digits or 8 bytes. -/
def xlNumber (f : XlField) : Except Nat (Option Nat) :=
  if f.bin then .ok (if f.raw.length ≤ 8 then some (beOf f.raw) else none)
  else do
    let v ← numberOf f.digits
    return if f.digits.length ≤ 19 then some v else none

/-- NUM; `free` stands for a value that the manual does not state. -/
def xlNum (x : Xl) (w free : Nat) : Xl :=
  xlNext x (match x.field (xlF w) with
    | none => .error 5
    | some f => do
      if f.raw.isEmpty then .error 5
      let v ← xlNumber f
      return x.setX (xlX w) (v.getD free))

/-- LUT: `store` gives the words of the program store. -/
def xlLut (store : Nat → Nat) (x : Xl) (w : Nat) : Xl :=
  let t := bitsN w 11 0
  let c := store t
  xlNext x (
    if 256 < c || 4096 < t + 1 + 2 * c then .error 8
    else match (List.range c).find? (fun i => store (t + 1 + 2 * i) == x.reg (xlX w)) with
      | some i => .ok (x.setX (xlX w) (store (t + 2 + 2 * i)))
      | none => .error 5)

/-- Bytes written to the dst buffer; code 6 beyond its length. -/
def xlWrite (x : Xl) (off : Nat) (bs : List Byte) : Except Nat Xl :=
  if x.out.length < off + bs.length then .error 6 else .ok { x with out := x.out.take off ++ bs ++ x.out.drop (off + bs.length) }

/-- PUT. -/
def xlPut (x : Xl) (w : Nat) : Xl :=
  let n := bitsN w 3 0
  xlNext x (if n == 0 || 8 < n then .error 8 else xlWrite x (xlOff w) (leBytes n (x.reg (xlX w))))

/-- CPY. -/
def xlCpy (x : Xl) (w : Nat) : Xl :=
  let raw := match x.field (bitsN w 25 18) with
    | some f => f.raw
    | none => []
  xlNext x (xlWrite x (bitsN w 17 8) (raw.take (bitsN w 7 0)))

/-- PHASH. -/
def xlPhash (x : Xl) (w : Nat) : Xl := xlNext x (xlWrite x (xlOff w) (sha256 x.input))

/-- One instruction of an engine: a stop by its count or at the end of the store, or the instruction at the program counter. -/
def xlStep (store : Nat → Nat) (free : Nat) (x : Xl) : Xl :=
  if x.stop.isSome then x
  else if 4096 ≤ x.n then xlFail x 7
  else if 4096 ≤ x.pc then xlFail x 8
  else
    let w := store x.pc
    let x := { x with n := x.n + 1 }
    match xlOp w with
    | 0 => xlEnd x w
    | 1 => xlFailOp x w
    | 2 => xlMti x w
    | 3 => xlBmap x w
    | 4 => xlFld x w
    | 5 => xlJnb x w
    | 6 => xlJmp x w
    | 7 => xlCmpi x w
    | 8 => xlMovi x w
    | 9 => xlNum x w free
    | 10 => xlLut store x w
    | 11 => xlPut x w
    | 12 => xlCpy x w
    | 13 => xlPhash x w
    | _ => xlFail x 8

/-- An engine run until it stops: its count of instructions bounds it. -/
def xlRun (store : Nat → Nat) (free : Nat) : Nat → Xl → Xl
  | 0, x => x
  | n + 1, x => if x.stop.isSome then x else xlRun store free n (xlStep store free x)

/-- An engine at the start of a program (R373). -/
def xlInit (input : List Byte) (dst start : Nat) : Xl :=
  { input := input, cur := 0, out := List.replicate dst 0, x := List.replicate 8 0, t := false, set := [], maps := [], f := [], pc := start,
    n := 0, stop := none }

end Sys2Proof.Machine
end

