-- ==== Sys2Proof/Machine/Ledger.lean ====
section
/-! DEFINITION. The ledger engines (chapter 18, and R390 to R395 of chapter 19): the command ring and its dispatcher, keys, Retort operations,
the Seen table, the Cord, hashing, frames and translation. A command ends with a status, a detail and the value of words 2 and 3; its
completion writes the entry. -/

namespace Sys2Proof.Machine

/-! ## Status codes (Table 18-3) -/

def stOk : Nat := 0
def stBadCmd : Nat := 1
def stBadKey : Nat := 2
def stSigBad : Nat := 3
def stDup : Nat := 4
def stStale : Nat := 5
def stSeenFull : Nat := 6
def stAuthFail : Nat := 7
def stMemFault : Nat := 8
def stXlFail : Nat := 9
def stCordFull : Nat := 10
def stCounterEnd : Nat := 11
def stNodeMismatch : Nat := 12
def stNoEngine : Nat := 13

/-! ## Descriptors (R354) -/

/-- A word of a command, and its fields (Table 18-1). -/
def LCmd.w (c : LCmd) (i : Nat) : Nat := c.words.getD i 0
def LCmd.op (c : LCmd) : Nat := bitsN (c.w 0) 31 24
def LCmd.fence (c : LCmd) : Bool := (c.w 0).testBit 23
def LCmd.ctx (c : LCmd) : Nat := bitsN (c.w 0) 16 16
def LCmd.tag (c : LCmd) : Nat := bitsN (c.w 0) 15 0
def LCmd.a (c : LCmd) : Nat := bitsN (c.w 1) 31 16
def LCmd.b (c : LCmd) : Nat := bitsN (c.w 1) 15 0
def LCmd.srcLen (c : LCmd) : Nat := c.w 3
def LCmd.dstLen (c : LCmd) : Nat := c.w 5
def LCmd.auxLen (c : LCmd) : Nat := c.w 7

/-- A command as it enters the island. -/
def LCmd.enter (words : List Nat) (own : Option (List Byte)) : LCmd := ⟨words, own, false, none, none, none, [], none, none⟩

/-- The kinds of operation (Table 18-2). -/
def isCord (op : Nat) : Bool := 2 ≤ op && op ≤ 4
def isSeen (op : Nat) : Bool := op == 2 || op == 3 || op == 5 || op == 6
def needsRetort (op : Nat) : Bool := (1 ≤ op && op ≤ 4) || op == 0xA
def needsKeys (op : Nat) : Bool := op == 2 || op == 4 || op == 0xA

/-- The words that an operation uses besides word 0 (Table 18-2). -/
def wordsUsed (op : Nat) (c : LCmd) : List Nat :=
  match op with
  | 1 => [1, 2, 3, 6, 7] ++ (if c.a == 0xFFFF then [4, 5] else [])
  | 2 | 4 => [2, 3, 4, 5]
  | 3 => [1, 2, 3, 6, 7]
  | 5 | 6 => [8, 9]
  | 7 => [1, 2, 3, 4, 5]
  | 8 => [1, 2, 3, 4, 5, 6, 7]
  | 9 => [1, 2, 3, 4, 5, 6, 7, 8, 9, 10]
  | 0xA => [1, 2, 3, 6, 7]
  | 0xB => [1]
  | 0xC => [1, 2, 3]
  | 0xD => [1, 2, 3, 4, 5]
  | _ => []

/-- Whether an operation uses field a, and field b, of word 1. -/
def usesA (op : Nat) : Bool := [1, 3, 8, 9, 0xA, 0xB, 0xC].contains op
def usesB (op : Nat) : Bool := [1, 7, 0xA, 0xD].contains op

/-- The digest length of HASH (R370). -/
def hashLen (b : Nat) : Nat := if b == 1 then 64 else 32

/-- Whether the lengths and indices of a descriptor lie in range (Table 18-2, R359, R372). -/
def lengthsOk (c : LCmd) : Bool :=
  match c.op with
  | 1 => c.b ≤ 1 && (if c.b == 0 then c.srcLen == 32 else c.srcLen ≤ 4096) && c.auxLen == 64 &&
      (if c.a == 0xFFFF then c.dstLen == 64 else c.a < 1024)
  | 2 => c.srcLen == 128 && c.dstLen == 64
  | 3 => c.srcLen == 128 && c.auxLen == 64 && c.a < 1024
  | 4 => 16 ≤ c.srcLen && c.srcLen ≤ 4096 && c.srcLen % 16 == 0 && c.dstLen == 64
  | 5 | 6 => c.w 8 != 0 || c.w 9 != 0
  | 7 => c.b ≤ 2 && hashLen c.b ≤ c.dstLen
  | 8 => c.a < 1024 && c.srcLen + 16 ≤ c.dstLen
  | 9 => c.a < 1024 && 16 ≤ c.srcLen && c.srcLen ≤ 2048 + 16 && c.srcLen ≤ c.dstLen + 16
  | 0xA => c.a < 1024 && c.b < 1024 && c.srcLen == 32 && c.auxLen ≤ 64
  | 0xB => c.a < 1024
  | 0xC => c.a < 1024 && c.srcLen == 128
  | 0xD => c.srcLen ≤ 4096 && c.dstLen ≤ 1024
  | _ => true

/-- Whether a descriptor is well formed: a known op, unused fields 0, lengths in range, and context 1 only while it is enabled (R354, R378). -/
def State.cmdOk (s : State) (c : LCmd) : Bool :=
  let used := wordsUsed c.op c
  c.op ≤ 0xD && bitsN (c.w 0) 22 17 == 0 && (isSeen c.op || c.ctx == 0) &&
    (List.range 15).all (fun i => used.contains (i + 1) || c.w (i + 1) == 0) &&
    (usesA c.op || c.a == 0) && (usesB c.op || c.b == 0) && lengthsOk c &&
    (c.ctx == 0 || s.bit LEDGER_SEEN_ALT_CFG LEDGER_SEEN_ALT_CFG_enable)

/-! ## Keys (R357 to R360) -/

/-- Peer entry `n`, and session slot `i`, when they are filled. -/
def State.peer (s : State) (n : Nat) : Option (List Byte) := (s.led.peers.find? (fun e => e.1 == n)).map (·.2)
def State.sess (s : State) (i : Nat) : Option Sess := (s.led.sess.find? (fun e => e.1 == i)).map (·.2)

/-- The state with the ledger island replaced. -/
def State.setLed (s : State) (l : Led) : State := { s with led := l }

/-- The state with a peer entry replaced, and with a session slot filled or emptied. -/
def State.setPeer (s : State) (n : Nat) (e : List Byte) : State := s.setLed { s.led with peers := smInsert n e (smErase s.led.peers n) }
def State.setSess (s : State) (i : Nat) (x : Option Sess) : State :=
  s.setLed { s.led with sess := match x with | some v => smInsert i v (smErase s.led.sess i) | none => smErase s.led.sess i }

/-- Q: the device's public key (R390); 64 zero bytes while no key is loaded. -/
def State.deviceQ (s : State) : List Byte := match s.led.dev with | some (d, _) => p256Public d | none => List.replicate 64 0

/-! ## Ends of commands -/

/-- A command ends: its counters and event flags (Table 18-3, R383). -/
def ledgerNote (s : State) (status : Nat) : State :=
  match status with
  | 1 => s.setBit LEDGER_EVT LEDGER_EVT_bad_cmd true
  | 3 => (s.count LEDGER_CNT_0 LEDGER_CNT_0_sig_bad).setBit LEDGER_EVT LEDGER_EVT_auth true
  | 4 => s.count LEDGER_CNT_0 LEDGER_CNT_0_dup
  | 5 => s.count LEDGER_CNT_1 LEDGER_CNT_1_stale
  | 6 => s.setBit LEDGER_SEEN_STAT LEDGER_SEEN_STAT_full true
  | 7 => (s.count LEDGER_CNT_1 LEDGER_CNT_1_auth_fail).setBit LEDGER_EVT LEDGER_EVT_auth true
  | 9 => s.count LEDGER_CNT_2 LEDGER_CNT_2_xl_fail
  | _ => s

/-- The outcome of an operation: the state, the status, the detail, and the value of words 2 and 3 where it is not the time. -/
structure LRes where
  s : State
  status : Nat
  detail : Nat
  val : Option Nat

/-- An outcome with a status alone. -/
def LRes.of (s : State) (status : Nat) : LRes := ⟨s, status, 0, none⟩

/-- Whether an operation that the ledger island began is done: the command at position `k` of those in the island. -/
def State.ledCmd (s : State) (k : Nat) : Option LCmd := s.led.cmds[k]?

/-- The command at position `k` ends. -/
def ledgerEnd (r : LRes) (k : Nat) : State :=
  let s := ledgerNote r.s r.status
  match s.ledCmd k with
  | some c => s.setLed { s.led with cmds := s.led.cmds.set k { c with res := some (r.status, r.detail, r.val), eng := none } }
  | none => s

/-! ## The dispatcher (R355, R362) -/

/-- The engines at work: Retorts 0 to 11, translation engines 12 to 15, the hash unit 16 and the AES-GCM unit 18, which share a block, and the places 32
and up of the Seen unit: 31 for SEEN_CHECK and SEEN_INSERT beside the bucket that a Cord command reserves (R355, R381). -/
def State.engines (s : State) : List Nat := s.led.cmds.filterMap (·.eng)

/-- An engine's block. -/
def engineBlock (e : Nat) : Nat := if 32 ≤ e then 33 else if 16 ≤ e then 32 else 16 + e

/-- The engines that an operation may take. -/
def enginesOf (op : Nat) : List Nat :=
  if needsRetort op then List.range 12
  else match op with
    | 5 | 6 => (List.range 31).map (32 + ·)
    | 7 => [16]
    | 8 | 9 => [18]
    | 0xD => [12, 13, 14, 15]
    | _ => []

/-- Whether the Seen and Cord unit is ON for the operations that need it besides a Retort. -/
def unitOk (s : State) (op : Nat) : Bool := if isSeen op || op == 4 then s.blkOn 33 else true

/-- Whether a command has started and not ended. -/
def LCmd.runs (c : LCmd) : Bool := c.started && c.res.isNone

/-- Whether a command runs on the unit of block `n`, a Retort aside: those it gives up and takes up again by itself (R362). -/
def LCmd.runsOn (c : LCmd) (n : Nat) : Bool :=
  c.runs && 28 ≤ n && (c.eng.any (fun e => engineBlock e == n) || (n == 33 && (isSeen c.op || c.op == 4)))

/-- The commands that run on the unit of block `n` end with MEM_FAULT, as an error response to the transfers of an operation ends it: the wrapper gives them
that response in a block reset, and at the drain limit of a stop (DEDUCED, R32, R36 and R37; assumption 95). -/
def unitFails (s : State) (n : Nat) : State :=
  let s := if n < 28 then s else s.setLed { s.led with xl := smErase s.led.xl (n - 28) }
  s.setLed { s.led with cmds := s.led.cmds.map (fun c => if c.runsOn n then { c with res := some (stMemFault, 0, none), eng := none } else c) }

/-- The key entries that an operation replaces, and those that it uses: peer entry n as (false, n), session slot i as (true, i). -/
def LCmd.keyWrites (c : LCmd) : List (Bool × Nat) :=
  if c.op == 0xC then [(false, c.a)] else if c.op == 0xA || c.op == 0xB then [(true, c.a)] else []
def LCmd.keyReads (c : LCmd) : List (Bool × Nat) :=
  if c.op == 1 || c.op == 3 then [(false, c.a)] else if c.op == 8 || c.op == 9 then [(true, c.a)] else if c.op == 0xA then [(false, c.b)] else []

/-- Whether a command dispatched earlier has still to replace a key entry of this one, which sees what it leaves there and so waits for it (R359, R360;
assumption 120). -/
def keyBefore (before : List LCmd) (c : LCmd) : Bool := before.any (fun e => e.runs && e.keyWrites.any (fun k => c.keyReads.contains k || c.keyWrites.contains k))

/-- Whether a Cord command that came earlier has neither committed nor failed. -/
def cordBefore (before : List LCmd) : Bool := before.any (fun c => isCord c.op && c.res.isNone)

/-- The salt of a context as it stands. -/
def State.saltNow (s : State) (ctx : Nat) : List Byte :=
  (List.range 4).flatMap (fun k => leBytes 4 (s.reg (if ctx == 1 then LEDGER_SEEN_ALT_SALT k else LEDGER_SEEN_SALT k)).toNat)

/-- A command that may be dispatched is: it keeps the keys and the salt of this moment, and takes its engine; where no engine of its kind is
ON it ends with NO_ENGINE. One that is reissued keeps those of its first dispatch (R359, R360, R377). `before` are the commands before it. -/
def dispatchOne (s : State) (busy : List Nat) (before : List LCmd) (c : LCmd) : LCmd :=
  let op := c.op
  if c.started || c.res.isSome then c
  else if c.fence && !before.isEmpty then c
  else if needsKeys op && s.led.loading then c
  else if (op == 2 || op == 4) && cordBefore before then c
  else if keyBefore before c then c
  else
    let kinds := enginesOf op
    let on := kinds.filter (fun e => s.blkOn (engineBlock e))
    if !unitOk s op || (!kinds.isEmpty && on.isEmpty) then { c with res := some (stNoEngine, 0, none) }
    else
      let free := on.find? (fun e => !busy.contains e)
      if !kinds.isEmpty && free.isNone then c
      else
        let c := { c with started := true, eng := free }
        if c.salt.isEmpty then { c with peer := s.peer (if op == 0xA then c.b else c.a), sess := s.sess c.a, salt := s.saltNow c.ctx } else c

/-- The commands of the ring dispatched in order. -/
def dispatchList (s : State) : List Nat → List LCmd → List LCmd → List LCmd
  | _, _, [] => []
  | busy, before, c :: cs =>
    let c := dispatchOne s busy before c
    c :: dispatchList s (c.eng.toList ++ busy) (before ++ [c]) cs

/-- How many of the commands that start now had been started before: those that are reissued (R362). -/
def reissues (old new : List LCmd) : Nat := ((old.zip new).filter (fun e => !e.1.started && !e.1.salt.isEmpty && e.2.started)).length

/-- Every command that can start starts; one that starts again on another Retort is counted. -/
def ledgerDispatch (s : State) : State :=
  let cmds := dispatchList s s.engines [] s.led.cmds
  let n := reissues s.led.cmds cmds
  let s := s.setLed { s.led with cmds := cmds }
  if n == 0 then s else (s.countBy LEDGER_CNT_2 LEDGER_CNT_2_reissued n).setBit LEDGER_EVT LEDGER_EVT_reissue true

/-- A Retort leaves ON, or is reset, during an operation: another does it again from its start (R362), and where no Retort is ON it ends with NO_ENGINE. -/
def retortLost (s : State) (e : Nat) : State :=
  if 12 ≤ e || !s.engines.contains e then s
  else
    let cmds := s.led.cmds.map (fun c => if c.eng == some e then { c with started := false, eng := none } else c)
    ledgerDispatch (s.setLed { s.led with cmds := cmds })

/-! ## The rings (R353, R356) -/

/-- The sizes of the rings. -/
def State.sqSize (s : State) : Nat := 2 ^ s.fld LEDGER_SQ_CFG LEDGER_SQ_CFG_log2
def State.cqSize (s : State) : Nat := 2 ^ s.fld LEDGER_CQ_CFG LEDGER_CQ_CFG_log2

/-- Whether the completion ring is full. -/
def State.cqFull (s : State) : Bool :=
  (s.fld LEDGER_CQ_TAIL LEDGER_CQ_TAIL_index + 1) % s.cqSize == s.fld LEDGER_CQ_HEAD LEDGER_CQ_HEAD_index % s.cqSize

/-- A command enters the island: one that is malformed has ended. -/
def ledgerEnter (s : State) (c : LCmd) : State :=
  let ok := s.cmdOk c
  let c := if ok then c else { c with res := some (stBadCmd, 0, none) }
  let s := s.setLed { s.led with cmds := s.led.cmds ++ [c] }
  if ok then s else ledgerNote s stBadCmd

/-- A command of Falornyr's own enters the island behind those there, under a tag: its op and context, words 1 to 15, and the bytes that it works on. -/
def enterOwn (s : State) (op ctx tag : Nat) (words : List Nat) (own : Option (List Byte)) : State :=
  ledgerDispatch (ledgerEnter s (LCmd.enter ([op * 2 ^ 24 + ctx * 2 ^ 16 + tag] ++ words ++ List.replicate (15 - words.length) 0) own))

/-! ## Falornyr's records on their way to a SEAL (R18, R503, R504) -/

/-- The tag of Falornyr's next command (R503), and the state after it has been taken. -/
def State.ownTag (s : State) : Nat := s.fw.jobTag % 65536
def takeTag (s : State) : State := { s with fw := { s.fw with jobTag := s.ownTag + 1 } }

/-- Whether a job's SEAL is in the island. -/
def State.jobRuns (s : State) (j : SealJob) : Bool := s.led.cmds.any (fun c => c.own.isSome && c.tag == j.tag)

/-- Whether a record is not submitted again (R504): its SEAL ended with DUP, STALE, BAD_CMD or BAD_KEY. -/
def SealJob.dead (j : SealJob) : Bool := j.wait.any (fun st => [stBadCmd, stBadKey, stDup, stStale].contains st)

/-- The first record that waits to be sealed enters the island as a SEAL under a tag of its own (R503). One is there at a time: a record that fails is
submitted again before those behind it, so the journal keeps the order of the TXIDs (DEDUCED, R18; assumption 96). -/
def submitNext (s : State) : State :=
  match s.fw.jobs.find? (fun j => !j.dead) with
  | none => s
  | some j =>
    if j.wait.isSome || s.jobRuns j then s
    else
      let t := s.ownTag
      let s := takeTag s
      enterOwn { s with fw := { s.fw with jobs := s.fw.jobs.map (fun i => if i == j then { j with tag := t } else i) } } 2 0 t [0, 0, 128, 0, 64] (some j.record)

/-- A record to be sealed, behind those that wait (R18). -/
def submitSeal (s : State) (record payload : List Byte) (why : SealFor) : State :=
  submitNext { s with fw := { s.fw with jobs := s.fw.jobs ++ [⟨65536, record, payload, why, 0, none, 0⟩] } }

/-- Records that wait for what `p` says are submitted again (R504). -/
def resumeSeals (s : State) (p : SealJob → Nat → Bool) : State :=
  submitNext { s with fw := { s.fw with jobs := s.fw.jobs.map (fun j => if j.wait.any (p j) then { j with wait := none } else j) } }

/-- The records that wait for a status. -/
def resumeFor (s : State) (status : Nat) : State := resumeSeals s (fun _ st => st == status)

/-- The records that are due again after 10 ms. -/
def resumeDue (s : State) : State := resumeSeals s (fun j st => st != stCordFull && !j.dead && j.due ≤ s.tb)

/-! ## The rings again -/

/-- The sixteen words of a descriptor. -/
def wordsAt (bs : List Byte) (n : Nat) : List Nat := (List.range n).map (fun i => leOf ((bs.drop (4 * i)).take 4))

/-- The island reads the descriptors up to the tail, unless the completion ring is full: `n` bounds them. A descriptor whose read fails ends
with MEM_FAULT. -/
def ledgerTake (s : State) : Nat → State
  | 0 => s
  | n + 1 =>
    let h := s.fld LEDGER_SQ_HEAD LEDGER_SQ_HEAD_index
    if h == s.fld LEDGER_SQ_TAIL LEDGER_SQ_TAIL_index || s.cqFull then s
    else
      let r := memRead s 9 (s.fld LEDGER_SQ_BASE LEDGER_SQ_BASE_base * 64 + 64 * h) 64 []
      let s := r.s.setFld LEDGER_SQ_HEAD LEDGER_SQ_HEAD_index ((h + 1) % r.s.sqSize)
      let c := LCmd.enter (wordsAt r.data 16) none
      let s := if r.err || r.poison then s.setLed { s.led with cmds := s.led.cmds ++ [{ c with res := some (stMemFault, 0, none) }] }
        else ledgerEnter s c
      ledgerTake s n

/-- A write of LEDGER_SQ_TAIL (R353): refused where more than size - 1 entries would be outstanding. -/
def sqTailWrite (s : State) (v : Nat) : State :=
  let size := s.sqSize
  let head := s.fld LEDGER_SQ_HEAD LEDGER_SQ_HEAD_index
  let tail := s.fld LEDGER_SQ_TAIL LEDGER_SQ_TAIL_index
  let waiting := (tail + size - head % size) % size
  let more := (v % size + size - tail % size) % size
  if size ≤ waiting + more then s.setBit LEDGER_SQ_CFG LEDGER_SQ_CFG_ovf true
  else ledgerDispatch (ledgerTake (s.setFld LEDGER_SQ_TAIL LEDGER_SQ_TAIL_index (v % size)) size)

/-- A write of LEDGER_CQ_HEAD: entries freed, and the island takes descriptors again. -/
def cqHeadWrite (s : State) (v : Nat) : State :=
  ledgerDispatch (ledgerTake (s.setFld LEDGER_CQ_HEAD LEDGER_CQ_HEAD_index (v % s.cqSize)) s.sqSize)

/-- Whether the command at position `k` may complete: it has ended, the ring has room, and Cord commands complete in ring order (R355). -/
def State.mayComplete (s : State) (k : Nat) : Bool :=
  match s.ledCmd k with
  | some c => c.res.isSome && !s.cqFull && (!isCord c.op || !(s.led.cmds.take k).any (fun e => isCord e.op))
  | none => false

/-- The sixteen bytes of a completion entry (R356). -/
def completionOf (s : State) (c : LCmd) : List Byte :=
  let (status, detail, val) := c.res.getD (0, 0, none)
  leBytes 4 (c.op * 2 ^ 24 + status * 2 ^ 16 + c.tag) ++ leBytes 4 detail ++ leBytes 8 (val.getD s.tb)

/-- The command at position `k` completes: its entry is written, and then the tail advances (R356). -/
def ledgerComplete (s : State) (k : Nat) : State :=
  match s.ledCmd k with
  | none => s
  | some c =>
    let t := s.fld LEDGER_CQ_TAIL LEDGER_CQ_TAIL_index
    let s := (memWrite s 9 (s.fld LEDGER_CQ_BASE LEDGER_CQ_BASE_base * 64 + 16 * t) (completionOf s c) []).s
    let s := s.setFld LEDGER_CQ_TAIL LEDGER_CQ_TAIL_index ((t + 1) % s.cqSize)
    ledgerDispatch (ledgerTake (s.setLed { s.led with cmds := s.led.cmds.eraseIdx k }) s.sqSize)

/-! ## Reading and writing memory -/

/-- The bytes at an address of memory; none on an error or poison response. An empty operand takes no access. -/
def ledRead (s : State) (a n : Nat) : State × Option (List Byte) :=
  if n == 0 then (s, some [])
  else
    let r := memRead s 9 a n []
    (r.s, if r.err || r.poison then none else some r.data)

/-- Bytes written to memory: whether they were. -/
def ledWrite (s : State) (a : Nat) (bs : List Byte) : State × Bool :=
  if bs.isEmpty then (s, true)
  else
    let r := memWrite s 9 a bs []
    (r.s, !r.err && !r.poison)

/-- The src bytes of a command. -/
def ledSrc (s : State) (c : LCmd) : State × Option (List Byte) :=
  match c.own with
  | some bs => (s, some bs)
  | none => ledRead s (c.w 2) c.srcLen

/-! ## The Seen table (R377 to R382) -/

/-- The floor of a node in a context. -/
def State.floorOf (s : State) (ctx node : Nat) : Nat := smGet (fun _ => 0) s.led.floors (1024 * ctx + node)

/-- Whether a TXID lies below its node's floor (R379). -/
def State.belowFloor (s : State) (ctx txid : Nat) : Bool := txid % 2 ^ 54 < s.floorOf ctx (txid / 2 ^ 54)

/-- The address of a TXID's bucket (R377). -/
def State.bucketAt (s : State) (ctx : Nat) (salt : List Byte) (txid : Nat) : Nat :=
  let base := if ctx == 1 then s.fld LEDGER_SEEN_ALT_BASE LEDGER_SEEN_ALT_BASE_base else s.fld LEDGER_SEEN_BASE LEDGER_SEEN_BASE_base
  let k := if ctx == 1 then s.fld LEDGER_SEEN_ALT_CFG LEDGER_SEEN_ALT_CFG_bits else s.fld LEDGER_SEEN_CFG LEDGER_SEEN_CFG_bits
  base * 64 + 64 * (leOf ((sha256 (salt ++ leBytes 8 txid)).take 4) % 2 ^ k)

/-- Whether a TXID stands in a bucket or in the victim store. -/
def State.seenHas (s : State) (ctx txid : Nat) (slots : List Nat) : Bool := slots.contains txid || s.led.victims.contains (ctx, txid)

/-- The result of a lookup as a status: OK for NEW, DUP or STALE (R380). -/
def State.seenStatus (s : State) (ctx txid : Nat) (slots : List Nat) : Nat :=
  if s.seenHas ctx txid slots then stDup else if s.belowFloor ctx txid then stStale else stOk

/-- The eight slots of a bucket. -/
def slotsOf (bs : List Byte) : List Nat := (List.range 8).map (fun i => leOf ((bs.drop (8 * i)).take 8))

/-! ## Running an operation -/

/-- The bucket of a command's Seen step, when its TXID can be read. -/
def State.bucketOf (s : State) (c : LCmd) : Option Nat :=
  let salt := if c.salt.isEmpty then s.saltNow c.ctx else c.salt
  let txid := if isCord c.op then (ledSrc s c).2.map (fun r => leOf (r.take 8)) else some (c.w 8 + c.w 9 * 2 ^ 32)
  txid.map (s.bucketAt c.ctx salt)

/-- Whether the operation of the command at position `k` can end now: Cord commands commit in ring order (R355), and Seen steps on one bucket act in ring order
(R381). -/
def State.mayRun (s : State) (k op : Nat) : Bool :=
  match s.ledCmd k with
  | none => false
  | some c =>
    let before := s.led.cmds.take k
    c.op == op && c.runs && !(isCord op && cordBefore before) &&
      !(isSeen op && before.any (fun e => isSeen e.op && e.res.isNone && s.bucketOf e == s.bucketOf c))

/-- The operation of the command at position `k` ends with the outcome that `f` gives. -/
def ledgerRun (s : State) (k op : Nat) (f : State → LCmd → LRes) : State :=
  match s.ledCmd k with
  | some c => if s.mayRun k op then ledgerDispatch (ledgerEnd (f s c) k) else s
  | none => s

/-- A lookup: the state, the status, and the slots. -/
def seenLook (s : State) (ctx : Nat) (salt : List Byte) (txid : Nat) : State × Nat × List Nat :=
  let (s, r) := ledRead s (s.bucketAt ctx salt txid) 64
  match r with
  | none => (s, stMemFault, [])
  | some bs => (s, s.seenStatus ctx txid (slotsOf bs), slotsOf bs)

/-- Where a NEW TXID goes (R380): a slot and whether it evicts, or the victim store; none when it finds no place. -/
inductive Place where
  | slot (i : Nat) (evict : Bool)
  | victim

/-- The place for a NEW TXID. -/
def State.seenPlace (s : State) (ctx : Nat) (slots : List Nat) : Option Place :=
  match slots.findIdx? (· == 0), slots.findIdx? (s.belowFloor ctx) with
  | some i, _ => some (.slot i false)
  | none, some i => some (.slot i true)
  | none, none => if s.led.victims.length < 64 then some .victim else none

/-- A TXID put in its place; false when its bucket could not be written. -/
def seenPut (s : State) (ctx : Nat) (salt : List Byte) (txid : Nat) (p : Place) : State × Bool :=
  match p with
  | .victim => (s.setLed { s.led with victims := s.led.victims ++ [(ctx, txid)] }, true)
  | .slot i evict =>
    let (s, ok) := ledWrite s (s.bucketAt ctx salt txid + 8 * i) (leBytes 8 txid)
    (if evict && ok then s.count LEDGER_SEEN_STAT LEDGER_SEEN_STAT_evictions else s, ok)

/-- SEEN_CHECK. -/
def opSeenCheck (s : State) (c : LCmd) : LRes :=
  let (s, st, _) := seenLook s c.ctx c.salt (c.w 8 + c.w 9 * 2 ^ 32)
  .of s st

/-- SEEN_INSERT of a TXID in a context. -/
def seenInsert (s : State) (ctx : Nat) (salt : List Byte) (txid : Nat) : LRes :=
  let (s, st, slots) := seenLook s ctx salt txid
  if st != stOk then .of s st
  else match s.seenPlace ctx slots with
    | none => .of s stSeenFull
    | some p =>
      let (s, ok) := seenPut s ctx salt txid p
      .of s (if ok then stOk else stMemFault)

/-- SEEN_INSERT. -/
def opSeenInsert (s : State) (c : LCmd) : LRes := seenInsert s c.ctx c.salt (c.w 8 + c.w 9 * 2 ^ 32)

/-- A floor raised: victim entries that fall below it are freed (R379, R382). -/
def floorRaise (s : State) (ctx node v : Nat) : State :=
  let s := s.setLed { s.led with floors := smSet (fun _ => 0) s.led.floors (1024 * ctx + node) v }
  s.setLed { s.led with victims := s.led.victims.filter (fun e => !s.belowFloor e.1 e.2) }

/-- A write of LEDGER_FLOOR_HI (R379): a floor only rises. A record of this node's own that context 0 had no room for is submitted again (R504). -/
def floorWrite (s : State) (ctx node v : Nat) : State :=
  if v < s.floorOf ctx node then s.setBit LEDGER_FLOOR_HI LEDGER_FLOOR_HI_refused true
  else if ctx == 0 then resumeFor (floorRaise s ctx node v) stSeenFull
  else floorRaise s ctx node v

/-! ## The Cord (R363 to R369, R390 to R395) -/

/-- The slots of 192 bytes that fit in the primary region of mirror pair `i` (R392). -/
def State.regionSlots (s : State) (i : Nat) : Nat :=
  let r := MEM_MIRROR i
  let base := s.fld r MEM_MIRROR_base * 0x40000
  let stop := min (base + s.fld r MEM_MIRROR_size * 0x40000) (s.chanCapacity (s.fld r MEM_MIRROR_primary) - 256)
  if s.bit r MEM_MIRROR_valid then (stop - base) / 192 else 0

/-- The address of Cord slot `n`, through the primary channel's alias. -/
def State.cordSlot (s : State) (n : Nat) : Option Nat :=
  let at' := fun i k => aliasAddr (s.fld (MEM_MIRROR i) MEM_MIRROR_primary) (s.fld (MEM_MIRROR i) MEM_MIRROR_base * 0x40000 + 192 * k)
  let a := s.regionSlots 0
  let b := s.regionSlots 1
  if n < a then some (at' 0 n) else if n < a + b then some (at' 1 (n - a))
  else if n < a + b + s.regionSlots 2 then some (at' 2 (n - a - b)) else none

/-- The capacity of the Cord; 0 refuses every Cord command, and one above the slots that fit does the same (R369, R392). -/
def State.cordCap (s : State) : Nat := (s.reg LEDGER_CORD_CAP).toNat

/-- Whether every Cord command completes with CORD_FULL whatever it holds: the capacity is 0, or above the slots that fit (R392). -/
def State.cordShut (s : State) : Bool := s.cordCap == 0 || s.regionSlots 0 + s.regionSlots 1 + s.regionSlots 2 < s.cordCap

/-- Whether an append finds the Cord full. -/
def State.cordNoRoom (s : State) : Bool := s.cordShut || s.cordCap < s.led.seq + 1 - s.led.tail

/-- The chain value before the next entry: the anchor for the first (R393, R394). -/
def State.chainValue (s : State) : List Byte := if s.led.chain.isEmpty then List.replicate 32 0 else s.led.chain

/-- Fields of a record (Table 19-1). -/
def recTxid (r : List Byte) : Nat := leOf (r.take 8)
def recSet (r : List Byte) (off : Nat) (bs : List Byte) : List Byte := r.take off ++ bs ++ r.drop (off + bs.length)

/-- A record filled by the chaining rule (R393); the first SEAL after a reset keeps the prev_hash it came with (R394). -/
def State.chainFill (s : State) (r : List Byte) (keepPrev : Bool) : List Byte :=
  let r := if keepPrev && s.led.seq == 0 then r else recSet r 32 s.chainValue
  recSet r 112 (leBytes 8 s.led.seq)

/-- The digest that a seal signs (R358, R390). -/
def sealMessage (q r : List Byte) : List Byte := [0x58, 0x53, 0x4C, 0x31] ++ q ++ r

/-- An entry written to both mirrors at the next slot (R364 step 4, R392): whether it was. -/
def cordStore (s : State) (entry : List Byte) : State × Bool :=
  match s.cordSlot (s.led.seq % s.cordCap) with
  | none => (s, false)
  | some a => ledWrite s a entry

/-- The commit of an entry that stands in its slot (R365, R393): the sequence advances, and the chain moves on from the anchor `h`. -/
def cordAdvance (s : State) (h entry : List Byte) : State :=
  s.setLed { s.led with seq := s.led.seq + 1, chain := sha256 (h ++ entry) }

/-- The append of an entry: its journal sequence is returned; none when the write failed, and then nothing has changed but the bytes of the slot. -/
def cordAppend (s : State) (h entry : List Byte) : State × Option Nat :=
  let (t, ok) := cordStore s entry
  if ok then (cordAdvance t h entry, some s.led.seq) else (t, none)

/-- A Seen step and an append as one (R364 steps 4 and 5, R365): the entry is committed only when its TXID has a place and has gone into it. -/
def cordCommit (s : State) (ctx : Nat) (salt : List Byte) (txid : Nat) (slots : List Nat) (h entry : List Byte) : LRes :=
  match s.seenPlace ctx slots with
  | none => .of s stSeenFull
  | some p =>
    let j := s.led.seq
    let (s, ok) := cordStore s entry
    if !ok then .of s stMemFault
    else
      let (s, ok) := seenPut s ctx salt txid p
      if ok then ⟨cordAdvance s h entry, stOk, 0, some j⟩ else .of s stMemFault

/-- The seal that the device makes of a record. -/
def State.sealOf (s : State) (r : List Byte) : List Byte :=
  match s.led.dev with
  | some (d, _) => ecdsaSign d (sha256 (sealMessage s.deviceQ r))
  | none => List.replicate 64 0

/-- SEAL of a record (R364): the entry as committed is returned beside the outcome. -/
def sealRecord (s : State) (ctx : Nat) (salt r : List Byte) : LRes × List Byte :=
  let txid := recTxid r
  if txid == 0 then (.of s stBadCmd, [])
  else
    let (s, st, slots) := seenLook s ctx salt txid
    if st != stOk then (.of s st, [])
    else if s.cordNoRoom then (.of s stCordFull, [])
    else if s.led.dev.isNone then (.of s stBadKey, [])
    else
      let h := if s.led.seq == 0 then (r.drop 32).take 32 else s.chainValue
      let r := s.chainFill r true
      let entry := r ++ s.sealOf r
      (cordCommit s ctx salt txid slots h entry, entry)

/-- The copy of a seal after the commit: a write that fails sets detail bit 0 (R365). -/
def sealCopy (r : LRes) (c : LCmd) (entry : List Byte) : LRes :=
  if r.status != stOk || c.own.isSome then r
  else
    let (s, ok) := ledWrite r.s (c.w 4) (entry.drop 128)
    { r with s := s, detail := if ok then 0 else 1 }

/-- SEAL. -/
def opSeal (s : State) (c : LCmd) : LRes :=
  if s.cordShut then .of s stCordFull
  else
    let (s, src) := ledSrc s c
    match src with
    | none => .of s stMemFault
    | some r =>
      let (o, entry) := sealRecord s c.ctx c.salt r
      sealCopy o c entry

/-- A signature checked by a peer entry (R359, R361): of a digest for P-256, of the message for Ed25519. -/
def peerVerify (alg : Nat) (pub m sig : List Byte) : Bool := if alg == 1 then edVerify pub m sig else ecdsaVerify pub m sig

/-- The algorithm of a peer entry. -/
def peerAlg (e : List Byte) : Nat := (e.getD 96 0).toNat

/-- Whether a seal verifies by a peer entry (R390). -/
def peerSealOk (e r sig : List Byte) : Bool :=
  let m := sealMessage (e.take 64) r
  if peerAlg e == 1 then edVerify (e.take 64) m sig else ecdsaVerify (e.take 64) (sha256 m) sig

/-- The checks of ADMIT before its Seen step (R366): the node, the TXID, the peer entry and the seal. -/
def admitCheck (node : Nat) (peer : Option (List Byte)) (r sig : List Byte) : Nat :=
  let txid := recTxid r
  if txid / 2 ^ 54 != node then stNodeMismatch
  else if txid == 0 then stBadCmd
  else match peer with
    | none => stBadKey
    | some e => if peerSealOk e r sig then stOk else stSigBad

/-- The steps of ADMIT after its verification (R366). -/
def admitEntry (s : State) (ctx : Nat) (salt r sig : List Byte) : LRes :=
  let txid := recTxid r
  let (s, st, slots) := seenLook s ctx salt txid
  if st != stOk then .of s st
  else if s.cordNoRoom then .of s stCordFull
  else cordCommit s ctx salt txid slots s.chainValue (r ++ sig)

/-- ADMIT of a record and its seal from a node (R366). -/
def admitRecord (s : State) (node ctx : Nat) (salt : List Byte) (peer : Option (List Byte)) (r sig : List Byte) : LRes :=
  let st := admitCheck node peer r sig
  if st == stOk then admitEntry s ctx salt r sig else .of s st

/-- What an operation of Falornyr's own works on, with the signature of 64 bytes that ends it; or the two read from memory. -/
def signedSrc (s : State) (c : LCmd) : State × Option (List Byte × List Byte) :=
  match c.own with
  | some bs => (s, some (bs.take (bs.length - 64), bs.drop (bs.length - 64)))
  | none =>
    let (s, src) := ledRead s (c.w 2) c.srcLen
    let (s, sig) := ledRead s (c.w 6) 64
    (s, src.bind (fun r => sig.map (fun g => (r, g))))

/-- ADMIT: one whose seal has been verified goes on from what it holds. -/
def opAdmit (s : State) (c : LCmd) : LRes :=
  if s.cordShut then .of s stCordFull
  else match c.held with
    | some e => admitEntry s c.ctx c.salt (e.take 128) (e.drop 128)
    | none =>
      let (s, o) := signedSrc s c
      match o with
      | some (r, g) => admitRecord s c.a c.ctx c.salt c.peer r g
      | none => .of s stMemFault

/-- The verification of an ADMIT that runs ahead of its commit (R355, R366): a failure ends it, and else its Retort is free. -/
def admitAhead (s : State) (k : Nat) (c : LCmd) : State :=
  if s.cordShut then ledgerEnd (.of s stCordFull) k
  else
    let (s, o) := signedSrc s c
    match o with
    | none => ledgerEnd (.of s stMemFault) k
    | some (r, g) =>
      let st := admitCheck c.a c.peer r g
      if st == stOk then s.setLed { s.led with cmds := s.led.cmds.set k { c with held := some (r ++ g), eng := none } } else ledgerEnd (.of s st) k

/-- ADMIT at position `k`: behind a Cord command that has not committed, or a Seen step on its bucket, its verification alone runs. -/
def ledgerAdmit (s : State) (k : Nat) : State :=
  match s.ledCmd k with
  | some c =>
    if s.mayRun k 3 then ledgerRun s k 3 opAdmit
    else if c.op == 3 && c.runs && c.held.isNone then ledgerDispatch (admitAhead s k c)
    else s
  | none => s

/-- The batch record of a body (R391). -/
def State.batchRecord (s : State) (body : List Byte) : List Byte :=
  leBytes 8 0 ++ leBytes 2 0x0401 ++ leBytes 4 1 ++ leBytes 8 (body.length / 16) ++ leBytes 2 0 ++ leBytes 8 s.tb ++
    List.replicate 32 0 ++ sha256 body ++ List.replicate 32 0

/-- BATCH of a body (R367, R391): the entry beside the outcome. -/
def batchBody (s : State) (body : List Byte) : LRes × List Byte :=
  if s.cordNoRoom then (.of s stCordFull, [])
  else if s.led.dev.isNone then (.of s stBadKey, [])
  else
    let r := s.chainFill (s.batchRecord body) false
    let entry := r ++ s.sealOf r
    let (s, j) := cordAppend s s.chainValue entry
    match j with
    | none => (.of s stMemFault, [])
    | some j => (⟨s, stOk, 0, some j⟩, entry)

/-- BATCH. -/
def opBatch (s : State) (c : LCmd) : LRes :=
  if s.cordShut then .of s stCordFull
  else
    let (s, src) := ledSrc s c
    match src with
    | none => .of s stMemFault
    | some body =>
      let (o, entry) := batchBody s body
      sealCopy o c entry

/-- A write of LEDGER_CORD_TAIL_HI commits the pair when it lies in range (R369, R395). -/
def cordTailSet (s : State) (v : Nat) : State :=
  if v < s.led.tail || s.led.seq < v then s else s.setLed { s.led with tail := v }

/-! ## Retort, hash and key operations -/

/-- VERIFY (R361). A peer entry of the other algorithm is not permitted. -/
def opVerify (s : State) (c : LCmd) : LRes :=
  let (s, src) := signedSrc s c
  let (s, given) := if c.a == 0xFFFF then ledRead s (c.w 4) 64 else (s, some [])
  match src, given with
  | some (m, g), some pub =>
    let key := if c.a == 0xFFFF then some pub else c.peer.bind (fun e => if peerAlg e == c.b then some (e.take 64) else none)
    match key with
    | none => .of s stBadKey
    | some q => .of s (if peerVerify c.b q m g then stOk else stSigBad)
  | _, _ => .of s stMemFault

/-- HASH (R370). -/
def opHash (s : State) (c : LCmd) : LRes :=
  let (s, src) := ledSrc s c
  match src with
  | none => .of s stMemFault
  | some m =>
    let (s, ok) := ledWrite s (c.w 4) (if c.b == 0 then sha256 m else if c.b == 1 then sha512 m else sha3 m)
    .of s (if ok then stOk else stMemFault)

/-- The session of a slot where it still has the key of a session that a command holds: its counter has moved on with every frame sealed since. -/
def State.sameSess (s : State) (slot : Nat) (x : Sess) : Option Sess := (s.sess slot).filter (fun y => y.key == x.key && y.iv == x.iv)

/-- The counter that a FRAME_SEAL uses: the slot's, or that of its dispatch where the slot has been derived anew or emptied since (R360, R371). -/
def State.ctrFor (s : State) (slot : Nat) (x : Sess) : Nat := ((s.sameSess slot x).getD x).ctr

/-- A session's counter moved on, unless its slot has been derived anew or emptied since (R360). -/
def bumpSess (s : State) (slot : Nat) (x : Sess) : State :=
  match s.sameSess slot x with
  | some y => s.setSess slot (some { y with ctr := y.ctr + 1 })
  | none => s

/-- FRAME_SEAL (R371). -/
def opFrameSeal (s : State) (c : LCmd) : LRes :=
  let (s, src) := ledSrc s c
  let (s, aad) := ledRead s (c.w 6) c.auxLen
  match c.sess, src, aad with
  | none, _, _ => .of s stBadKey
  | some x, some m, some a =>
    let n := s.ctrFor c.a x
    if 2 ^ 64 - 1 ≤ n then .of s stCounterEnd
    else
      let (s, ok) := ledWrite (bumpSess s c.a x) (c.w 4) (gcmSeal x.key (x.iv ++ beBytes 8 n) a m)
      ⟨s, if ok then stOk else stMemFault, 0, some n⟩
  | _, _, _ => .of s stMemFault

/-- FRAME_OPEN (R372): nothing is written unless the tag verifies. -/
def opFrameOpen (s : State) (c : LCmd) : LRes :=
  let (s, src) := ledSrc s c
  let (s, aad) := ledRead s (c.w 6) c.auxLen
  let iv := (leBytes 4 (c.w 8) ++ leBytes 4 (c.w 9)) ++ leBytes 4 (c.w 10)
  match c.sess, src, aad with
  | none, _, _ => .of s stBadKey
  | some x, some m, some a =>
    match gcmOpen x.key iv a m with
    | none => .of s stAuthFail
    | some text =>
      let (s, ok) := ledWrite s (c.w 4) text
      .of s (if ok then stOk else stMemFault)
  | _, _, _ => .of s stMemFault

/-- The session that an agreement makes (R359): none where the secret is all zeros. -/
def sessionOf (agree peerPub salt info : List Byte) : Option Sess :=
  let z := x25519 agree peerPub
  if z.all (· == 0) then none
  else
    let okm := hkdf z salt info 36
    some ⟨okm.take 32, okm.drop 32, 0⟩

/-- SESSION_DERIVE (R359). -/
def opSessionDerive (s : State) (c : LCmd) : LRes :=
  let (s, salt) := ledSrc s c
  let (s, info) := ledRead s (c.w 6) c.auxLen
  match salt, info with
  | some t, some i =>
    match s.led.dev, c.peer with
    | some (_, x), some e =>
      match sessionOf x ((e.drop 64).take 32) t i with
      | some v => .of (s.setSess c.a (some v)) stOk
      | none => .of s stBadKey
    | _, _ => .of s stBadKey
  | _, _ => .of s stMemFault

/-- SESSION_CLEAR (R360). -/
def opSessionClear (s : State) (c : LCmd) : LRes := .of (s.setSess c.a none) stOk

/-- KEY_PUT (R359): an entry whose algorithm or reserved bytes are out of range is malformed. -/
def opKeyPut (s : State) (c : LCmd) : LRes :=
  let (s, src) := ledSrc s c
  match src with
  | none => .of s stMemFault
  | some e => if 1 < peerAlg e || (e.drop 97).any (· != 0) then .of s stBadCmd else .of (s.setPeer c.a e) stOk

/-- NOP. -/
def opNop (s : State) (_ : LCmd) : LRes := .of s stOk

/-! ## Translation -/

/-- The word of the translation program store. -/
def State.xlWord (s : State) (i : Nat) : Nat := (s.reg (LEDGER_XL_PROG i)).toNat

/-- Translation engine `e` at work: where it stands, or at its start when a command has just been dispatched to it. -/
def xlEngine (s : State) (e : Nat) : State × Option Xl :=
  match s.led.xl.find? (fun x => x.1 == e) with
  | some x => (s, some x.2)
  | none =>
    match s.led.cmds.find? (fun c => c.eng == some (12 + e)) with
    | none => (s, none)
    | some c =>
      let (s, src) := ledSrc s c
      (s, src.map (fun m => xlInit m c.dstLen c.b))

/-- The state with a translation engine set. -/
def State.setXl (s : State) (e : Nat) (x : Xl) : State := s.setLed { s.led with xl := smInsert e x (smErase s.led.xl e) }

/-- Engine `e` executes its next instruction when its op is `op`. -/
def xlExec (s : State) (e op : Nat) : State :=
  let (t, x) := xlEngine s e
  match x with
  | none => s
  | some x =>
    if x.stop.isSome || xlOp (t.xlWord x.pc) != op then s
    else
      let (w, t) := t.draw
      let (w', t) := t.draw
      t.setXl e (xlStep t.xlWord (w.toNat + w'.toNat * 2 ^ 32) x)

/-- XLATE: its engine runs to the end of its program; on END the dst buffer is written. -/
def opXlate (s : State) (c : LCmd) : LRes :=
  let e := c.eng.getD 12 - 12
  let (s, x) := xlEngine s e
  match x with
  | none => .of s stMemFault
  | some x =>
    let (w, s) := s.draw
    let (w', s) := s.draw
    let x := xlRun s.xlWord (w.toNat + w'.toNat * 2 ^ 32) 4097 x
    let s := s.setLed { s.led with xl := smErase s.led.xl e }
    match x.stop with
    | some (0, n) =>
      let (s, ok) := ledWrite s (c.w 4) x.out
      ⟨s, if ok then stOk else stMemFault, if ok then n else 0, none⟩
    | some (st, d) => ⟨s, st, d, none⟩
    | none => ⟨s, stXlFail, 7, none⟩

/-! ## Register access -/

/-- The node and context that LEDGER_FLOOR_SEL selects. -/
def State.floorSel (s : State) : Nat × Nat := (s.fld LEDGER_FLOOR_SEL LEDGER_FLOOR_SEL_ctx, s.fld LEDGER_FLOOR_SEL LEDGER_FLOOR_SEL_node)

/-- A register write to the LEDGER block. -/
def ledgerWrite (s : State) (a : Nat) (w : Word) : State :=
  if a == LEDGER_SQ_TAIL then sqTailWrite s (getF w LEDGER_SQ_TAIL_index)
  else if a == LEDGER_CQ_HEAD then cqHeadWrite s (getF w LEDGER_CQ_HEAD_index)
  else if a == LEDGER_FLOOR_LO then s.setLed { s.led with floorLo := w.toNat }
  else if a == LEDGER_FLOOR_HI then
    let s := if bitOf w LEDGER_FLOOR_HI_refused then s.setBit LEDGER_FLOOR_HI LEDGER_FLOOR_HI_refused false else s
    floorWrite s s.floorSel.1 s.floorSel.2 (getF w LEDGER_FLOOR_HI_epoch * 2 ^ 34 + getF w LEDGER_FLOOR_HI_seq_hi * 2 ^ 32 + s.led.floorLo)
  else if a == LEDGER_CORD_TAIL_LO then s.setLed { s.led with tailLo := w.toNat }
  else if a == LEDGER_CORD_TAIL_HI then cordTailSet s (w.toNat * 2 ^ 32 + s.led.tailLo)
  else if LEDGER_SEEN_SALT 0 ≤ a ∧ a < LEDGER_SEEN_SALT 4 then s.setReg a w
  else if LEDGER_SEEN_ALT_SALT 0 ≤ a ∧ a < LEDGER_SEEN_ALT_SALT 4 then s.setReg a w
  else s.writeCodes a w

/-- A register read of the LEDGER block: floor, sequence, tail, victims and Retorts as they stand. -/
def ledgerRead (s : State) (a : Nat) : State × Word :=
  let f := s.floorOf s.floorSel.1 s.floorSel.2
  if a == LEDGER_FLOOR_LO then (s, BitVec.ofNat 32 f)
  else if a == LEDGER_FLOOR_HI then
    (s, setF (setF (s.readCodes a) LEDGER_FLOOR_HI_epoch (f / 2 ^ 34)) LEDGER_FLOOR_HI_seq_hi (f / 2 ^ 32))
  else if a == LEDGER_CORD_SEQ_LO then (s.setReg LEDGER_CORD_SEQ_HI (BitVec.ofNat 32 (s.led.seq / 2 ^ 32)), BitVec.ofNat 32 s.led.seq)
  else if a == LEDGER_CORD_TAIL_LO then (s, BitVec.ofNat 32 s.led.tail)
  else if a == LEDGER_CORD_TAIL_HI then (s, BitVec.ofNat 32 (s.led.tail / 2 ^ 32))
  else if a == LEDGER_SEEN_STAT then (s.readClears a, setF (s.readCodes a) LEDGER_SEEN_STAT_victims s.led.victims.length)
  else if a == LEDGER_RT_BUSY then
    (s, BitVec.ofNat 32 ((s.engines.filter (· < 12)).foldl (fun w e => w + 2 ^ e) 0))
  else (s.readClears a, s.readCodes a)

end Sys2Proof.Machine
end

