-- ==== Sys2Proof/Machine/Floor.lean ====
section
/-! DEFINITION. The link island's ports (chapter 20): what a port delivers, the descriptor rings, timestamps, link changes and the fallback. -/

namespace Sys2Proof.Machine

/-- The state with the last frame that a port sent. -/
def setWire (s : State) (p : Nat) (f : List Byte) : State := { s with wire := smInsert p f (smErase s.wire p) }

/-- Whether port `p` works: enabled, its block ON and its link up. -/
def State.portUp (s : State) (p : Nat) : Bool := s.blkOn (34 + p) && s.bit (FLOOR_CTRL p) FLOOR_CTRL_enable && s.bit (FLOOR_STAT p) FLOOR_STAT_link

/-! ## Receive (R406, R422, R423) -/

/-- A frame that the port drops and counts. -/
def floorDrop (s : State) (p : Nat) : State := s.count (FLOOR_CNT_1 p) FLOOR_CNT_1_dropped

/-- The EtherType of a frame at an offset. -/
def etherAt (f : List Byte) (off : Nat) : Nat := beOf ((f.drop off).take 2)

/-- Whether a frame carries one tag. -/
def isTagged (f : List Byte) : Bool := etherAt f 12 == 0x8100

/-- The EtherType behind an optional tag, and where its payload begins. -/
def etherType (f : List Byte) : Nat := if isTagged f then etherAt f 16 else etherAt f 12
def etherBody (f : List Byte) : Nat := if isTagged f then 18 else 14

/-- The station address of a port. -/
def State.ownMac (s : State) (p : Nat) : List Byte := leBytes 4 (s.reg (FLOOR_MAC_LO p)).toNat ++ leBytes 2 (s.reg (FLOOR_MAC_HI p)).toNat

/-- The address of IEEE 1588 messages. -/
def ptpMac : List Byte := [0x01, 0x1B, 0x19, 0, 0, 0]

/-- The destinations that a port delivers (Table 20-1): its own MAC and broadcast, and the IEEE 1588 address for its EtherType. -/
def State.destOk (s : State) (p : Nat) (f : List Byte) : Bool :=
  let d := f.take 6
  d == s.ownMac p || d == List.replicate 6 0xFF || (d == ptpMac && etherType f == 0x88F7)

/-- Whether an EtherType is delivered. -/
def State.typeOk (s : State) (t : Nat) : Bool := t == s.fld FLOOR_ETYPE FLOOR_ETYPE_etype || t == 0x88F7

/-- Whether a frame, without its FCS, has a legal length. -/
def lengthOk (f : List Byte) : Bool := 60 ≤ f.length && f.length ≤ (if isTagged f then 1518 else 1514)

/-- Whether a frame is an IEEE 1588 event message: Sync or Delay_Req (R422). -/
def isPtpEvent (f : List Byte) : Bool := etherType f == 0x88F7 && ((f.getD (etherBody f) 0).toNat % 16 ≤ 1)

/-- A timestamp: the timebase value at the start-of-frame delimiter, plus a signed correction. -/
def stampOf (sfd adj : Nat) : Nat := wrapTo 64 (sfd + signed 16 adj)

/-- A frame delivered to the next receive descriptor. -/
def rxDeliver (s : State) (p : Nat) (f : List Byte) (sfd : Nat) : State :=
  let size := 2 ^ s.fld (FLOOR_Q_CFG p) FLOOR_Q_CFG_rx_log2
  let t := s.fld (FLOOR_RXQ_TAIL p) FLOOR_RXQ_TAIL_index
  if t == s.fld (FLOOR_RXQ_HEAD p) FLOOR_RXQ_HEAD_index % size then floorDrop s p
  else
    let d := s.fld (FLOOR_RXQ_BASE p) FLOOR_RXQ_BASE_base * 16 + 16 * t
    let r := memRead s 11 d 4 []
    let s := (memWrite r.s 11 (leOf r.data) f []).s
    let ev := isPtpEvent f
    let w1 := 2 ^ 31 + cond ev (2 ^ 30) 0 + cond (isTagged f) (2 ^ 29) 0 + f.length
    let ts := stampOf sfd (s.fld (FLOOR_TS_ADJ p) FLOOR_TS_ADJ_rx)
    let s := (memWrite s 11 (d + 4) (leBytes 4 w1 ++ leBytes 8 ts) []).s
    (s.setFld (FLOOR_RXQ_TAIL p) FLOOR_RXQ_TAIL_index ((t + 1) % size)).count (FLOOR_CNT_0 p) FLOOR_CNT_0_rx_frames

/-- Port `p` receives a frame, whose FCS is right or not, at a timebase time. -/
def frameReceive (s : State) (p : Nat) (f : List Byte) (fcsOk : Bool) (sfd : Nat) : State :=
  if 2 ≤ p || !s.portUp p then s
  else if !fcsOk || !lengthOk f then s.count (FLOOR_CNT_1 p) FLOOR_CNT_1_fcs_err
  else if !s.typeOk (etherType f) || !s.destOk p f then floorDrop s p
  else rxDeliver s p f sfd

/-! ## Transmit (R406, R407, R422, R423) -/

/-- A frame with the 802.1Q tag that FLOOR_ETYPE asks for, where it has none (Table 20-1). -/
def State.tagged (s : State) (f : List Byte) : List Byte :=
  if s.bit FLOOR_ETYPE FLOOR_ETYPE_tag_en && !isTagged f then
    f.take 12 ++ [0x81, 0x00] ++ beBytes 2 (s.fld FLOOR_ETYPE FLOOR_ETYPE_pcp * 2 ^ 13 + s.fld FLOOR_ETYPE FLOOR_ETYPE_vid) ++ f.drop 12
  else f

/-- The frame check sequence of a frame (IEEE 802.3). -/
def fcsOf (f : List Byte) : List Byte := leBytes 4 (crcRun 0xEDB88320 0xFFFFFFFF f ^^^ 0xFFFFFFFF)

/-- A frame of a descriptor as the port sends it: the tag, and the FCS behind it. -/
def State.onWire (s : State) (f : List Byte) : List Byte := s.tagged f ++ fcsOf (s.tagged f)

/-- A write of TXQ_TAIL. -/
def txTailWrite (s : State) (p v : Nat) : State :=
  s.setFld (FLOOR_TXQ_TAIL p) FLOOR_TXQ_TAIL_index (v % 2 ^ s.fld (FLOOR_Q_CFG p) FLOOR_Q_CFG_tx_log2)

/-- The frame of the oldest transmit descriptor is sent, crossing the pins at a timebase time. -/
def txDone (s : State) (p sfd : Nat) : State :=
  let h := s.fld (FLOOR_TXQ_HEAD p) FLOOR_TXQ_HEAD_index
  if 2 ≤ p || !s.portUp p || h == s.fld (FLOOR_TXQ_TAIL p) FLOOR_TXQ_TAIL_index then s
  else
    let size := 2 ^ s.fld (FLOOR_Q_CFG p) FLOOR_Q_CFG_tx_log2
    let d := s.fld (FLOOR_TXQ_BASE p) FLOOR_TXQ_BASE_base * 16 + 16 * h
    let r := memRead s 11 d 8 []
    let w1 := leOf (r.data.drop 4)
    let f := memRead r.s 11 (leOf (r.data.take 4)) (bitsN w1 10 0) []
    let s := setWire f.s p (f.s.onWire f.data)
    let s := s.count (FLOOR_CNT_0 p) FLOOR_CNT_0_tx_frames
    let s :=
      if w1.testBit 30 && !s.bit (FLOOR_TXTS_ID p) FLOOR_TXTS_ID_valid then
        let ts := stampOf sfd (s.fld (FLOOR_TS_ADJ p) FLOOR_TS_ADJ_tx)
        let s := { s with txts := smSet (fun _ => 0) s.txts p ts }
        (s.setBit (FLOOR_TXTS_ID p) FLOOR_TXTS_ID_valid true).setFld (FLOOR_TXTS_ID p) FLOOR_TXTS_ID_seq_id (etherAt f.data (etherBody f.data + 30))
      else s
    let s := (memWrite s 11 (d + 4) (leBytes 4 (w1 % 2 ^ 31 + 2 ^ 31)) []).s
    raisePulse (s.setFld (FLOOR_TXQ_HEAD p) FLOOR_TXQ_HEAD_index ((h + 1) % size)) (164 + p)

/-- A read of FLOOR_p_TXTS_LO latches the high word (R329). -/
def txtsRead (s : State) (p : Nat) : State × Word :=
  let v := smGet (fun _ => 0) s.txts p
  (s.setReg (FLOOR_TXTS_HI p) (BitVec.ofNat 32 (v / 2 ^ 32)), BitVec.ofNat 32 v)

/-! ## The link (R406, R414, R424) -/

/-- Whether port `p` now tries 1000BASE-X by its fallback. -/
def State.fallbackTrial (s : State) (p : Nat) : Bool := smGet (fun _ => false) s.trial p

/-- Whether port `p` now works at 10 Gbit/s: its mode, unless its fallback tries 1000BASE-X. -/
def State.tenGigabit (s : State) (p : Nat) : Bool := s.fld (FLOOR_CTRL p) FLOOR_CTRL_mode < 2 && !s.fallbackTrial p

/-- The link of port `p` as it stands now: its speed, block lock and training are those of the rate at which it works. -/
def linkSet (s : State) (p : Nat) (l : LinkReport) : State :=
  let r := FLOOR_STAT p
  let ten := s.tenGigabit p
  let s := if l.up != s.bit r FLOOR_STAT_link then s.setBit r FLOOR_STAT_changed true else s
  let s := ((s.setBit r FLOOR_STAT_link l.up).setBit r FLOOR_STAT_speed (ten && l.tenG)).setBit r FLOOR_STAT_an_done l.anDone
  (s.setBit r FLOOR_STAT_trained (ten && l.trained)).setBit r FLOOR_STAT_lock (ten && l.lock)

/-- 500 ms at one rate (R406): a port in a 10G mode with fallback that has gained no block lock tries 1000BASE-X, and one whose trial has brought no link goes back. -/
def fallbackTimer (s : State) (p : Nat) : State :=
  if s.blkOn (34 + p) && s.bit (FLOOR_CTRL p) FLOOR_CTRL_fallback && s.bit (FLOOR_CTRL p) FLOOR_CTRL_enable && s.fld (FLOOR_CTRL p) FLOOR_CTRL_mode < 2 &&
      !s.bit (FLOOR_STAT p) (if s.fallbackTrial p then FLOOR_STAT_link else FLOOR_STAT_lock) then
    { s with trial := smSet (fun _ => false) s.trial p !s.fallbackTrial p }
  else s

/-- A register write to the FLOOR block. -/
def floorWriteReg (s : State) (a : Nat) (w : Word) : State :=
  if a == FLOOR_TXQ_TAIL 0 || a == FLOOR_TXQ_TAIL 1 then txTailWrite s ((a - FLOOR_TXQ_TAIL 0) / 0x100) (getF w FLOOR_TXQ_TAIL_index)
  else s.writeCodes a w

/-- A register read of the FLOOR block. -/
def floorReadReg (s : State) (a : Nat) : State × Word :=
  if a == FLOOR_TXTS_LO 0 || a == FLOOR_TXTS_LO 1 then txtsRead s ((a - FLOOR_TXTS_LO 0) / 0x100)
  else if a == FLOOR_TXQ_HEAD 0 || a == FLOOR_TXQ_HEAD 1 then
    ({ s with pulse := smSet (fun _ => false) s.pulse (164 + (a - FLOOR_TXQ_HEAD 0) / 0x100) false }, s.readCodes a)
  else (s.readClears a, s.readCodes a)

end Sys2Proof.Machine
end

