-- ==== Sys2Proof/Machine/FwBase.lean ====
section
/-! DEFINITION. What every part of Falornyr uses: its state, notifications (R20, R443, R444) and health counters (R511, R512). -/

namespace Sys2Proof.Machine

/-- The state with Falornyr's own replaced. -/
def State.setFw (s : State) (f : Fw) : State := { s with fw := f }

/-- Whether Falornyr serves commands: it runs, on a Kiln that runs. -/
def State.fwServes (s : State) : Bool := s.fw.running && s.ember.phase == .run && !s.kiln.lockup && !s.kiln.halted

/-! ## Notifications -/

/-- Opcodes of Table 21-16. -/
def opSealed : Nat := 0x40F0
def opAcked : Nat := 0x40F1
def opRejected : Nat := 0x40F2
def opHealthEvent : Nat := 0x50F0
def opSysEvent : Nat := 0x01F0

/-- An entry queued for MBX_5, and the next message posted when the mailbox is free. -/
def notify (s : State) (op entry : Nat) : State := fwPostNote (s.setFw { s.fw with notes := s.fw.notes ++ [(op, entry)] })

/-! ## Health counters -/

/-- The counter groups of Table 25-3: how many counters each has. -/
def healthSize (g : Nat) : Nat := [7, 7, 8, 8, 7, 6, 4, 8].getD g 0

/-- The key of counter `i` of group `g`. -/
def healthKey (g i : Nat) : Nat := 16 * g + i

/-- The value of a health counter. -/
def State.health (s : State) (g i : Nat) : Nat := smGet (fun _ => 0) s.fw.health (healthKey g i)

/-- The state with a health counter set. -/
def State.setHealth (s : State) (g i v : Nat) : State :=
  s.setFw { s.fw with health := smSet (fun _ => 0) s.fw.health (healthKey g i) (min v 0xFFFFFFFF) }

/-- A health counter counts. -/
def healthAdd (s : State) (g i n : Nat) : State := s.setHealth g i (s.health g i + n)
def healthCount (s : State) (g i : Nat) : State := healthAdd s g i 1

/-- A HEALTH_EVENT naming a group and counter, with HOST_DB bit 16 (R512). -/
def healthEvent (s : State) (g i : Nat) : State := hostDbSet (notify s opHealthEvent (g + i * 2 ^ 32)) 16

/-- An alert for a counter: posted once until HEALTH_CLEAR of its group (R512). -/
def healthAlert (s : State) (g i : Nat) : State :=
  if smGet (fun _ => false) s.fw.posted (healthKey g i) then s
  else
    let s := s.setFw { s.fw with posted := smSet (fun _ => false) s.fw.posted (healthKey g i) true }
    healthEvent s g i

/-- The threshold of a group. -/
def State.threshold (s : State) (g : Nat) : Nat := smGet (fun _ => 0) s.fw.thresholds g

/-- Every counter that has reached its group's threshold is alerted. -/
def thresholdCheck (s : State) : State :=
  (List.range 8).foldl (fun s g =>
    (List.range (healthSize g)).foldl (fun s i => if s.threshold g != 0 && s.threshold g ≤ s.health g i then healthAlert s g i else s) s) s

/-! ## Policies -/

/-- Falornyr stops taking money events for a reason, or for that reason no longer (R386, R504, R508). -/
def stopMoney (s : State) (why : Nat) : State := if s.fw.stop.contains why then s else s.setFw { s.fw with stop := why :: s.fw.stop }
def goMoney (s : State) (why : Nat) : State := s.setFw { s.fw with stop := s.fw.stop.filter (· != why) }

def whySeal : Nat := 1
def whyClock : Nat := 2
def whySeq : Nat := 3
def whyDead : Nat := 4

/-- A queue of entries for the host that grows: the alert at 49,152 (R444), and the peak of the queue. -/
def noteLevel (s : State) : State :=
  let n := s.fw.notes.length
  let s := if s.health 6 3 < n then s.setHealth 6 3 n else s
  if 49152 ≤ n then healthAlert s 6 3 else s

/-- SEALED, ACKED and REJECTED of a TXID. -/
def postSealed (s : State) (txid : Nat) : State := noteLevel (notify s opSealed txid)
def postAcked (s : State) (txid : Nat) : State := noteLevel (notify s opAcked txid)
def postRejected (s : State) (txid : Nat) : State := noteLevel (notify s opRejected txid)

/-- Whether the running profile is Dual, and Bench. -/
def State.curProfile (s : State) : Nat := s.fld SYS_PROFILE SYS_PROFILE_cur
def State.isDual (s : State) : Bool := s.curProfile == 2
def State.isBench (s : State) : Bool := s.curProfile == 3

/-- The Seen context of the Keeper side (R378, R417). -/
def State.keeperCtx (s : State) : Nat := if s.isDual then 1 else 0

/-- The salt of a context. -/
def State.salt (s : State) (ctx : Nat) : List Byte := s.saltNow ctx

/-- Whether an engine and a unit for an operation are ON. -/
def State.engineOn (s : State) (op : Nat) : Bool :=
  unitOk s op && ((enginesOf op).isEmpty || (enginesOf op).any (fun e => s.blkOn (engineBlock e)))

/-- Whether the profile gives the device a Keeper's part: Keeper and Dual do, and Bench for its tests (R14). -/
def State.mayKeep (s : State) : Bool := 1 ≤ s.curProfile && s.curProfile ≤ 3

/-- Whether this node is a Keeper: by its profile, and under Bench by FLOOR_CONFIG (R14; assumption 121). -/
def State.keeper (s : State) : Bool := s.curProfile == 1 || s.curProfile == 2 || (s.curProfile == 3 && s.fw.role == 1)

/-- Whether the role of the running profile has heads (Table 1-1). -/
def State.hasHeads (s : State) : Bool := s.curProfile != 1

/-- Whether this node is the active Keeper. -/
def State.isActive (s : State) : Bool := s.keeper && s.fw.active == some s.fw.node && s.fw.keepers.any (fun e => e.1 == s.fw.node)

end Sys2Proof.Machine
end

