-- ==== Sys2Proof/Machine/FwFloor.lean ====
section
/-! DEFINITION. Falornyr's side of the floor link (R407 to R414): the descriptor rings, headers, sealing and opening of floor frames, sessions, selective
retransmission, paths and heartbeats. -/

namespace Sys2Proof.Machine

/-! ## Sessions -/

/-- The session with a peer. -/
def State.fsess (s : State) (n : Nat) : FwSess := smGet (fun _ => FwSess.init) s.fw.sess n

/-- The state with a session replaced. -/
def State.setFsess (s : State) (n : Nat) (x : FwSess) : State := s.setFw { s.fw with sess := smSet (fun _ => FwSess.init) s.fw.sess n x }

/-- 32 bytes that the manual leaves open: a fresh nonce. -/
def drawBytes (s : State) : Nat → State × List Byte
  | 0 => (s, [])
  | n + 1 =>
    let (w, s) := s.draw
    let (s, bs) := drawBytes s n
    (s, leBytes 4 w.toNat ++ bs)

/-- The port that path `k` of a session uses is up. -/
def State.linkUp (s : State) (k : Nat) : Bool := s.portUp k

/-- The path that a new frame takes (R414); none where it waits. -/
def State.pathFor (s : State) (n : Nat) : Option Nat :=
  let x := s.fsess n
  if x.up0 then some 0 else if x.up1 then some 1 else if s.linkUp 0 then some 0 else if s.linkUp 1 then some 1 else none

/-- The path of a resend of a frame that path `last` carried: the other one when it is up (R413). -/
def State.pathForResend (s : State) (n last : Nat) : Option Nat :=
  let x := s.fsess n
  if if last == 0 then x.up1 else x.up0 then some (1 - last) else s.pathFor n

/-! ## Headers (Table 20-2) -/

/-- The frame kinds. -/
def kindHello : Nat := 1
def kindData : Nat := 2
def kindControl : Nat := 3

/-- The selective acknowledgement of a session: bit i for cum + 2 + i. -/
def sackOf (x : FwSess) : Nat := (List.range 32).foldl (fun w i => w + cond (x.got.contains (x.cum + 2 + i)) (2 ^ i) 0) 0

/-- A floor header. -/
def floorHeader (s : State) (n kind flags dst : Nat) (iv : List Byte) (seq len : Nat) : List Byte :=
  let x := s.fsess n
  leBytes 1 1 ++ leBytes 1 kind ++ leBytes 2 flags ++ leBytes 2 s.fw.node ++ leBytes 2 dst ++ iv ++ leBytes 4 seq ++ leBytes 4 x.base ++
    leBytes 4 x.cum ++ leBytes 4 (sackOf x) ++ leBytes 2 len ++ [0, 0]

/-- Fields of a received header. -/
def hdrKind (f : List Byte) : Nat := (f.getD 1 0).toNat
def hdrSrc (f : List Byte) : Nat := leOf ((f.drop 4).take 2)
def hdrDst (f : List Byte) : Nat := leOf ((f.drop 6).take 2)
def hdrIv (f : List Byte) : List Byte := (f.drop 8).take 12
def hdrCtr (f : List Byte) : Nat := beOf ((f.drop 12).take 8)
def hdrSeq (f : List Byte) : Nat := leOf ((f.drop 20).take 4)
def hdrBase (f : List Byte) : Nat := leOf ((f.drop 24).take 4)
def hdrCum (f : List Byte) : Nat := leOf ((f.drop 28).take 4)
def hdrSack (f : List Byte) : Nat := leOf ((f.drop 32).take 4)
def hdrLen (f : List Byte) : Nat := leOf ((f.drop 36).take 2)

/-- Whether a header is one that this node takes from a known sender. -/
def State.hdrOk (s : State) (f : List Byte) (kind : Nat) : Bool :=
  40 ≤ f.length && (f.getD 0 0).toNat == 1 && hdrKind f == kind && (hdrDst f == s.fw.node || (kind == kindHello && hdrDst f == 0xFFFF)) &&
    hdrSrc f != s.fw.node

/-! ## The descriptor rings (R423) -/

/-- An entry of a port's transmit ring is free. -/
def State.txFree (s : State) (p : Nat) : Bool :=
  (s.fld (FLOOR_TXQ_TAIL p) FLOOR_TXQ_TAIL_index + 1) % 2 ^ s.fld (FLOOR_Q_CFG p) FLOOR_Q_CFG_tx_log2 != s.fld (FLOOR_TXQ_HEAD p) FLOOR_TXQ_HEAD_index

/-- A frame goes into the next transmit descriptor: its bytes into the buffer that the descriptor names, its length and whether a timestamp is asked for into word 1,
and then TXQ_TAIL moves on. Falornyr's BARRIER between has nothing to wait for here. A descriptor that cannot be read takes no frame. -/
def txPut (s : State) (p : Nat) (stamp : Bool) (f : List Byte) : State :=
  let t := s.fld (FLOOR_TXQ_TAIL p) FLOOR_TXQ_TAIL_index
  let d := s.fld (FLOOR_TXQ_BASE p) FLOOR_TXQ_BASE_base * 16 + 16 * t
  let r := memRead s 0 d 4 []
  if r.err || r.poison then r.s
  else
    let s := (memWrite r.s 0 (leOf r.data) f []).s
    txTailWrite (memWrite s 0 (d + 4) (leBytes 4 (cond stamp (2 ^ 30) 0 + f.length)) []).s p (t + 1)

/-- The frames that wait for port `p` go into its ring, in order, while an entry is free: `k` bounds them. -/
def txPump (s : State) (p : Nat) : Nat → State
  | 0 => s
  | k + 1 =>
    match s.fw.out.find? (fun e => e.1 == p) with
    | none => s
    | some e => if s.txFree p then txPump (txPut (s.setFw { s.fw with out := s.fw.out.erase e }) p e.2.1 e.2.2) p k else s

/-- Every frame that finds an entry of port `p` goes there. -/
def txFill (s : State) (p : Nat) : State := txPump s p s.fw.out.length

/-- A frame of an EtherType to a station address, for port `p` to send (R407). -/
def sendOut (s : State) (p : Nat) (stamp : Bool) (dst : List Byte) (type : Nat) (payload : List Byte) : State :=
  txFill (s.setFw { s.fw with out := s.fw.out ++ [(p, stamp, dst ++ s.ownMac p ++ beBytes 2 type ++ payload)] }) p

/-- A floor frame, whose parts from the floor header on are given, to a peer. -/
def sendFloor (s : State) (p n : Nat) (g : List Byte) : State :=
  sendOut s p false (beBytes 6 (Config.peerMac n p).toNat) (s.fld FLOOR_ETYPE FLOOR_ETYPE_etype) g

/-- The receive descriptor of port `p` that Falornyr takes next. -/
def State.rxNext (s : State) (p : Nat) : Nat := smGet (fun _ => 0) s.fw.rxAt p

/-- The frame that port `p` has put there, and its timestamp; none while it has put none. -/
def rxFrame (s : State) (p : Nat) : State × Option (List Byte × Nat) :=
  let r := memRead s 0 (s.fld (FLOOR_RXQ_BASE p) FLOOR_RXQ_BASE_base * 16 + 16 * s.rxNext p) 16 []
  let w1 := leOf ((r.data.drop 4).take 4)
  if r.err || r.poison || !w1.testBit 31 then (r.s, none)
  else
    let f := memRead r.s 0 (leOf (r.data.take 4)) (bitsN w1 10 0) []
    (f.s, some (f.data, leOf (r.data.drop 8)))

/-- Falornyr gives a receive descriptor back to port `p`: done is cleared and RXQ_HEAD moves on. -/
def rxBack (s : State) (p : Nat) : State :=
  let size := 2 ^ s.fld (FLOOR_Q_CFG p) FLOOR_Q_CFG_rx_log2
  let i := s.rxNext p
  let s := (memWrite s 0 (s.fld (FLOOR_RXQ_BASE p) FLOOR_RXQ_BASE_base * 16 + 16 * i + 4) (leBytes 4 0) []).s
  let s := s.setFw { s.fw with rxAt := smSet (fun _ => 0) s.fw.rxAt p ((i + 1) % size) }
  s.setFld (FLOOR_RXQ_HEAD p) FLOOR_RXQ_HEAD_index ((s.fld (FLOOR_RXQ_HEAD p) FLOOR_RXQ_HEAD_index + 1) % size)

/-- The part of a frame behind its Ethernet header. -/
def etherPart (f : List Byte) : List Byte := f.drop (etherBody f)

/-- Whether a frame is a floor frame of a kind, one that comes from a node too, and one that Falornyr knows at all (Table 20-2): a sealed one names a node. -/
def State.isFloor (s : State) (kind : Nat) (f : List Byte) : Bool :=
  etherType f == s.fld FLOOR_ETYPE FLOOR_ETYPE_etype && ((etherPart f).getD 0 0).toNat == 1 && hdrKind (etherPart f) == kind
def State.isFrom (s : State) (kind : Nat) (q : Fin 1024) (f : List Byte) : Bool := s.isFloor kind f && hdrSrc (etherPart f) == q
def State.knownFrame (s : State) (f : List Byte) : Bool :=
  etherType f == 0x88F7 || s.isFloor kindHello f || ((s.isFloor kindData f || s.isFloor kindControl f) && hdrSrc (etherPart f) < 1024)

/-- Falornyr takes the frame in the next receive descriptor of port `p` where it is one that `want` names; one that it does not know is dropped and counted. -/
def withFrame (s : State) (p : Nat) (want : List Byte → Bool) (work : State → List Byte → Nat → State) : State :=
  match rxFrame s p with
  | (s, none) => s
  | (t, some (f, ts)) => if want f then work (rxBack t p) f ts else if s.knownFrame f then t else healthCount (rxBack t p) 4 3

/-! ## Sending -/

/-- Whether a counter has the parity of a sender (R409): the lower-numbered node sends with even ones. -/
def parityOk (sender other ctr : Nat) : Bool := (ctr % 2 == 0) == (sender < other)

/-- A session is opened (R408, R409): a fresh nonce, HELLOs from the next timer on, and no key of its own yet. -/
def openSession (s : State) (n : Nat) : State :=
  let (s, nonce) := drawBytes s 8
  s.setFsess n { s.fsess n with nonce := nonce, sentHello := false, opening := true, live := false, est := false }

/-- A frame of a session sealed and put into the ring of a path's port (R407, R409, R423). A counter of the wrong parity is spent on a zero-length seal; an
exhausted counter opens a new session. With the AES-GCM unit not ON no frame leaves. -/
def sendFrame (s : State) (n path kind flags seq : Nat) (body : List Byte) : State :=
  match if s.engineOn 8 then s.sess n else none with
  | none => s
  | some x =>
    let ctr := if parityOk s.fw.node n x.ctr then x.ctr else x.ctr + 1
    if 2 ^ 64 - 1 ≤ ctr then openSession s n
    else
      let iv := x.iv ++ beBytes 8 ctr
      let h := floorHeader s n kind (path + flags) n iv seq body.length
      sendFloor (s.setSess n (some { x with ctr := ctr + 1 })) path n (h ++ gcmSeal x.key iv h body)

/-- A CONTROL frame on a path, and on the path that new frames take (R412, R414). -/
def sendControlOn (s : State) (n path : Nat) : State := if s.linkUp path then sendFrame s n path kindControl 0 0 [] else s
def sendControl (s : State) (n : Nat) : State := match s.pathFor n with | some p => sendControlOn s n p | none => s

/-- The frames of a session that it may have to send again, and the lowest seq of them. -/
def FwSess.open (x : FwSess) : List FwFrame := x.held.filter (fun f => !f.sacked)
def FwSess.lowest (x : FwSess) : Nat := match x.open with | f :: _ => f.seq | [] => x.next

/-- The state with what a session holds of one frame replaced. -/
def setFrame (s : State) (n : Nat) (f : FwFrame) : State :=
  let x := s.fsess n
  s.setFsess n { x with held := x.held.map (fun g => if g.id == f.id then f else g) }

/-- A held frame is sent once more, or waits for a link (R414). -/
def sendHeld (s : State) (n : Nat) (path : Option Nat) (f : FwFrame) : State :=
  match path with
  | none => setFrame s n { f with waits := true }
  | some p => setFrame (sendFrame s n p kindData (if f.sends == 0 then 0 else 2) f.seq f.body) n { f with sends := f.sends + 1, path := p, waits := false }

/-- Bodies that wait become DATA frames while there is room, in order (R412): `k` bounds them. -/
def flushWait (s : State) (n : Nat) : Nat → State
  | 0 => s
  | k + 1 =>
    let x := s.fsess n
    match x.wait with
    | [] => s
    | (id, body) :: rest =>
      if !x.est || 1024 ≤ x.open.length then s
      else
        let f : FwFrame := ⟨id, x.next, body, 0, 0, false, false⟩
        let base := if x.open.isEmpty then x.next else x.base
        let s := s.setFsess n { x with wait := rest, next := x.next + 1, held := x.held ++ [f], base := base }
        flushWait (sendHeld s n (s.pathFor n) f) n k

/-- Every body that can leave leaves. -/
def flush (s : State) (n : Nat) : State := flushWait s n (s.fsess n).wait.length

/-- A message of Table 20-3 as bytes. -/
def message (type : Nat) (value : List Byte) : List Byte := leBytes 2 type ++ leBytes 2 value.length ++ value

/-- A DATA body queued for a peer: the state, and the number of its frame. -/
def sendBody (s : State) (n : Nat) (body : List Byte) : State × Nat :=
  let id := s.fw.frameId
  let s := s.setFw { s.fw with frameId := id + 1 }
  let x := s.fsess n
  (flush (s.setFsess n { x with wait := x.wait ++ [(id, body)] }) n, id)

/-- A message sent to a peer. -/
def sendMessage (s : State) (n type : Nat) (value : List Byte) : State := (sendBody s n (message type value)).1

/-- Whether the cum_ack of a peer has still to cover a frame number (R416). -/
def State.uncovered (s : State) (n id : Nat) : Bool :=
  let x := s.fsess n
  x.held.any (fun f => f.id == id) || x.wait.any (fun e => e.1 == id)

/-- The messages of a DATA body (Table 20-3): `k` bounds them. -/
def messagesOf : Nat → List Byte → List (Nat × List Byte)
  | 0, _ => []
  | k + 1, b =>
    if b.length < 4 then []
    else
      let n := leOf ((b.drop 2).take 2)
      (leOf (b.take 2), (b.drop 4).take n) :: messagesOf k (b.drop (4 + n))

/-! ## HELLO (R408, R411) -/

/-- A HELLO on both paths. -/
def sendHello (s : State) (n : Nat) : State :=
  let x := s.fsess n
  let body := leBytes 4 s.fw.epoch ++ x.nonce ++ leBytes 1 (cond s.keeper 1 0) ++ leBytes 1 s.fw.rank ++ [0, 0]
  let one := fun (s : State) (p : Nat) =>
    if s.linkUp p then sendFloor s p n (floorHeader s n kindHello p n (List.replicate 12 0) 0 body.length ++ body) else s
  let s := one (one s 0) 1
  s.setFsess n { s.fsess n with sentHello := x.sentHello || s.linkUp 0 || s.linkUp 1 }

/-- Whether a body carries a REPLICA. -/
def hasReplica (b : List Byte) : Bool := (messagesOf (b.length / 4) b).any (fun m => m.1 == 5)

/-- The derivation of a session from both HELLOs (R408): salt, info and SESSION_DERIVE. Frames held from the old session go ahead of new ones
in the new one (R412), and so does one that only a sack covered where it carried a REPLICA, for cum_ack has to cover it (R416; assumption 122). -/
def deriveSession (s : State) (n : Nat) : State :=
  let x := s.fsess n
  match if s.engineOn 0xA then x.peer else none, s.led.dev, s.peer n with
  | some (nonce, epoch, _, _), some (_, agree), some e =>
    let me := s.fw.node
    let salt := sha256 (if me < n then x.nonce ++ nonce else nonce ++ x.nonce)
    let lo := if me < n then (me, s.fw.epoch) else (n, epoch)
    let hi := if me < n then (n, epoch) else (me, s.fw.epoch)
    let info := [0x58, 0x46, 0x4C, 0x31] ++ leBytes 2 lo.1 ++ leBytes 2 hi.1 ++ leBytes 4 lo.2 ++ leBytes 4 hi.2
    match sessionOf agree ((e.drop 64).take 32) salt info with
    | none => s
    | some k =>
      let s := s.setSess n (some k)
      let y := { x with live := true, est := false, next := 1, base := 1, held := [], cum := 0, got := [], high := 0, marks := [] }
      let again := x.held.filter (fun f => !f.sacked || hasReplica f.body)
      sendControl (s.setFsess n { y with wait := again.map (fun f => (f.id, f.body)) ++ x.wait }) n
  | _, _, _ => s

/-- The key is derived once both HELLOs are there. -/
def maybeDerive (s : State) (n : Nat) : State :=
  let x := s.fsess n
  if x.opening && x.sentHello && x.peer.isSome && !x.live then deriveSession s n else s

/-- The HELLO timer of a session being opened. -/
def helloTimer (s : State) (n : Nat) : State := if (s.fsess n).opening then maybeDerive (sendHello s n) n else s

/-- A HELLO is received (R408, R411): one from a node without a peer entry is dropped and counted; one for an established session counts only
while both paths are down. -/
def helloReceived (s : State) (f : List Byte) : State :=
  let n := hdrSrc f
  let b := f.drop 40
  if !s.hdrOk f kindHello || hdrLen f != 40 || b.length < 40 then healthCount s 4 3
  else if (s.peer n).isNone then healthCount s 4 5
  else
    let x := s.fsess n
    if x.est && (x.up0 || x.up1) then s
    else
      let s := if x.opening then s else openSession s n
      let got := ((b.drop 4).take 32, leOf (b.take 4), (b.getD 36 0).toNat, (b.getD 37 0).toNat)
      let y := s.fsess n
      let again := y.peer.map (·.1) != some got.1
      let s := s.setFsess n { y with peer := some got, live := y.live && !again && !x.est }
      maybeDerive (if (s.fsess n).sentHello then s else sendHello s n) n

/-! ## Receiving (R410, R412, R413) -/

/-- A DATA or CONTROL frame that passes every check of R410: the state with its counter marked, and the body. -/
def openFrame (s : State) (kind : Nat) (f : List Byte) : State × Option (List Byte) :=
  let n := hdrSrc f
  let x := s.fsess n
  let ctr := hdrCtr f
  if !s.hdrOk f kind || !s.engineOn 9 then (healthCount s 4 3, none)
  else match s.sess n with
    | none => (healthCount s 4 3, none)
    | some k =>
      if !parityOk n s.fw.node ctr || (hdrIv f).take 4 != k.iv then (healthCount s 4 3, none)
      else if ctr + 256 ≤ x.high || x.marks.contains ctr then (healthCount s 4 4, none)
      else match gcmOpen k.key (hdrIv f) (f.take 40) (f.drop 40) with
        | none => (healthCount (ledgerNote s stAuthFail) 4 3, none)
        | some body =>
          if body.length != hdrLen f then (healthCount s 4 3, none)
          else
            let high := max x.high ctr
            (s.setFsess n { x with high := high, marks := ctr :: x.marks.filter (fun c => high < c + 256) }, some body)

/-- Whether the sack of a frame covers a seq. -/
def sackCovers (f : List Byte) (q : Nat) : Bool := hdrCum f + 2 ≤ q && (hdrSack f).testBit (q - (hdrCum f + 2))

/-- Acknowledgements of a frame applied to what the session holds (R412): one that cum_ack covers is gone, one that sack covers is not sent again. -/
def takeAcks (s : State) (n : Nat) (f : List Byte) : State :=
  let x := s.fsess n
  let left : List FwFrame := x.held.filter (fun g => hdrCum f < g.seq)
  let covered (g : FwFrame) : FwFrame := { g with sacked := g.sacked || sackCovers f g.seq }
  let y := { x with held := left.map covered }
  flush (s.setFsess n { y with base := y.lowest }) n

/-- cum raised over the seqs received in order: `k` bounds it. -/
def advanceCum : Nat → Nat → List Nat → Nat × List Nat
  | 0, cum, got => (cum, got)
  | k + 1, cum, got => if got.contains (cum + 1) then advanceCum k (cum + 1) (got.filter (· != cum + 1)) else (cum, got)

/-- The sender's base raises cum (R413); seqs skipped in this way put a standby out of sync with the active Keeper (R416). -/
def takeBase (s : State) (n : Nat) (f : List Byte) : State :=
  let x := s.fsess n
  let low := hdrBase f - 1
  if low ≤ x.cum then s
  else
    let missed := (x.got.filter (fun q => q ≤ low)).length < low - x.cum
    let (cum, got) := advanceCum x.got.length low (x.got.filter (fun q => low < q))
    let s := s.setFsess n { x with cum := cum, got := got }
    if missed && s.keeper && s.fw.active == some n then s.setFw { s.fw with synced := false } else s

/-- A frame accepted on path `p`: the path is up, and a session whose key has been derived is established (R408, R414). -/
def pathHeard (s : State) (n p : Nat) : State :=
  let x := s.fsess n
  let x := if p == 0 then { x with up0 := s.linkUp 0 } else { x with up1 := s.linkUp 1 }
  s.setFsess n { x with est := x.est || x.live, opening := x.opening && !x.live }

/-- A CONTROL frame is received on port `p`. -/
def controlReceived (s : State) (p : Nat) (f : List Byte) : State :=
  let (s, b) := openFrame s kindControl f
  match b with
  | none => s
  | some _ => takeAcks (takeBase (pathHeard s (hdrSrc f) p) (hdrSrc f) f) (hdrSrc f) f

/-- A DATA frame is received on port `p`: its messages are delivered once per seq. -/
def dataReceived (s : State) (p : Nat) (f : List Byte) : State :=
  let n := hdrSrc f
  let (s, b) := openFrame s kindData f
  match b with
  | none => s
  | some body =>
    let s := takeAcks (takeBase (pathHeard s n p) n f) n f
    let x := s.fsess n
    let q := hdrSeq f
    if q ≤ x.cum || x.got.contains q then healthCount s 4 6
    else
      let (cum, got) := advanceCum (x.got.length + 1) x.cum (q :: x.got)
      let s := s.setFsess n { x with cum := cum, got := got }
      s.setFw { s.fw with inbox := s.fw.inbox ++ (messagesOf (body.length / 4) body).map (fun m => (n, m.1, m.2)) }

/-- 50 µs after an accepted DATA frame with nothing sent (R412). -/
def ackTimer (s : State) (n : Nat) : State := if (s.fsess n).est then sendControl s n else s

/-- A held frame is unacknowledged 200 µs after its last transmission (R413): it is sent again, or abandoned after 9 sends; an abandoned REPLICA
puts its standby out of sync (R416). -/
def retransmit (s : State) (n seq : Nat) : State :=
  let x := s.fsess n
  match x.open.find? (fun f => f.seq == seq) with
  | none => s
  | some f =>
    if f.sends < 9 then sendHeld s n (if f.sends == 0 then s.pathFor n else s.pathForResend n f.path) f
    else
      let y := { x with held := x.held.filter (fun g => g.seq != seq) }
      let s := healthCount (s.setFsess n { y with base := y.lowest }) 4 0
      let s := if hasReplica f.body then s.setFw { s.fw with inSync := s.fw.inSync.filter (· != n) } else s
      flush s n

/-! ## Paths (R414) -/

/-- A path of a session goes down. -/
def pathDown (s : State) (n p : Nat) : State :=
  let x := s.fsess n
  let was := if p == 0 then x.up0 else x.up1
  let s := s.setFsess n (if p == 0 then { x with up0 := false } else { x with up1 := false })
  if was then healthCount s 4 1 else s

/-- A port's link changes: its paths go down when it is lost, and what waited for a port leaves when it comes (R414). -/
def portLink (s : State) (p : Nat) (l : LinkReport) : State :=
  let lost := !l.up || (s.bit (FLOOR_STAT p) FLOOR_STAT_lock && !l.lock)
  let s := linkSet s p l
  let peers := s.fw.sess.map (·.1)
  if !lost then
    peers.foldl (fun s n => (s.fsess n).open.foldl (fun s f => if f.waits then sendHeld s n (s.pathFor n) f else s) s) s
  else peers.foldl (fun s n => pathDown s n p) s

/-- A path has been idle for 1 ms: a CONTROL frame as a heartbeat. -/
def heartbeat (s : State) (n p : Nat) : State := if (s.fsess n).live then sendControlOn s n p else s

/-- The first message in Falornyr's inbox, when it is of a type: the state without it, the peer and the value. -/
def takeMessage (s : State) (type : Nat) : Option (State × Nat × List Byte) :=
  match s.fw.inbox with
  | (n, t, v) :: rest => if t == type then some (s.setFw { s.fw with inbox := rest }, n, v) else none
  | [] => none

end Sys2Proof.Machine
end

