-- ==== Sys2Proof/Machine/FwTxn.lean ====
section
/-! DEFINITION. Falornyr's transactions (chapters 1, 19 and 20): money events and records, witness binding, sealing and its policy, pending
entries, the Keeper's admissions and batches, replication, floors and the change of Keeper. -/

namespace Sys2Proof.Machine

/-! ## Records (R384, R387 to R389) -/

/-- The next TXID of this node. -/
def State.nextTxid (s : State) : Nat := s.fw.node * 2 ^ 54 + s.fw.epoch * 2 ^ 34 + s.fw.nextSeq

/-- A payload item (R389). -/
def item (type : Nat) (v : List Byte) : List Byte := leBytes 2 type ++ leBytes 2 v.length ++ v

/-- A record before it is chained: prev_hash and jseq are for the island to fill. -/
def recordOf (txid type flags : Nat) (amount : Int) (currency time : Nat) (prev payloadHash witness : List Byte) : List Byte :=
  leBytes 8 txid ++ leBytes 2 type ++ leBytes 4 flags ++ leBytes 8 (wrapTo 64 amount) ++ leBytes 2 currency ++ leBytes 8 time ++ prev ++
    payloadHash ++ witness ++ List.replicate 16 0

/-- The record types of money events (Table 19-3). -/
def moneyTypes : List Nat := [0x0101, 0x0102, 0x0103, 0x0110, 0x0111, 0x0120, 0x0121]

/-- The fields of an entry. -/
def recType (r : List Byte) : Nat := leOf ((r.drop 8).take 2)
def recFlags (r : List Byte) : Nat := leOf ((r.drop 10).take 4)

/-! ## Witness binding (R16, R17, R173) -/

/-- The 64 bytes of ring entry q of a head. -/
def State.ringEntry (s : State) (h q : Nat) : List Byte :=
  (List.range 16).flatMap (fun w => leBytes 4 (s.reg (HEAD_WIT_RING h (16 * (q % 64) + w))).toNat)

/-- Whether Falornyr may cite entry q of a head at a time. -/
def State.citable (s : State) (h q time : Nat) : Bool :=
  let e := s.ringEntry h q
  (leOf ((e.drop 56).take 4)).testBit 24 && leOf ((e.drop 36).take 4) == q && leOf ((e.drop 48).take 8) ≤ time && smGet (fun _ => 0) s.fw.witAt h < q

/-- The entry that an event binds: the greatest q, of the head bound as its end marker reached Kiln, that may be cited; none where the role has no heads (R17). -/
def State.witnessFor (s : State) (head : Option Nat) (time : Nat) : Option (Nat × List Byte) :=
  match head with
  | none => none
  | some h =>
    if s.hasHeads && s.bit (HEAD_WIT_CTRL h) HEAD_WIT_CTRL_enable then
      let top := (s.reg (HEAD_WIT_SEQ h)).toNat
      ((((List.range 64).map (fun i => top - i)).filter (fun q => q != 0)).find? (fun q => s.citable h q time)).map (fun q => (h, s.ringEntry h q))
    else none

/-! ## Sealing -/

/-- The limits of a node's sequence (R386): a health event at 2^34 - 2^24, a stop with an alert at 2^34 - 1. -/
def seqCheck (s : State) : State :=
  let n := s.fw.nextSeq
  let s := if n == 2 ^ 34 - 2 ^ 24 then healthEvent (healthCount s 5 5) 5 5 else s
  if 2 ^ 34 - 1 ≤ n && !s.fw.stop.contains whySeq then
    stopMoney ((healthEvent (healthCount s 5 5) 5 5).setBit SYS_ALERT SYS_ALERT_fw true) whySeq
  else s

/-- The sequence number of a record taken. -/
def takeSeq (s : State) : State := seqCheck (s.setFw { s.fw with nextSeq := s.fw.nextSeq + 1 })

/-- Whether Falornyr takes money events now: it runs, its epoch is open, nothing stops it and the notification queue has room (R444). -/
def State.takesMoney (s : State) : Bool :=
  s.fw.running && !s.fw.restart && s.fw.epochOpen && s.fw.stop.isEmpty && s.fw.notes.length < 65536 && s.fw.nextSeq < 2 ^ 34 - 1

/-- A message leaves Kiln end `k`, which keeps `rest`. -/
def takeArrival (s : State) (k : Nat) (rest : List Nat) : State := dropArrival (pumpAborts (s.setKEnd k { s.kEnd k with rx := rest })) k

/-- The payload of a money event's record (R389): the witness entry that it cites, the channel message, and the TXID that it undoes. -/
def eventPayload (wit : Option (Nat × List Byte)) (toks : List Nat) (undone : Option Nat) : List Byte :=
  (match wit with | some (_, e) => item 1 e | none => []) ++ item 2 (toks.flatMap (leBytes 2)) ++ (match undone with | some t => item 5 (leBytes 8 t) | none => [])

/-- Its flags (Table 19-2). -/
def State.eventFlags (s : State) (wit : Option (Nat × List Byte)) (undone : Option Nat) : Nat :=
  (match wit with | some (h, _) => 2 * h | none => 1) + cond s.isBench 8 0 + cond undone.isSome 32 0

/-- A money event of Kiln end `k` (R15 to R18): its first message, closed by its END token and the first to have reached Kiln of those that wait, becomes a
record that is submitted. The event's type, amount, currency and time, and the TXID that a reversal undoes, are what the message carries; its layout is
Falornyr's own. A message closed by CT_ABORT is discarded. -/
def moneyEvent (s : State) (k type : Nat) (amount : Int) (currency time : Nat) (undone : Option Nat) : State :=
  match firstMessage (s.kEnd k).rx, s.kind.arrived with
  | some (toks, m, rest), a :: _ =>
    if a.kend != k then s
    else if m == ctAbort then healthCount (takeArrival s k rest) 2 3
    else if !s.takesMoney then s
    else
      let s := takeArrival s k rest
      let wit := s.witnessFor a.head time
      let payload := eventPayload wit toks undone
      if !moneyTypes.contains type || 320 < payload.length then s
      else
        let digest := match wit with | some (_, e) => e.take 16 | none => List.replicate 16 0
        let r := recordOf s.nextTxid type (s.eventFlags wit undone) amount currency time (List.replicate 32 0) (sha256 payload) digest
        submitSeal (takeSeq s) r payload .event
  | _, _ => s

/-! ## Sending records (R397 to R399) -/

/-- The next tag, for an attempt (R397). -/
def nextTag (s : State) (attempt : Nat) : State × Nat :=
  let c := s.fw.tagCtr + 1
  (s.setFw { s.fw with tagCtr := c }, c % 2 ^ 24 * 256 + attempt % 256)

/-- What of a record's payload a floor frame carries (R389; assumption 123). -/
def floorPayload (payload : List Byte) : List Byte := payload.take 320

/-- A pending entry sent to the active Keeper. -/
def sendRecord (s : State) (p : Pend) : State :=
  match s.fw.active with
  | some k => if k == s.fw.node then s else sendMessage s k 1 (leBytes 4 p.tag ++ p.entry ++ floorPayload p.payload)
  | none => s

/-- A REPLICA to every standby in sync (R416): the frames to wait for. -/
def replicate (s : State) (entry payload : List Byte) : State × List (Nat × Nat) :=
  s.fw.inSync.foldl (fun (r : State × List (Nat × Nat)) n =>
    let (s, id) := sendBody r.1 n (message 5 (entry ++ floorPayload payload))
    (s, r.2 ++ [(n, id)])) (s, [])

/-! ## Ledger commands of Falornyr's own (R353, R355, R400, R402, R417) -/

/-- A ledger command that Falornyr issues: its op and context, its words from 1 on, the bytes that it works on, and what it is for. -/
def fwAsk (s : State) (op ctx : Nat) (words : List Nat) (own : List Byte) (what : AskFor) : State :=
  let t := s.ownTag
  let s := takeTag s
  enterOwn (s.setFw { s.fw with asks := s.fw.asks ++ [⟨t, what⟩] }) op ctx t words (some own)

/-- The position of the command that entered the island last. -/
def State.lastCmd (s : State) : Nat := s.led.cmds.length - 1

/-- The command that entered last runs at once, where its turn has come. -/
def runLast (s : State) (op : Nat) (f : State → LCmd → LRes) : State := ledgerRun s s.lastCmd op f

/-- SEEN_INSERT of a TXID in the Keeper's context of a Dual node (R417). -/
def fwInsert (s : State) (txid : Nat) : State :=
  runLast (fwAsk s 6 1 [0, 0, 0, 0, 0, 0, 0, txid % 2 ^ 32, txid / 2 ^ 32] [] .seen) 6 opSeenInsert

/-- A record of this node's own passed to its Keeper side (R403, R417): a REPLICA to the standbys, its TXID inserted in the Keeper's context of
a Dual node, and a place in the next batch with tag 0. -/
def keeperOwn (s : State) (entry payload : List Byte) : State :=
  let txid := recTxid entry
  let s := if s.isDual then fwInsert s txid else s
  let (s, waits) := replicate s entry payload
  s.setFw { s.fw with batch := s.fw.batch ++ [⟨txid, 0, 0, s.fw.node, waits⟩] }

/-- Whether an own record already has its place in a batch: in the next, or in one that is being signed. -/
def State.inBatch (s : State) (txid : Nat) : Bool :=
  let has := fun (es : List BatchEnt) => es.any (fun e => e.txid == txid && e.node == s.fw.node && e.tag == 0)
  has s.fw.batch || s.fw.asks.any (fun a => match a.what with | .batch es _ => has es | _ => false)

/-- A pending record passed to this node's Keeper side, unless it is there already. -/
def passPend (s : State) (p : Pend) : State := if s.inBatch p.txid then s else keeperOwn s p.entry p.payload

/-- Every pending record passed to this node's Keeper side, which has become the active Keeper (R403, R417). -/
def passOwn (s : State) : State := s.fw.pend.foldl passPend s

/-- A record whose seal has completed (R19, R20, R397): SEALED is posted, and it goes to the floor. -/
def sealedRecord (s : State) (entry payload : List Byte) : State :=
  let s := postSealed s (recTxid entry)
  let (s, tag) := nextTag s 1
  let p : Pend := ⟨recTxid entry, tag, entry, payload, 0⟩
  let s := s.setFw { s.fw with pend := s.fw.pend ++ [p] }
  if s.isActive then keeperOwn s entry payload else sendRecord s p

/-- The Cord entry of journal sequence j, as memory holds it. -/
def State.cordEntry (s : State) (j : Nat) : List Byte :=
  match if s.cordCap == 0 then none else s.cordSlot (j % s.cordCap) with
  | some a => s.peekBytes a 192
  | none => []

/-! ## The acknowledged point (R399, R419) -/

/-- The acknowledged point P (R399): the lowest TXID sealed and not seen ACKED, whether it is pending or was REJECTED; it passes no record that waits for its
seal either. -/
def State.ackedPoint (s : State) : Nat :=
  (s.fw.pend.map (·.txid) ++ s.fw.rejects ++ (s.fw.jobs.filter (fun j => !j.dead)).map (fun j => recTxid j.record)).foldl min s.nextTxid

/-- P reported to the active Keeper (R419). -/
def sendPoint (s : State) : State :=
  match s.fw.active with
  | some k => if k == s.fw.node then s else sendMessage s k 4 (leBytes 8 s.ackedPoint)
  | none => s

/-- P reported, and written as the floor of this node in its own Seen table (R399). -/
def reportPoint (s : State) : State := floorWrite (sendPoint s) 0 s.fw.node (s.ackedPoint % 2 ^ 54)

/-! ## Completions -/

/-- A record of an earlier epoch that is not shown as ACKED, pending again and resent under a fresh tag (R399). -/
def resendOld (s : State) (e : List Byte × List Byte) : State :=
  let (s, tag) := nextTag s 1
  let p : Pend := ⟨recTxid e.1, tag, e.1, e.2, 0⟩
  let s := s.setFw { s.fw with pend := s.fw.pend ++ [p] }
  if s.isActive then keeperOwn s p.entry p.payload else sendRecord s p

/-- What a record that has been sealed brings about (R399, R405): its epoch is open, or the floor is written, and Falornyr notes when. -/
def sealFollows (s : State) (why : SealFor) : State :=
  match why with
  | .event => s
  | .epoch olds => reportPoint (olds.foldl resendOld (s.setFw { s.fw with epochOpen := true }))
  | .raise n p =>
    let s := floorWrite s s.keeperCtx n p
    s.setFw { s.fw with raised := (n, s.tb) :: s.fw.raised.filter (fun e => e.1 != n) }

/-- The job at the head, to be submitted again when what `status` names is over, or in 10 ms. -/
def holdSeal (s : State) (j : SealJob) (status : Nat) : State :=
  s.setFw { s.fw with jobs := { j with wait := some status, due := s.tb + 2500000 } :: s.fw.jobs }

/-- What Falornyr does with the completion of a job's SEAL, whose entry is given (R19, R20, R504). The job has left the queue. -/
def sealCompletion (s : State) (j : SealJob) (status : Nat) (entry : List Byte) : State :=
  if status == stOk then submitNext (sealFollows (sealedRecord (goMoney s whySeal) entry j.payload) j.why)
  else
    let s := healthCount s 3 0
    if status == stMemFault || status == stNoEngine then
      if j.tries < 3 then submitNext (s.setFw { s.fw with jobs := { j with tries := j.tries + 1 } :: s.fw.jobs })
      else holdSeal (healthAlert (stopMoney s whySeal) 3 0) j status
    else if status == stCordFull then holdSeal (stopMoney s whySeal) j status
    else if status == stSeenFull then holdSeal (healthAlert (stopMoney (healthCount s 3 5) whySeal) 3 0) j status
    else submitNext (holdSeal (healthAlert (stopMoney s whyDead) 3 0) j status)

/-! ## Acknowledgements (R398, R402) -/

/-- A pending entry settled by a status: ACKED for 0 to 2, REJECTED for 3. -/
def settlePend (s : State) (txid status : Nat) : State :=
  let before := s.ackedPoint
  let s := s.setFw { s.fw with pend := s.fw.pend.filter (fun p => p.txid != txid) }
  let others := s.fw.rejects.filter (· != txid)
  let s := s.setFw { s.fw with rejects := if status == 3 then others ++ [txid] else others }
  let s := if status == 3 then healthCount (postRejected s txid) 5 3 else postAcked (if status == 0 then s else healthCount s 5 1) txid
  if s.ackedPoint == before then s else reportPoint s

/-- A body entry of 16 bytes. -/
def bodyEntry (b : List Byte) (i : Nat) : Nat × Nat × Nat :=
  let e := (b.drop (16 * i)).take 16
  (leOf (e.take 8), leOf ((e.drop 8).take 4), leOf ((e.drop 12).take 1))

/-- A body entry of this node acted on (R398): `own` says that this node built the batch. -/
def ackEntry (s : State) (own : Bool) (e : Nat × Nat × Nat) : State :=
  let (txid, tag, status) := e
  match s.fw.pend.find? (fun p => p.txid == txid) with
  | none => healthCount s 5 2
  | some p => if tag == p.tag || (tag == 0 && own) then settlePend s txid status else healthCount s 5 2

/-- The entries of a verified batch that name this node act: `own` says that this node built it. -/
def ackBody (s : State) (body : List Byte) : State :=
  (List.range (body.length / 16)).foldl (fun s i =>
    let e := bodyEntry body i
    if e.1 / 2 ^ 54 == s.fw.node then ackEntry s false e else s) s

/-- The body of a batch as far as its parts cover it from offset 0 without gaps, in whatever order they came (R420): `k` bounds the parts. -/
def bodyOf (parts : List (Nat × List Byte)) : Nat → List Byte → List Byte
  | 0, b => b
  | k + 1, b =>
    match parts.find? (fun p => p.1 ≤ b.length && b.length < p.1 + p.2.length) with
    | some p => bodyOf parts k (b ++ p.2.drop (b.length - p.1))
    | none => b
def Asm.body (a : Asm) : List Byte := bodyOf a.parts a.parts.length []

/-- The whole of a batch: its record, its seal and its body, once the head and every part are there. -/
def Asm.whole (a : Asm) : Option (List Byte × List Byte × List Byte) :=
  match a.head with
  | some (len, r, sig) => if a.body.length < len then none else some (r, sig, a.body.take len)
  | none => none

/-- Whether a batch passes the first two steps of R402, and comes from a Keeper of the floor table. -/
def State.batchOk (s : State) (peer : Nat) (r body : List Byte) : Bool :=
  let n := body.length / 16
  s.fw.keepers.any (fun e => e.1 == peer) && s.engineOn 7 && body.length % 16 == 0 && recType r == 0x0401 && recTxid r == 0 &&
    leOf ((r.drop 14).take 8) == n && (List.range n).all (fun i => (bodyEntry body i).2.2 ≤ 3 && ((body.drop (16 * i + 13)).take 3).all (· == 0)) &&
    (r.drop 64).take 32 == sha256 body

/-- VERIFY of a batch record's seal with a = the Keeper's node (R402). -/
def askVerify (s : State) (peer : Nat) (r sig body : List Byte) : State :=
  let e := (s.peer peer).getD (List.replicate 128 0)
  let m := sealMessage (e.take 64) r
  let m := if peerAlg e == 1 then m else sha256 m
  runLast (fwAsk s 1 0 [peer * 2 ^ 16 + peerAlg e % 2, 0, m.length, 0, 0, 0, 64] (m ++ sig) (.verify body)) 1 opVerify

/-- No acknowledgement covers a TXID by its deadline (R398): it is resent under a new tag; the eighth resend alerts (R501). -/
def transactionTimeout (s : State) (txid : Nat) : State :=
  match s.fw.pend.find? (fun p => p.txid == txid) with
  | none => s
  | some p =>
    let (s, tag) := nextTag s (p.resends + 2)
    let q := { p with tag := tag, resends := p.resends + 1 }
    let s := s.setFw { s.fw with pend := s.fw.pend.map (fun x => if x.txid == txid then q else x) }
    let s := healthCount s 5 0
    let s := if q.resends == 8 then healthAlert s 5 0 else s
    if s.isActive then passPend s q else sendRecord s q

/-- Every pending record resent under a new tag (R399, R418). -/
def resendAll (s : State) : State :=
  (s.fw.pend.map (·.txid)).foldl (fun s t =>
    match s.fw.pend.find? (fun p => p.txid == t) with
    | none => s
    | some p =>
      let (s, tag) := nextTag s (p.resends + 2)
      let q := { p with tag := tag, resends := p.resends + 1 }
      sendRecord (s.setFw { s.fw with pend := s.fw.pend.map (fun x => if x.txid == t then q else x) }) q) s

/-! ## The Keeper (R400 to R405) -/

/-- The batch status of an ADMIT status (Table 19-4). -/
def batchStatus (st : Nat) : Option Nat :=
  if st == stOk then some 0 else if st == stDup then some 1 else if st == stStale then some 2
  else if st == stSigBad || st == stNodeMismatch then some 3 else none

/-- Whether a batch entry may be acknowledged: every standby in sync covers the frame that carried it (R416). -/
def State.batchReady (s : State) (e : BatchEnt) : Bool := e.waits.all (fun w => !(s.fw.inSync.contains w.1 && s.uncovered w.1 w.2))

/-- The bytes of a batch entry (R401). -/
def batchBytes (e : BatchEnt) : List Byte := leBytes 8 e.txid ++ leBytes 4 e.tag ++ leBytes 1 e.status ++ [0, 0, 0]

/-- A batch sent to a node (R420): one BATCH_HEAD, then the body in parts of at most 1,024 bytes. -/
def sendBatch (s : State) (n id : Nat) (entry body : List Byte) : State :=
  let s := sendMessage s n 2 (leBytes 4 id ++ leBytes 2 body.length ++ [0, 0] ++ entry)
  (List.range ((body.length + 1023) / 1024)).foldl (fun s i =>
    sendMessage s n 3 (leBytes 4 id ++ leBytes 2 (1024 * i) ++ (body.drop (1024 * i)).take 1024)) s

/-- The distinct nodes of batch entries other than this one. -/
def State.batchNodes (s : State) (es : List BatchEnt) : List Nat := ((es.map (·.node)).eraseDups).filter (· != s.fw.node)

/-- A batch has been signed and journalled (R401, R403): it is sent, and the own records in it are ACKED. -/
def batchSigned (s : State) (es : List BatchEnt) (entry body : List Byte) : State :=
  let id := s.fw.batchId
  let s := s.setFw { s.fw with batchId := id + 1 }
  let s := (s.batchNodes es).foldl (fun s n => sendBatch s n id entry body) s
  (es.filter (fun e => e.node == s.fw.node && e.tag == 0)).foldl (fun s e => ackEntry s true (e.txid, e.tag, e.status)) s

/-- An ADMIT of a RECORD has completed (R400): the entry for the next batch. -/
def admitted (s : State) (node tag st : Nat) (entry payload : List Byte) : State :=
  match if s.isActive then batchStatus st else none with
  | none => s
  | some b =>
    let (s, waits) := if b == 0 then replicate s entry payload else (s, [])
    s.setFw { s.fw with batch := s.fw.batch ++ [⟨recTxid entry, tag, b, node, waits⟩] }

/-! ## Completions -/

/-- What Falornyr does with the completion of a command that it asked for: a batch that was not signed keeps its entries for the next. -/
def askCompletion (s : State) (what : AskFor) (st : Nat) (entry : List Byte) : State :=
  match what with
  | .record node tag e payload => admitted s node tag st e payload
  | .replica | .seen => s
  | .batch es body => if st == stOk then batchSigned s es entry body else s.setFw { s.fw with batch := es ++ s.fw.batch }
  | .verify body => if st == stOk then ackBody s body else healthCount s 5 4

/-- What Falornyr does with the completion of a command of its own (R503): `val` is the journal sequence of one that committed. -/
def ownCompletion (s : State) (tag st val : Nat) : State :=
  match s.fw.jobs.find? (fun j => j.tag == tag), s.fw.asks.find? (fun a => a.tag == tag) with
  | some j, _ => sealCompletion (s.setFw { s.fw with jobs := s.fw.jobs.filter (fun i => i.tag != tag) }) j st (s.cordEntry val)
  | none, some a => askCompletion (s.setFw { s.fw with asks := s.fw.asks.filter (fun b => b.tag != tag) }) a.what st (s.cordEntry val)
  | none, none => healthCount s 3 7

/-- Falornyr takes the entry of index `i` from the completion ring, where it is the oldest there. -/
def takeEntry (s : State) (i : Nat) : State := if s.fld LEDGER_CQ_HEAD LEDGER_CQ_HEAD_index == i then cqHeadWrite s (i + 1) else s

/-- The command at position `k` completes. Falornyr acts on a completion of a command of its own, at once or when it serves again (R20); any other is for Kiln. -/
def ledgerCompletion (s : State) (k : Nat) : State :=
  if !s.mayComplete k then s
  else match s.ledCmd k with
    | none => s
    | some c =>
      let i := s.fld LEDGER_CQ_TAIL LEDGER_CQ_TAIL_index
      let (st, _, val) := c.res.getD (0, 0, none)
      let s := ledgerComplete s k
      if c.own.isNone then s
      else if s.fwServes then ownCompletion (takeEntry s i) c.tag st (val.getD 0)
      else s.setFw { s.fw with ended := s.fw.ended ++ [(c.tag, i, st, val.getD 0)] }

/-- Falornyr acts on the completions that came while it did not serve, in their order: `k` bounds them. -/
def catchUp (s : State) : Nat → State
  | 0 => s
  | k + 1 =>
    match s.fw.ended with
    | [] => s
    | (tag, i, st, val) :: rest => catchUp (ownCompletion (takeEntry (s.setFw { s.fw with ended := rest }) i) tag st val) k

/-- The completion of the command that entered last, where it has ended. -/
def completeLast (s : State) : State := ledgerCompletion s s.lastCmd

/-! ## What a node does -/

/-- A complete batch from a peer (R402): discarded and counted where it fails, else verified; its entries of this node act when the VERIFY has completed. -/
def batchAckVerify (s : State) (peer id : Nat) : State :=
  match s.fw.asms.find? (fun a => a.peer == peer && a.id == id) with
  | none => s
  | some a =>
    match a.whole with
    | none => s
    | some (r, sig, body) =>
      let s := s.setFw { s.fw with asms := s.fw.asms.filter (fun b => !(b.peer == peer && b.id == id)) }
      if s.batchOk peer r body then completeLast (askVerify s peer r sig body) else healthCount s 5 4

/-- An ADMIT of Falornyr's own in the Keeper's context, run at once where its turn has come (R366, R400, R416). -/
def askAdmit (s : State) (node : Nat) (entry : List Byte) (what : AskFor) : State :=
  let s := fwAsk s 3 s.keeperCtx [node * 2 ^ 16, 0, 128, 0, 0, 0, 64] (entry.take 192) what
  completeLast (ledgerAdmit s s.lastCmd)

/-- Whether the Keeper side admits: the epoch is open, and its Seen table has been rebuilt since the reset (R394, R404). -/
def State.admits (s : State) : Bool := s.fw.epochOpen && s.fw.rebuilt

/-- A RECORD message (R22, R400): the active Keeper issues ADMIT for it. -/
def recordMessage (s : State) : State :=
  match takeMessage s 1 with
  | none => s
  | some (s, n, v) =>
    if !s.isActive || !s.admits || v.length < 196 then s
    else
      let entry := (v.drop 4).take 192
      askAdmit s n entry (.record n (leOf (v.take 4)) entry (v.drop 196))

/-- A Keeper's batch closes (R401): a BATCH of the entries that may be acknowledged, at most 256. -/
def batchClose (s : State) : State :=
  let es := (s.fw.batch.filter s.batchReady).take 256
  if !s.isActive || es.isEmpty then s
  else
    let body := es.flatMap batchBytes
    let s := s.setFw { s.fw with batch := s.fw.batch.filter (fun e => !es.contains e) }
    completeLast (runLast (fwAsk s 4 0 [0, 0, body.length, 0, 64] body (.batch es body)) 4 opBatch)

/-- The batch of a peer and an id that is being assembled. -/
def State.asm (s : State) (n id : Nat) : Asm := (s.fw.asms.find? (fun a => a.peer == n && a.id == id)).getD ⟨n, id, none, []⟩

/-- The state with a batch being assembled. -/
def setAsm (s : State) (a : Asm) : State := s.setFw { s.fw with asms := s.fw.asms.filter (fun b => !(b.peer == a.peer && b.id == a.id)) ++ [a] }

/-- A BATCH_HEAD message (R420). -/
def batchHead (s : State) : State :=
  match takeMessage s 2 with
  | none => s
  | some (s, n, v) =>
    if v.length < 200 then s
    else setAsm s { s.asm n (leOf (v.take 4)) with head := some (leOf ((v.drop 4).take 2), (v.drop 8).take 128, (v.drop 136).take 64) }

/-- A BATCH_PART message, which may come ahead of its head and of other parts. -/
def batchPart (s : State) : State :=
  match takeMessage s 3 with
  | none => s
  | some (s, n, v) =>
    let a := s.asm n (leOf (v.take 4))
    setAsm s { a with parts := a.parts ++ [(leOf ((v.drop 4).take 2), v.drop 6)] }

/-- A batch not completed within 10 ms is discarded and counted (R420). -/
def batchTimeout (s : State) (n id : Nat) : State :=
  if s.fw.asms.any (fun a => a.peer == n && a.id == id && a.whole.isNone) then
    healthCount (s.setFw { s.fw with asms := s.fw.asms.filter (fun a => !(a.peer == n && a.id == id)) }) 5 4
  else s

/-- The SEAL that entered last runs and completes at once where its turn has come, and again where it was submitted again: `n` bounds that. -/
def sealNow (s : State) : Nat → State
  | 0 => s
  | n + 1 =>
    if (s.ledCmd s.lastCmd).any (fun c => c.own.isSome && c.op == 2) then sealNow (completeLast (runLast s 2 opSeal)) n else s

/-- A record of this node's own of class 0x03 (R394, R403, R405), sealed at once where nothing in the island or in the queue comes before it. -/
def sealOwn (s : State) (type : Nat) (prev payload : List Byte) (why : SealFor) : State :=
  let r := recordOf s.nextTxid type (1 + cond s.isBench 8 0) 0 0 s.tb prev (sha256 payload) (List.replicate 16 0)
  sealNow (submitSeal (takeSeq s) r payload why) 4

/-- Whether a node's floor was raised within the last second, or a record that is to raise it waits for its seal (R405). -/
def State.raisedNow (s : State) (n : Nat) : Bool :=
  s.fw.raised.any (fun e => e.1 == n && s.tb < e.2 + 250000000) ||
    s.fw.jobs.any (fun j => !j.dead && (match j.why with | .raise m _ => m == n | _ => false))

/-- A POINT message (R405): the Keeper seals a floor-raised record, whose commit the write of the node's floor follows; at most once per second and node. -/
def pointMessage (s : State) : State :=
  match takeMessage s 4 with
  | none => s
  | some (s, n, v) =>
    let p := leOf (v.take 8)
    if !s.isActive || !s.fw.epochOpen || 2 ^ 34 - 1 ≤ s.fw.nextSeq || p / 2 ^ 54 != n || p % 2 ^ 54 ≤ s.floorOf s.keeperCtx n || s.raisedNow n then s
    else sealOwn s 0x0302 (List.replicate 32 0) (item 4 (leBytes 2 n ++ leBytes 4 (p / 2 ^ 34 % 2 ^ 20) ++ leBytes 8 (p % 2 ^ 34))) (.raise n (p % 2 ^ 54))

/-! ## Standbys (R416 to R418) -/

/-- A REPLICA message: admitted by a standby; one of its own node's records is inserted in the Keeper's context (R417). It waits until the Keeper side admits. -/
def replicaMessage (s : State) : State :=
  match takeMessage s 5 with
  | none => s
  | some (t, _, v) =>
    if !s.keeper || v.length < 192 then t
    else if !s.admits then s
    else
      let txid := recTxid v
      if txid / 2 ^ 54 == s.fw.node then (if s.isDual then fwInsert t txid else t)
      else askAdmit t (txid / 2 ^ 54) (v.take 192) .replica

/-- A TAKEOVER message (R418). -/
def takeoverMessage (s : State) : State :=
  match takeMessage s 6 with
  | none => s
  | some (s, n, v) =>
    let term := leOf (v.take 4)
    if term ≤ s.fw.term then s
    else if s.fw.keepers.any (fun e => e.1 == s.fw.node) then
      s.setFw { s.fw with term := term, active := some n, synced := false, inSync := [] }
    else
      let down := match s.fw.active with
        | some k => !(s.fsess k).up0 && !(s.fsess k).up1
        | none => true
      if down then resendAll (s.setFw { s.fw with term := term, active := some n }) else s

/-- An in-sync standby has accepted no frame from the active Keeper for 40 ms (R418): it takes over, and a Dual node passes its own pending
records to its Keeper side (R417). -/
def keeperSilence (s : State) : State :=
  if !s.keeper || !s.fw.synced || s.isActive || !s.fw.keepers.any (fun e => e.1 == s.fw.node) then s
  else
    let s := s.setFw { s.fw with term := s.fw.term + 1, active := some s.fw.node, inSync := [] }
    let s := healthAlert (healthCount s 4 2) 4 2
    let s := (s.led.peers.map (·.1)).foldl (fun s n => sendMessage s n 6 (leBytes 4 s.fw.term ++ leBytes 1 s.fw.rank ++ [0, 0, 0])) s
    passOwn s

end Sys2Proof.Machine
end

