-- ==== Sys2Proof/Machine/FwPtp.lean ====
section
/-! DEFINITION. Falornyr's IEEE 1588 ordinary clock (R422): the messages of a two-step clock with the end-to-end delay mechanism over Ethernet, as master and as
slave. The message layouts are those of IEEE 1588-2008, which the manual names without its fields (assumption 125). -/

namespace Sys2Proof.Machine

/-! ## Messages -/

/-- The message types. -/
def ptpSync : Nat := 0
def ptpDelayReq : Nat := 1
def ptpFollowUp : Nat := 8
def ptpDelayResp : Nat := 9
def ptpAnnounce : Nat := 11

/-- The fields of a message `m`, which begins behind the EtherType. -/
def ptpType (m : List Byte) : Nat := (m.getD 0 0).toNat % 16
def ptpVersion (m : List Byte) : Nat := (m.getD 1 0).toNat % 16
def ptpDomain (m : List Byte) : Nat := (m.getD 4 0).toNat
def ptpCorrection (m : List Byte) : Int := signed 64 (beOf ((m.drop 8).take 8)) / 65536
def ptpSource (m : List Byte) : List Byte := (m.drop 20).take 10
def ptpSeq (m : List Byte) : Nat := beOf ((m.drop 30).take 2)
/-- A timestamp of ten bytes, in ns: 48 bits of seconds and 32 of nanoseconds. -/
def ptpTime (b : List Byte) : Nat := beOf (b.take 6) * 1000000000 + beOf ((b.drop 6).take 4)
def ptpStamp (m : List Byte) : Nat := ptpTime ((m.drop 34).take 10)
/-- The rank of the clock that an Announce names: its priority1, and then its identity; the lower one is the better. -/
def ptpRank (m : List Byte) : Nat := (m.getD 47 0).toNat * 2 ^ 64 + beOf ((m.drop 53).take 8)

/-- Timebase units in ns. -/
def nsOf (t : Nat) : Nat := 4 * t

/-- A time as ten bytes. -/
def timeBytes (t : Nat) : List Byte := beBytes 6 (t / 1000000000) ++ beBytes 4 (t % 1000000000)

/-- This node's clock identity, from the station address of port 0, and the identity of its port `p`. -/
def State.clockId (s : State) : List Byte := (s.ownMac 0).take 3 ++ [0xFF, 0xFE] ++ (s.ownMac 0).drop 3
def State.portId (s : State) (p : Nat) : List Byte := s.clockId ++ beBytes 2 (p + 1)

/-- The rank of this node's own clock. -/
def State.ownRank (s : State) : Nat := s.fw.ptp.2.1 * 2 ^ 64 + beOf s.clockId

/-- A message of this node, from port `p`. -/
def ptpOf (s : State) (p type seq : Nat) (body : List Byte) : List Byte :=
  [BitVec.ofNat 8 type, 2] ++ beBytes 2 (34 + body.length) ++ beBytes 1 s.fw.ptp.1 ++ [0] ++ [if type == ptpSync then 2 else 0, 0] ++ List.replicate 12 0 ++ s.portId p ++
    beBytes 2 seq ++ [if type == ptpSync then 0 else if type == ptpDelayReq then 1 else if type == ptpFollowUp then 2 else if type == ptpDelayResp then 3 else 5, 0] ++ body

/-- A message sent on port `p`; an event message asks for its transmit timestamp. A frame of at least 60 bytes leaves. -/
def ptpSend (s : State) (p : Nat) (m : List Byte) : State :=
  if s.linkUp p then sendOut s p (ptpType m ≤ 1) ptpMac 0x88F7 (m ++ List.replicate (46 - m.length) 0) else s

/-! ## The clock -/

/-- The state with the clock replaced. -/
def State.setClock (s : State) (c : PtpClock) : State := s.setFw { s.fw with clock := c }

/-- The transmit timestamp of port `p` for a sequenceId, in ns, which Falornyr takes (R422). -/
def takeStamp (s : State) (p seq : Nat) : Option (State × Nat) :=
  if s.bit (FLOOR_TXTS_ID p) FLOOR_TXTS_ID_valid && s.fld (FLOOR_TXTS_ID p) FLOOR_TXTS_ID_seq_id == seq % 65536 then
    some (s.setBit (FLOOR_TXTS_ID p) FLOOR_TXTS_ID_valid false, nsOf (smGet (fun _ => 0) s.txts p))
  else none

/-- An Announce: the better clock than this node's and than its master's is the master. -/
def ptpHears (s : State) (p : Nat) (m : List Byte) : State :=
  let c := s.fw.clock
  let r := ptpRank m
  let better := match c.master with | some (_, id, r') => r < r' || id == ptpSource m | none => true
  if r < s.ownRank && better then s.setClock { c with master := some (p, ptpSource m, r) } else s

/-- Whether a message is the master's, heard on the port where it is. -/
def State.fromMaster (s : State) (p : Nat) (m : List Byte) : Bool := match s.fw.clock.master with | some (q, id, _) => q == p && id == ptpSource m | none => false

/-- The offset of this clock from its master's, in ns, from the times of an exchange: Sync sent and received, Delay_Req sent and received. -/
def ptpOffset (t1 t2 t3 t4 : Int) : Int := ((t2 - t1) - (t4 - t3)) / 2

/-- An exchange has measured an offset: the rate that the servo sets, within its bounds, and whether it is locked, are free (R422, R508). -/
def ptpServo (s : State) (offset : Int) : State :=
  let (w, s) := s.draw
  let s := s.setReg TB_ADJ (BitVec.ofInt 32 ((Config.ptpRate offset w % 400001 : Nat) - 200000 : Int))
  let s := s.setFw { s.fw with ptpLock := Config.ptpLocked offset w }
  if s.fw.ptpLock && s.bit CLK_OSC_STAT CLK_OSC_STAT_xa_stable && s.bit (CLK_PLL_CTRL 0) CLK_PLL_CTRL_locked then goMoney s whyClock else s

/-- A Follow_Up of the Sync heard gives the time at which it was sent; a Delay_Req follows. -/
def ptpFollows (s : State) (p : Nat) (m : List Byte) : State :=
  let c := s.fw.clock
  if c.sync != ptpSeq m || c.t2.isNone then s
  else
    let t1 := ((ptpStamp m : Int) + ptpCorrection m).toNat
    let s := s.setClock { c with t1 := some t1, t3 := none, req := c.next, next := c.next + 1 }
    ptpSend s p (ptpOf s p ptpDelayReq c.next (timeBytes 0))

/-- A Delay_Resp to this node's Delay_Req, whose own time of sending its port has captured, completes the exchange. -/
def ptpReplied (s : State) (p : Nat) (m : List Byte) : State :=
  let c := s.fw.clock
  if (m.drop 44).take 10 != s.portId p || ptpSeq m != c.req % 65536 || c.t1.isNone then s
  else match takeStamp s p c.req with
    | none => s
    | some (s, t3) =>
      ptpServo (s.setClock { c with t3 := some t3 }) (ptpOffset (c.t1.getD 0) (c.t2.getD 0) t3 ((ptpStamp m : Int) - ptpCorrection m))

/-- Falornyr handles a message that came on port `p` at a timestamp. Peer delay and transparent-clock messages are not supported. -/
def ptpHandle (s : State) (p : Nat) (m : List Byte) (ts : Nat) : State :=
  let t := ptpType m
  if ptpVersion m != 2 || ptpDomain m != s.fw.ptp.1 || ptpSource m == s.portId p then s
  else if t == ptpAnnounce then ptpHears s p m
  else if t == ptpDelayReq then
    if s.fw.clock.master.isSome then s else ptpSend s p (ptpOf s p ptpDelayResp (ptpSeq m) (timeBytes (nsOf ts) ++ ptpSource m))
  else if !s.fromMaster p m then s
  else if t == ptpSync then s.setClock { s.fw.clock with sync := ptpSeq m, t2 := some (nsOf ts), t1 := none }
  else if t == ptpFollowUp then ptpFollows s p m
  else if t == ptpDelayResp then ptpReplied s p m
  else s

/-- The Follow_Up on port `p` of the Sync with a sequenceId, once its time of sending has been captured. -/
def ptpFollow (s : State) (p seq : Nat) : State :=
  match takeStamp s p seq with
  | some (s, t) => ptpSend s p (ptpOf s p ptpFollowUp seq (timeBytes t))
  | none => s

/-- An Announce and a Sync on port `p`. -/
def ptpAnnounces (s : State) (p seq : Nat) : State :=
  let body := timeBytes 0 ++ [0, 0, 0] ++ beBytes 1 s.fw.ptp.2.1 ++ [248, 0xFE, 0xFF, 0xFF] ++ [128] ++ s.clockId ++ [0, 0, 0xA0]
  let s := ptpSend s p (ptpOf s p ptpAnnounce seq body)
  ptpSend s p (ptpOf s p ptpSync seq (timeBytes 0))

/-- A master's own messages: the Follow_Ups of the last Syncs whose times of sending have been captured, and where none has been, an Announce and the next Sync
on each port. -/
def ptpOwn (s : State) : State :=
  let c := s.fw.clock
  let q := c.next - 1
  if c.master.isSome then s
  else if (takeStamp s 0 q).isSome || (takeStamp s 1 q).isSome then ptpFollow (ptpFollow s 0 q) 1 q
  else ptpAnnounces (ptpAnnounces (s.setClock { c with next := c.next + 1 }) 0 c.next) 1 c.next

/-- The message in the next receive descriptor of port `p` is handled; `other` is the work where that holds none. -/
def withPtp (s : State) (p : Nat) (other : State → State) : State :=
  match rxFrame s p with
  | (t, some (f, ts)) => if etherType f == 0x88F7 then ptpHandle (rxBack t p) p (etherPart f) ts else other t
  | (t, none) => other t

/-- Falornyr's work as an ordinary clock, while FLOOR_PTP enables it: the message that port 0 has next, else the one that port 1 has next, else what is due of
its own. -/
def ptpMessage (s : State) : State := if !s.fw.ptp.2.2 then s else withPtp s 0 fun s => withPtp s 1 ptpOwn

end Sys2Proof.Machine
end

