-- ==== Sys2Proof/Machine/Clocks.lean ====
section
/-! DEFINITION. Clocks (chapter 23): oscillators, PLLs, roots, ceilings, the FRC trim and the frequency counter. -/

namespace Sys2Proof.Machine

/-! ## Fused values and ceilings (R449, R477, R478) -/

/-- Bits `[hi:lo]` of the fuse words that the last passing load gave. -/
def State.fuse (s : State) (hi lo : Nat) : Nat :=
  let n := (List.range (hi / 32 + 1 - lo / 32)).foldl (fun n i => n + (smGet (fun _ => 0#32) s.ember.fused (lo / 32 + i)).toNat * 2 ^ (32 * i)) 0
  n / 2 ^ (lo % 32) % 2 ^ (hi + 1 - lo)

/-- The rated maxima of the clocks of ceilings 0 to 5, in Hz: Kiln core, ledger, scene, memory PHY, Kindling and audio (Table 23-2). -/
def ratedHz : List Nat := [1200000000, 1000000000, 1000000000, 1066000000, 800000000, 98304000]

/-- The effective ceiling of clock `i`, in Hz. -/
def State.ceilingHz (s : State) (i : Nat) : Nat :=
  let v := s.fuse (2773 + 8 * i) (2766 + 8 * i)
  let r := ratedHz.getD i 0
  if v == 0 then r else min r (v * 25000000)

/-- The effective ceiling of the lane rate, in Mbit/s. -/
def State.ceilingLane (s : State) : Nat :=
  let v := s.fuse 2821 2814
  if v == 0 then 4500 else min 4500 (v * 25)

/-- The frequency of XTAL_A: its nominal 25 MHz (Table 23-1; DESIGN CHOICE, assumption 40). -/
def xtalHz : Nat := 25000000

/-- A VCO frequency in units of 2^-20 Hz. -/
def vcoHz (n frac : Nat) : Nat := xtalHz * (n * 1048576 + frac)

/-- Whether a VCO lies within 2.0 to 6.4 GHz. -/
def vcoOk (v : Nat) : Bool := 2000000000 * 1048576 ≤ v && v ≤ 6400000000 * 1048576

/-- Whether the outputs of PLL `k` with these settings lie within their ceilings (R478). -/
def State.pllWithin (s : State) (k v div kilnS ledgT : Nat) : Bool :=
  let under (i d : Nat) := v ≤ s.ceilingHz i * 1048576 * d
  match k with
  | 0 => under 0 (5 * 2 ^ kilnS) && under 1 (6 * 2 ^ ledgT)
  | 1 => under 2 div
  | 2 => under 3 div
  | 3 => under 4 div
  | 4 => under 5 div
  | _ => true

/-- The least Kiln divider and ledger divider that their ceilings permit at the reset settings (R478). -/
def State.leastS (s : State) : Nat := ((List.range 4).find? (fun d => vcoHz 240 0 ≤ s.ceilingHz 0 * 1048576 * (5 * 2 ^ d))).getD 3
def State.leastT (s : State) : Nat := ((List.range 4).find? (fun d => vcoHz 240 0 ≤ s.ceilingHz 1 * 1048576 * (6 * 2 ^ d))).getD 3

/-! ## Oscillators (R471, R472, R476) -/

/-- Whether some PLL is enabled. -/
def State.anyPll (s : State) : Bool := (List.range 9).any (fun k => s.bit (CLK_PLL_CTRL k) CLK_PLL_CTRL_enable)

/-- Crystal A (0) or B produces its stability count (R471). -/
def oscStable (s : State) (b : Nat) : State :=
  if b == 0 then
    if s.bit CLK_SRC CLK_SRC_xa_en then (s.setBit CLK_OSC_STAT CLK_OSC_STAT_xa_stable true).setBit CLK_OSC_STAT CLK_OSC_STAT_holdover false else s
  else if s.bit CLK_SRC CLK_SRC_xb_en then s.setBit CLK_OSC_STAT CLK_OSC_STAT_xb_stable true else s

/-- A stable crystal is lost (R472). -/
def oscLost (s : State) (b : Nat) : State :=
  if b == 0 then
    if s.bit CLK_OSC_STAT CLK_OSC_STAT_xa_stable then
      ((s.setBit CLK_OSC_STAT CLK_OSC_STAT_xa_stable false).setBit CLK_OSC_STAT CLK_OSC_STAT_xa_lost true).setBit CLK_OSC_STAT CLK_OSC_STAT_holdover s.anyPll
    else s
  else if s.bit CLK_OSC_STAT CLK_OSC_STAT_xb_stable then
    ((s.setBit CLK_OSC_STAT CLK_OSC_STAT_xb_stable false).setBit CLK_OSC_STAT CLK_OSC_STAT_xb_lost true).setBit CLK_SRC CLK_SRC_ember_cur false
  else s

/-- Whether a write of CLK_SRC would take away a clock in use (Table 23-3). -/
def State.srcRefused (s : State) (w : Word) : Bool :=
  (!bitOf w CLK_SRC_xa_en && s.anyPll) ||
  (bitOf w CLK_SRC_ember_sel && !s.bit CLK_OSC_STAT CLK_OSC_STAT_xb_stable) ||
  (!bitOf w CLK_SRC_xb_en && s.bit CLK_SRC CLK_SRC_ember_cur)

/-- A write of CLK_SRC (R476): an oscillator that it disables is no longer stable, and the Ember island takes the source selected. -/
def clkSrcWrite (s : State) (w : Word) : State :=
  if s.srcRefused w then s.setBit CLK_SRC CLK_SRC_refused true
  else
    let s := s.writeCodes CLK_SRC w
    let s := if s.bit CLK_SRC CLK_SRC_xa_en then s else s.setBit CLK_OSC_STAT CLK_OSC_STAT_xa_stable false
    let s := if s.bit CLK_SRC CLK_SRC_xb_en then s else s.setBit CLK_OSC_STAT CLK_OSC_STAT_xb_stable false
    s.setBit CLK_SRC CLK_SRC_ember_cur (s.bit CLK_SRC CLK_SRC_ember_sel && s.bit CLK_OSC_STAT CLK_OSC_STAT_xb_stable)

/-! ## PLLs (R473, R474, R476, R478, R479) -/

/-- The PLL that feeds island `i` of CLK_ROOT: fabric, scene, memory, Kindling, ledger, audio. -/
def rootPll (i : Nat) : Nat := [0, 1, 2, 3, 0, 4].getD i 0

/-- Whether a root selects PLL `k`. -/
def State.rootUses (s : State) (k : Nat) : Bool :=
  (List.range 6).any (fun i => rootPll i == k && ((s.fld CLK_ROOT CLK_ROOT_sel).testBit i || (s.fld CLK_ROOT CLK_ROOT_cur).testBit i))

/-- A refused write of PLL `k`, by a ceiling or not (R476, R478). -/
def pllRefuse (s : State) (k : Nat) (ceil : Bool) : State :=
  let s := s.setBit (CLK_PLL_CTRL k) CLK_PLL_CTRL_refused true
  if ceil then s.setBit (CLK_PLL_CTRL k) CLK_PLL_CTRL_ceil true else s

/-- Whether new settings of PLL `k` would take away a clock in use (Table 23-3). -/
def State.pllInUse (s : State) (k : Nat) (enable : Bool) (n frac div : Nat) : Bool :=
  let c := s.reg (CLK_PLL_CTRL k)
  let same := n == getF c CLK_PLL_CTRL_n && frac == s.fld (CLK_PLL_FRAC k) CLK_PLL_FRAC_frac
  if k == 0 then bitOf c CLK_PLL_CTRL_locked && !(same && enable == bitOf c CLK_PLL_CTRL_enable)
  else s.rootUses k && (!enable || !same || div != getF c CLK_PLL_CTRL_div)

/-- Settings of PLL `k` judged: none where they may be taken, or whether a ceiling refuses them. -/
def State.pllJudge (s : State) (k : Nat) (enable : Bool) (n frac div kilnS ledgT : Nat) : Option Bool :=
  if 5 ≤ k || s.pllInUse k enable n frac div || !vcoOk (vcoHz n frac) then some false
  else if s.pllWithin k (vcoHz n frac) (div + 1) kilnS ledgT then none else some true

/-- A write of CLK_PLL_k_CTRL (R476, R478). -/
def pllCtrlWrite (s : State) (k : Nat) (w : Word) : State :=
  let a := CLK_PLL_CTRL k
  match s.pllJudge k (bitOf w CLK_PLL_CTRL_enable) (getF w CLK_PLL_CTRL_n) (s.fld (CLK_PLL_FRAC k) CLK_PLL_FRAC_frac) (getF w CLK_PLL_CTRL_div)
      (getF w CLK_PLL_CTRL_s) (getF w CLK_PLL_CTRL_t) with
  | some ceil => pllRefuse s k ceil
  | none =>
    let s := s.writeCodes a w
    if s.bit a CLK_PLL_CTRL_enable then s else s.setBit a CLK_PLL_CTRL_locked false

/-- A write of CLK_PLL_k_FRAC. -/
def pllFracWrite (s : State) (k : Nat) (w : Word) : State :=
  let c := s.reg (CLK_PLL_CTRL k)
  match s.pllJudge k (bitOf c CLK_PLL_CTRL_enable) (getF c CLK_PLL_CTRL_n) (getF w CLK_PLL_FRAC_frac) (getF c CLK_PLL_CTRL_div)
      (getF c CLK_PLL_CTRL_s) (getF c CLK_PLL_CTRL_t) with
  | some ceil => pllRefuse s k ceil
  | none => s.writeCodes (CLK_PLL_FRAC k) w

/-- PLL `k` locks: it must be enabled, with XTAL_A stable (R471, R474). The timebase runs once PLL_FABRIC has locked. -/
def pllLocked (s : State) (k : Nat) : State :=
  if k < 9 && s.bit (CLK_PLL_CTRL k) CLK_PLL_CTRL_enable && s.bit CLK_OSC_STAT CLK_OSC_STAT_xa_stable then
    let s := s.setBit (CLK_PLL_CTRL k) CLK_PLL_CTRL_locked true
    if k == 0 then { s with ember := { s.ember with tbOn := true } } else s
  else s

/-- An enabled PLL loses lock (R482). -/
def pllUnlock (s : State) (k : Nat) : State :=
  if k < 9 && s.bit (CLK_PLL_CTRL k) CLK_PLL_CTRL_enable && s.bit (CLK_PLL_CTRL k) CLK_PLL_CTRL_locked then
    (s.setBit (CLK_PLL_CTRL k) CLK_PLL_CTRL_locked false).setFld CLK_EVT CLK_EVT_unlock (s.fld CLK_EVT CLK_EVT_unlock ||| 2 ^ k)
  else s

/-- The lane rate of a head within ceiling 6 (R479). -/
def State.laneRate (s : State) (n : Nat) : Nat := min (s.fld (HEAD_DPHY n) HEAD_DPHY_rate) s.ceilingLane

/-- The least divider from 1 to 64 that brings the VCO to 2.0 GHz or more (R479). -/
def laneDiv (rate : Nat) : Nat := ((List.range 64).find? (fun d => 4000 ≤ rate * (d + 1))).getD 63 + 1

/-- A starting head sets and enables its PLL (R479). A fraction that is not exact is rounded either way: free. -/
def headPll (s : State) (n : Nat) : State :=
  let k := 5 + n
  let rate := s.laneRate n
  let div := laneDiv rate
  let num := rate * div * 500000 * 1048576
  let (up, s) := s.draw
  let v := num / xtalHz + (if num % xtalHz == 0 then 0 else up.toNat % 2)
  let s := (s.setFld (CLK_PLL_FRAC k) CLK_PLL_FRAC_frac v).setFld (CLK_PLL_CTRL k) CLK_PLL_CTRL_n (v / 1048576)
  let s := (s.setFld (CLK_PLL_CTRL k) CLK_PLL_CTRL_div (div - 1)).setBit (CLK_PLL_CTRL k) CLK_PLL_CTRL_enable true
  if rate < s.fld (HEAD_DPHY n) HEAD_DPHY_rate then s.setBit (CLK_PLL_CTRL k) CLK_PLL_CTRL_ceil true else s

/-- The PLL of a head that has reached OFF is disabled (R479). -/
def headPllOff (s : State) (n : Nat) : State :=
  (s.setBit (CLK_PLL_CTRL (5 + n)) CLK_PLL_CTRL_enable false).setBit (CLK_PLL_CTRL (5 + n)) CLK_PLL_CTRL_locked false

/-! ## Roots (R475) -/

/-- A write of CLK_ROOT. `lost` names the PLLs that lose lock before the switch completes: such a root stays on FRC, with refused set. -/
def rootSwitch (s : State) (w lost : Word) : State :=
  let sel := getF w CLK_ROOT_sel
  let locked (k : Nat) := s.bit (CLK_PLL_CTRL k) CLK_PLL_CTRL_locked
  let fresh := (List.range 6).filter (fun i => sel.testBit i && !(s.fld CLK_ROOT CLK_ROOT_cur).testBit i)
  if fresh.any (fun i => !locked (rootPll i)) then s.setBit CLK_ROOT CLK_ROOT_refused true
  else
    let s := (List.range 9).foldl (fun s k => if lost.getLsbD k && fresh.any (fun i => rootPll i == k) then pllUnlock s k else s) s
    let bad := fresh.filter (fun i => lost.getLsbD (rootPll i))
    let kept := bad.foldl (fun v i => v - 2 ^ i) sel
    let s := ((s.writeCodes CLK_ROOT w).setFld CLK_ROOT CLK_ROOT_sel kept).setFld CLK_ROOT CLK_ROOT_cur kept
    if bad.isEmpty then s else s.setBit CLK_ROOT CLK_ROOT_refused true

/-! ## FRC trim and frequency counter (R480, R481) -/

/-- The signed trim code. -/
def State.trimCode (s : State) : Int := signed 8 (s.fld CLK_FRC_TRIM CLK_FRC_TRIM_code)

/-- A write of CLK_FRC_TRIM: FRC sets out for the new code; mixed where FRC is being measured. -/
def frcTrim (s : State) (w : Word) : State :=
  let s := s.writeCodes CLK_FRC_TRIM w
  let s := s.setBit CLK_FRC_TRIM CLK_FRC_TRIM_busy (s.ember.frc != s.trimCode)
  if s.bit CLK_MEAS CLK_MEAS_busy && s.fld CLK_MEAS CLK_MEAS_target == 0 then s.setBit CLK_MEAS CLK_MEAS_mixed true else s

/-- FRC moves one step toward its code. -/
def frcStep (s : State) : State :=
  let c := s.trimCode
  let t := if s.ember.frc < c then s.ember.frc + 1 else if c < s.ember.frc then s.ember.frc - 1 else c
  { s with ember := { s.ember with frc := t } }.setBit CLK_FRC_TRIM CLK_FRC_TRIM_busy (t != c)

/-- A write of CLK_MEAS: go starts a count, and is ignored while one runs. -/
def measWrite (s : State) (w : Word) : State :=
  let busy := s.bit CLK_MEAS CLK_MEAS_busy
  let s := s.writeCodes CLK_MEAS (if busy then setF w CLK_MEAS_go 0 else w)
  if s.bit CLK_MEAS CLK_MEAS_go && !busy then s.setBit CLK_MEAS CLK_MEAS_busy true else s

/-- The count window ends with `count` edges. -/
def measDone (s : State) (count : Word) : State :=
  if s.bit CLK_MEAS CLK_MEAS_busy then
    (((s.setReg CLK_MEAS_RES count).setBit CLK_MEAS CLK_MEAS_go false).setBit CLK_MEAS CLK_MEAS_busy false).setBit CLK_EVT CLK_EVT_meas_done true
  else s

/-! ## Register access -/

/-- A register write to the CLK block. -/
def clkWrite (s : State) (a : Nat) (w : Word) : State :=
  let off := a - CLK_PLL_CTRL 0
  if a == CLK_SRC then clkSrcWrite s w
  else if a == CLK_FRC_TRIM then frcTrim s w
  else if a == CLK_ROOT then rootSwitch s w 0
  else if a == CLK_MEAS then measWrite s w
  else if CLK_PLL_CTRL 0 ≤ a ∧ off < 0x90 ∧ off % 16 = 0 then pllCtrlWrite s (off / 16) w
  else if CLK_PLL_CTRL 0 ≤ a ∧ off < 0x90 ∧ off % 16 = 4 then pllFracWrite s (off / 16) w
  else s.writeCodes a w

end Sys2Proof.Machine
end

