-- ==== Sys2Proof/Machine/Blocks.lean ====
section
/-! DEFINITION. Blocks (chapter 2): starting, stopping and resetting them, and what each has besides its registers. -/

namespace Sys2Proof.Machine

/-! ## What belongs to a block (Table 2-6) -/

/-- Whether register `a` lies in block `n`. The program store of the translation engines, which the manual gives to all four, is reset with the first of
them (DESIGN CHOICE, assumption 80). -/
def blockReg (n a : Nat) : Bool :=
  let page (b : Nat) := a / 0x10000 == b
  if n == 0 then a == MEM_CSRAM_ECC
  else if 1 ≤ n && n < 7 then
    a == MEM_CH_CFG (n - 1) || a == MEM_TRAIN_STAT (n - 1) || a == MEM_ECC_CNT (n - 1) || a == MEM_PAR_CNT (n - 1)
  else if 9 ≤ n && n < 13 then page (0x4011 + (n - 9))
  else if n == 34 || n == 35 then FLOOR_CTRL (n - 34) ≤ a && a < FLOOR_CTRL (n - 34) + 0x100
  else if n == 14 then page 0x4018 || (page 0x4019 && a != KPORT_LOCK && !(KPORT_CFG 0 ≤ a && a % 16 == 12))
  else match n with
    | 7 => page 0x4010
    | 8 => page 0x400C
    | 13 => page 0x400B
    | 15 => page 0x400D
    | 28 => a / 0x4000 == LEDGER_XL_PROG 0 / 0x4000
    | 33 => (LEDGER_SEEN_BASE ≤ a && a ≤ LEDGER_CORD_CAP) || (LEDGER_SEEN_ALT_BASE ≤ a && a ≤ LEDGER_SEEN_ALT_SALT 3)
    | 36 => page 0x4022
    | 37 => page 0x4006
    | 38 => page 0x4008
    | 39 => DBG_TRACE_CTRL ≤ a && a ≤ DBG_TRACE_WR
    | _ => false

/-- Parts of a head that belong to the scene engine, which drops them (R39, R92). -/
def HeadSt.sceneReset (h : HeadSt) : HeadSt :=
  let i := HeadSt.init
  { h with
    lineOld := [], arrOld := [], held := [], ready := [], sprBase := i.sprBase, sprCount := i.sprCount, keys := [], evals := [],
    sprDirty := false, otc := [], otcLine := none,
    hits := [], hitLine := none, skipped := false, bandPal := [], scrollBeam := [], pix := [], palJob := none, beamBase := 0, beamLen := 0,
    pc := 0, cnt := i.cnt, target := 0, buf := [], skip := 0, wait := .none, drop := 0, bwr := none, refill := false }

/-- A head whose block has been reset keeps what is the scene engine's (R39, R166). -/
def HeadSt.blockReset (h : HeadSt) : HeadSt :=
  { HeadSt.init with
    held := h.held, ready := h.ready, sprBase := h.sprBase, sprCount := h.sprCount, keys := h.keys, sprDirty := h.sprDirty, palJob := h.palJob,
    beamBase := h.beamBase, beamLen := h.beamLen }

/-- A port as the start of the Kindling block sets it: off, unowned, of direct width, on the Kindling clock, with no condition, filter, delay or invert (R293).
Its timer goes on from where it stands. -/
def portStart (s : State) (n : Nat) : State :=
  let r := KPORT_CFG n
  let time := s.portTimer n
  let t := (((portOff s n).setFld r KPORT_CFG_width 0).setFld r KPORT_CFG_clock 8).setBit r KPORT_CFG_invert false
  setPortTimer ((t.setFld r KPORT_CFG_filt 0).setFld r KPORT_CFG_delay 0) n time

/-- Every port started where it is not as after a reset; every store of a thread has completed. -/
def kindlingPorts (s : State) : State :=
  (List.range 96).foldl (fun s n => if s.reg (KPORT_CFG n) == regReset (KPORT_CFG n) && s.kport n == Port.init then s else portStart s n)
    (landStores s (fun _ => true))

/-- What a port keeps through a reset: a guard trip holds its pin inactive until its owner next changes the value (R322). -/
def portsReset (s : State) : List (Nat × Port) := (s.ports.filter (·.2.inactive)).map (fun e => (e.1, { Port.init with inactive := true }))

/-- Kindling after its block is reset (R39). -/
def kindlingReset (s : State) : State :=
  let s := landStores s (fun _ => true)
  { s with ports := portsReset s, kind := { Kind.init with cyc := s.kind.cyc } }

/-- A Kiln end's open message, which no thread's state ends, keeps the destination that it holds. -/
def State.kilnInbound (s : State) : List (Nat × Inbound) :=
  (s.kind.into.filter (fun e => e.2.opened && e.2.holder.any (fun h => 128 ≤ h && s.routeOpen h e.1))).map (fun e => (e.1, { e.2 with waiters := [] }))

/-- Kindling after its block starts (R30, R265, R293): threads FREE, with no end or lock, and ports off and unowned. The Kiln ends keep their tokens and
counts, and the messages that wait for Kiln go on waiting. -/
def kindlingStart (s : State) : State :=
  let s := (kindlingPorts s).setReg KIND_FAULTED_LO 0
  let s := s.setReg KIND_FAULTED_HI 0
  let k := s.kind
  { s with kind := { Kind.init with cyc := k.cyc, clks := k.clks, kends := k.kends, into := s.kilnInbound, storeNum := k.storeNum, arrived := k.arrived } }

/-- A memory channel after its block is reset: its training has ended, and the write-backs that it had issued are discarded (R39). -/
def channelHidden (s : State) (k : Nat) : State :=
  let start := s.fld MEM_TRAIN_CTRL MEM_TRAIN_CTRL_start
  let s := if start.testBit k then s.setFld MEM_TRAIN_CTRL MEM_TRAIN_CTRL_start (start - 2 ^ k) else s
  { s with
    capture := s.capture.filter (fun e => e.1 / 64 != k), scrubPos := smErase s.scrubPos k,
    wb := s.wb.filter (fun e => !(aliasAddr k 0 ≤ e.1 && e.1 < aliasAddr (k + 1) 0)) }

/-- A floor port after its block is reset: its timestamp, its fallback and the place in its receive ring. -/
def floorHidden (s : State) (p : Nat) : State :=
  { s with txts := smErase s.txts p, trial := smErase s.trial p, fw := { s.fw with rxAt := smErase s.fw.rxAt p } }

/-- Everything besides registers that a reset of block `n` returns to its state at reset. -/
def blockHidden (s : State) (n : Nat) : State :=
  if n == 0 then s
  else if n < 7 then channelHidden s (n - 1)
  else if 9 ≤ n && n < 13 then
    let s := landPixelWrites s (n - 9)
    s.setHead (n - 9) (s.head (n - 9)).blockReset
  else if n < 34 && 16 ≤ n then
    if n < 28 then retortLost s (n - 16)
    else ledgerDispatch (unitFails (if n == 33 then s.setLed { s.led with victims := [], floors := [], floorLo := 0, tailLo := 0, seq := 0, tail := 0, chain := [] } else s) n)
  else match n with
    | 7 => (List.range 4).foldl (fun s k => s.setHead k (s.head k).sceneReset) { s with arr := [], vslot := [], pipeBands := [], vidBase := [], vidHeld := [] }
    | 8 => { s with blk := ⟨0, 0, none, .none⟩ }
    | 13 => { s with dma := [], dmaLast := [] }
    | 14 => kindlingReset s
    | 15 => { s with aud := AudSt.init, sp := [] }
    | 37 => { s with tmr := [] }
    | 38 => { s with adcTodo := [], adcHeld := false }
    | 34 => floorHidden s 0
    | 35 => floorHidden s 1
    | 39 => { s with trc := [], trcLost := 0 }
    | _ => s

/-- A block's registers and programs as after a reset of it (R39). -/
def blockClear (s : State) (n : Nat) : State := blockHidden (s.resetRegs (blockReg n)) n

/-! ## Idle (FAB_BLK_STAT_n.idle) -/

/-- Whether a block has no program or operation of its own under way. -/
def State.blockResting (s : State) (n : Nat) : Bool :=
  if 9 ≤ n && n < 13 then (s.head (n - 9)).pkt.isNone && (s.head (n - 9)).jobs.isEmpty
  else if 16 ≤ n && n < 32 then !s.engines.contains (n - 16)
  else match n with
    | 7 => (List.range 4).all (fun k => !s.bit (SCENE_BEAM_STAT k) SCENE_BEAM_STAT_running && (s.head k).palJob.isNone)
    | 8 => !s.bit BLK_STAT BLK_STAT_running
    | 13 => (List.range 16).all (fun k => s.fld (DMA_CH_STAT k) DMA_CH_STAT_state == 0)
    | 14 => (List.range 64).all (fun t => (s.thr t).state == .free || (s.thr t).state == .faulted)
    | 15 => s.aud.jobs.isEmpty && s.aud.voices.isEmpty
    | 32 | 33 => !s.led.cmds.any (fun c => c.runsOn n)
    | 34 => s.reg (FLOOR_TXQ_TAIL 0) == s.reg (FLOOR_TXQ_HEAD 0)
    | 35 => s.reg (FLOOR_TXQ_TAIL 1) == s.reg (FLOOR_TXQ_HEAD 1)
    | _ => true

/-! ## Transfers outstanding (R32, R36, R37) -/

/-- Whether a DMA channel has a burst outstanding that block `n` issued, or whose read its wrapper has passed. -/
def State.burstThrough (s : State) (n k : Nat) : Bool :=
  let c := s.dmaCh k
  c.burst.isSome && (n == 13 || (c.opened && c.via == some n))

/-- Whether Kiln has a load outstanding that the wrapper of block `n` has passed. -/
def State.loadThrough (s : State) (n : Nat) : Bool :=
  match s.kiln.load with
  | some l => l.opened && !l.failed && l.via == some n
  | none => false

/-- Whether no transfer from or to block `n` is outstanding. -/
def State.drained (s : State) (n : Nat) : Bool :=
  !(List.range 16).any (s.burstThrough n) && !s.loadThrough n && !s.led.cmds.any (fun c => c.runsOn n)

/-- Whether a block has no transfer outstanding and no program of its own running. -/
def State.blockIdle (s : State) (n : Nat) : Bool := s.drained n && s.blockResting n

/-- The wrapper of block `n` completes every outstanding transfer with an error response of a cause (R36, R37): a DMA channel stops with that error (R192),
and a load of Kiln takes its fault. -/
def failTransfers (s : State) (n cause : Nat) : State :=
  let s := (List.range 16).foldl (fun s k =>
    if s.burstThrough n k then dmaError (fabErr s 8 ((s.dmaCh k).via.getD 0x3F) cause (s.dmaFrom k)) k 1 else s) s
  match s.kiln.load with
  | some l =>
    if s.loadThrough n then
      let s := fabErr s 0 n cause l.addr
      { s with kiln := { s.kiln with load := some { l with failed := true } } }
    else s
  | none => s

/-! ## States (R33 to R36) -/

/-- A block's reported state set. -/
def setBlk (s : State) (n v : Nat) : State := s.setFld (FAB_BLK_STAT n) FAB_BLK_STAT_state v

/-- A block begins to start: a head samples its settings and sets its PLL (R160, R479). -/
def beginStart (s : State) (n : Nat) : State :=
  let s := setBlk s n 1
  if 9 ≤ n && n < 13 then headPll (headSample s (n - 9) (s.laneRate (n - 9))) (n - 9) else s

/-- A block begins to stop: its wrapper closes to new work; a head sends no further packet; a Retort gives up its operation (R36, R160, R362). -/
def beginStop (s : State) (n : Nat) : State :=
  let s := setBlk s n 3
  if 9 ≤ n && n < 13 then headStop s (n - 9) else if 16 ≤ n && n < 28 then retortLost s (n - 16) else s

/-- A write of FAB_BLK_CTRL_n.enable (R33, R34). -/
def blockEnable (s : State) (n : Nat) (on : Bool) : State :=
  let s := s.setBit (FAB_BLK_CTRL n) FAB_BLK_CTRL_enable on
  match s.blkState n with
  | 0 => if on then beginStart s n else s
  | 1 => s.setBit (FAB_BLK_STAT n) FAB_BLK_STAT_pending_stop (!on)
  | 2 => if on then s else beginStop s n
  | _ => s.setBit (FAB_BLK_STAT n) FAB_BLK_STAT_pending_start on

/-- What a block does as it reaches ON (R140, R157, R160, R166, R265, R293); Falornyr cites a head's ring anew from its first entry (R173). -/
def reachOn (s : State) (n : Nat) : State :=
  if 9 ≤ n && n < 13 then headStart { s with fw := { s.fw with witAt := smErase s.fw.witAt (n - 9) } } (n - 9)
  else if n == 14 then kindlingStart s
  else if 16 ≤ n && n < 34 then ledgerDispatch s
  else s

/-- A start sequence completes (R33, R35): a head's waits for its PLL. -/
def startDone (s : State) (n : Nat) : State :=
  if s.blkState n != 1 || 40 ≤ n || (9 ≤ n && n < 13 && !s.bit (CLK_PLL_CTRL (n - 4)) CLK_PLL_CTRL_locked) then s
  else if s.bit (FAB_BLK_STAT n) FAB_BLK_STAT_pending_stop then
    beginStop (s.setBit (FAB_BLK_STAT n) FAB_BLK_STAT_pending_stop false) n
  else reachOn (setBlk s n 2) n

/-- Whether a head still has a packet on its lanes, which completes before the head is OFF (R160). -/
def State.sending (s : State) (n : Nat) : Bool := 9 ≤ n && n < 13 && (s.head (n - 9)).pkt.isSome

/-- What a block does as it reaches OFF: a head switches its PLL off, states that it tolerates any latency (R155), and frees the slots of its pipes (R139). -/
def reachOff (s : State) (n : Nat) : State :=
  if 9 ≤ n && n < 13 then pipesNow (restate (headPllOff s (n - 9)) (n - 9)) else s

/-- A stop sequence completes once the transfers outstanding have drained (R33, R36). -/
def stopDone (s : State) (n : Nat) : State :=
  if s.blkState n != 3 || 40 ≤ n || !s.drained n || s.sending n then s
  else if s.bit (FAB_BLK_STAT n) FAB_BLK_STAT_pending_start then
    beginStart (s.setBit (FAB_BLK_STAT n) FAB_BLK_STAT_pending_start false) n
  else reachOff (setBlk s n 0) n

/-- A stop sequence reaches the drain limit: the transfers outstanding complete with an error response, cause 4 (R36). -/
def drainTimeout (s : State) (n : Nat) : State :=
  if s.blkState n != 3 || 40 ≤ n then s
  else
    let s := failTransfers (s.setBit (FAB_BLK_STAT n) FAB_BLK_STAT_drain_timeout true) n 4
    if 28 ≤ n && n < 34 then ledgerDispatch (unitFails s n) else s

/-- Whether a block's reset mode is Idle. -/
def State.idleMode (s : State) (n : Nat) : Bool :=
  if n < 32 then (s.reg FAB_RESET_MODE_0).getLsbD n else (s.reg FAB_RESET_MODE_1).getLsbD (n - 32)

/-- A write of FAB_BLK_CTRL_n.reset (R37, R38): refused where the block is not ON, or in Idle mode is not idle. A block that it takes is held
in reset until BLOCK_RESET_RELEASE. While a reset holds the block, a further request is refused too (DESIGN CHOICE: the manual does not say; assumption
79). -/
def blockReset (s : State) (n : Nat) : State :=
  if !s.blkOn n || (s.idleMode n && !s.blockIdle n) then s.setBit (FAB_BLK_STAT n) FAB_BLK_STAT_reset_refused true
  else
    let s := failTransfers s n 3
    let s := if 9 ≤ n && n < 13 then headStop s (n - 9) else s
    let s := { s with blkReset := smSet (fun _ => false) s.blkReset n true }
    blockClear (s.setBit (FAB_BLK_CTRL n) FAB_BLK_CTRL_reset true) n

/-- The block leaves reset in state ON, its registers at their reset values, its programs not running (R39). -/
def blockRelease (s : State) (n : Nat) : State :=
  if s.inReset n then
    let s := blockClear s n
    let s := { s with blkReset := smSet (fun _ => false) s.blkReset n false }
    let s := if 9 ≤ n && n < 13 then headSample s (n - 9) (s.laneRate (n - 9)) else s
    reachOn (s.setBit (FAB_BLK_CTRL n) FAB_BLK_CTRL_reset false) n
  else s

/-- A write of FAB_BLK_CTRL_n: a reset and an enable each have their effect, the reset first. With enable at 0 in the same write, or while the reset is held,
the block is then STOPPING and its release leaves it so (DESIGN CHOICE: R39 gives no order; assumption 79). -/
def blkCtlWrite (s : State) (n : Nat) (w : Word) : State :=
  let s := if bitOf w FAB_BLK_CTRL_reset then blockReset s n else s
  blockEnable s n (bitOf w FAB_BLK_CTRL_enable)

/-- A register write to the FAB block. -/
def fabWrite (s : State) (a : Nat) (w : Word) : State :=
  let off := a - FAB_BLK_CTRL 0
  if FAB_BLK_CTRL 0 ≤ a ∧ off < 160 ∧ off % 4 = 0 then blkCtlWrite s (off / 4) w else s.writeCodes a w

/-- A register read of the FAB block: idle is shown live. -/
def fabRead (s : State) (a : Nat) : State × Word :=
  let off := a - FAB_BLK_STAT 0
  let s' := if FAB_BLK_STAT 0 ≤ a ∧ off < 160 ∧ off % 4 = 0 then s.setBit a FAB_BLK_STAT_idle (s.blockIdle (off / 4)) else s
  (s'.readClears a, s'.readCodes a)

end Sys2Proof.Machine
end

