-- ==== Sys2Proof/Machine/Ember.lean ====
section
/-! DEFINITION. Fuses (chapter 22), reset levels, power states, voltage scaling and temperature (chapter 24), and the key loader (R457). -/

namespace Sys2Proof.Machine

/-- The state with the Ember island replaced. -/
def State.setEmber (s : State) (e : Ember) : State := { s with ember := e }

/-! ## Fuses (R449 to R454) -/

/-- The fused values that lie outside the Ember island: identity, profiles permitted, and the pads' pulls and actuator marks (R11, R325). -/
def applyFuses (s : State) : State :=
  let s := (s.setReg SYS_ID_0 (BitVec.ofNat 32 (s.fuse 31 0))).setReg SYS_ID_1 (BitVec.ofNat 32 (s.fuse 63 32))
  let s := (s.setReg SYS_ID_2 (BitVec.ofNat 32 (s.fuse 95 64))).setFld SYS_PROFILE SYS_PROFILE_permitted (s.fuse 923 920)
  (List.range 96).foldl (fun s n =>
    let up := s.fuse (914 + n / 16) (914 + n / 16)
    (s.setFld (PIN_CFG n) PIN_CFG_pull (1 + up)).setFld (PIN_CFG n) PIN_CFG_actuator (s.fuse (942 + n) (942 + n))) s

/-- The fused values that the Ember island holds: guard settings, actuator limits and the fuse words (R310, R323, R449). -/
def applyEmberFuses (s : State) : State :=
  let s := (List.range 4).foldl (fun s g =>
    s.setReg PIN_GUARD_CFG (s.reg PIN_GUARD_CFG ||| BitVec.ofNat 32 (s.fuse (929 + 4 * g) (926 + 4 * g) * 2 ^ (8 * g + 4)))) (s.setReg PIN_GUARD_CFG 0)
  let s := (List.range 96).foldl (fun s n =>
    let act := s.fuse (942 + n) (942 + n) * 2 ^ 31 + s.fuse (1134 + n) (1134 + n) * 2 ^ 30 + s.fuse (1245 + 16 * n) (1230 + 16 * n)
    s.setReg (KPORT_ACT n) (BitVec.ofNat 32 act)) s
  (List.range 256).foldl (fun s k => s.setReg (FUSE_WORD k) (if 3 ≤ k && k ≤ 10 then 0 else BitVec.ofNat 32 (s.fuse (32 * k + 31) (32 * k)))) s

/-- A word of the factory segment as this die's cells give it: the stepping of word 2 is that of B0, 0x20 (R2, R455). -/
def dieWord (factory : List Word) (k : Nat) : Word := let w := factory.getD k 0; if k == 2 then (w &&& 0xFFFF00FF#32) ||| 0x2000#32 else w

/-- The FUSE unit reads the array (R450). `factory` are the words of the factory segment as they are read; the field segment is what FUSE_PROG
has set. -/
def fuseLoad (s : State) (factory : List Word) : State :=
  if s.ember.phase == .load then
    let ws := (List.range 256).map (fun k => if k < 128 then dieWord factory k else smGet (fun _ => 0#32) s.ember.cells k)
    s.setEmber { s.ember with staged := some ws }
  else s

/-- Whether the words of a load agree with their check field (R449). -/
def fusesPass (ws : List Word) : Bool :=
  crc32c ((ws.take 127).flatMap (fun w => leBytes 4 w.toNat)) == (ws.getD 127 0).toNat

/-- The first rail from 1 to 5 that is not enabled and good, and where the sequencer goes for it; after the last one the islands are released. -/
def State.nextRail (s : State) : Option EmberPhase :=
  ([1, 2, 3, 4, 5].find? (fun k => !((s.fld PWR_STAT PWR_STAT_en).testBit k && (s.fld PWR_STAT PWR_STAT_pg).testBit k))).map
    (fun k => if (s.fld PWR_STAT PWR_STAT_en).testBit k then .good k else .up k)

/-- The islands other than Ember are released with every root on FRC, XTAL_A is enabled and Kiln starts the boot ROM (R471, R478, R487). -/
def releaseIslands (s : State) : State :=
  let s := s.setBit CLK_SRC CLK_SRC_xa_en true
  let s := (s.setFld (CLK_PLL_CTRL 0) CLK_PLL_CTRL_s s.leastS).setFld (CLK_PLL_CTRL 0) CLK_PLL_CTRL_t s.leastT
  s.setEmber { s.ember with phase := .run }

/-- The up-sequence goes on: to the next rail, or to the release of the islands (R487, R491). -/
def upNext (s : State) : State :=
  match s.nextRail with
  | some p => s.setEmber { s.ember with phase := p }
  | none => releaseIslands s

/-- A fuse load ends (R450, R451): it passes and the fused fields load, those of the Ember island only at COLD (R310), or it fails and starts again, up to three
times. -/
def fuseLoadDone (s : State) : State :=
  match s.ember.phase == .load, s.ember.staged with
  | true, some ws =>
    let s := s.setEmber { s.ember with staged := none }
    if fusesPass ws then
      let fused := (List.range 256).foldl (fun m k => smSet (fun _ => 0#32) m k (ws.getD k 0)) []
      let s := s.setEmber { s.ember with fused := fused }
      let s := (s.setBit FUSE_STAT FUSE_STAT_loaded true).setFld FUSE_STAT FUSE_STAT_fails 0
      upNext (if s.ember.level == 0 then applyEmberFuses (applyFuses s) else applyFuses s)
    else
      let fails := min 3 (s.fld FUSE_STAT FUSE_STAT_fails + 1)
      let s := s.setFld FUSE_STAT FUSE_STAT_fails fails
      if fails == 3 then (s.setBit FUSE_STAT FUSE_STAT_fault true).setEmber { s.ember with phase := .dead } else s
  | _, _ => s

/-- A write of FUSE_PROG (R454): go sets the cell of a field-segment bit; a bit below 4,096 is refused. -/
def fuseProg (s : State) (w : Word) : State :=
  let s := s.writeCodes FUSE_PROG (setF w FUSE_PROG_go 0)
  let b := s.fld FUSE_PROG FUSE_PROG_bit
  if !bitOf w FUSE_PROG_go then s
  else if b < 4096 then s.setBit FUSE_PROG FUSE_PROG_refused true
  else
    let old := smGet (fun _ => 0#32) s.ember.cells (b / 32)
    s.setEmber { s.ember with cells := smSet (fun _ => 0#32) s.ember.cells (b / 32) (old ||| (1#32 <<< (b % 32))) }

/-! ## Reset of the islands (R11, R484 to R486, R489) -/

/-- Whether a register lies in the Ember island and keeps its value through WARM and HOLD (R11, R310, R323). -/
def emberReg (a : Nat) : Bool :=
  let page := a / 0x10000
  page == 0x4002 || page == 0x4003 || page == 0x4004 || a == CLK_SRC || a == CLK_OSC_STAT || a == PIN_GUARD_CFG || a == PIN_GUARD_STAT ||
  a == PIN_SAFE || a == KPORT_LOCK || (KPORT_CFG 0 ≤ a && a < KPORT_CFG 96 && a % 16 == 12)

/-- The heads after a reset level: HOLD keeps the level of HEAD_n_RESET_N and shows it in STAT.held (R161, R486). -/
def resetHeads (s : State) (hold : Bool) : State :=
  if hold then
    (List.range 4).foldl (fun s n =>
      (s.setHead n { HeadSt.init with resetLow := (s.head n).resetLow }).setBit (HEAD_STAT n) HEAD_STAT_held true) s
  else { s with heads := [] }

/-- The ports that HOLD retains: those driven, marked retainable by fuses, and not actuators (R326). -/
def State.toRetain (s : State) : List Nat :=
  (List.range 96).filter (fun n => s.fuse (1038 + n) (1038 + n) == 1 && s.fuse (942 + n) (942 + n) == 0 && s.padDrive n != none)

/-- A fresh nonce of 32 bytes for debug authentication: free (R523). -/
def freshNonce (s : State) : State := (List.range 8).foldl (fun s k => let (w, s) := s.draw; s.setReg (DBG_AUTH_NONCE k) w) s

/-- Every island but Ember returns to its reset state. Bank supplies are measured anew as they were; HOLD retains what R326 and R161 say; the
count of failed unlocks stays (R524), and the memories outside QDR keep their bytes unless power is lost (PRESUMED, assumption 42). -/
def resetIslands (s : State) (hold : Bool) : State :=
  let keep := if hold then s.toRetain.map (fun n => (n, (s.padDrive n).getD false, s.padStrength n)) else []
  let banks := (List.range 6).map (fun b => (b, s.fld (PIN_BANK b) PIN_BANK_vsel, s.fld (PIN_BANK b) PIN_BANK_vdet))
  let fails := s.fld DBG_AUTH DBG_AUTH_fails
  let s := (s.resetRegs (fun a => !emberReg a)).setFld DBG_AUTH DBG_AUTH_fails fails
  let s := resetHeads s hold
  let s := { s with
    blkReset := [], wb := [], capture := [], scrubPos := [], arr := [], vslot := [], pipeBands := [], vidBase := [], vidHeld := [], rd := ⟨0, false, false⟩,
    tb := 0, pulse := [], blk := ⟨0, 0, none, .none⟩, dma := [], dmaLast := [], aud := AudSt.init, sp := [], kind := Kind.init, ports := portsReset s,
    tbAcc := 0, tbSteps := [], pinAcc := 0, tmr := [], adcTodo := [], adcHeld := false, fires := [], extl := [], retain := [], retDrive := [], host := HostSt.init,
    kiln := Kiln.init, fw := Fw.init, led := Led.init, txts := [], wire := [], trial := [], wdog := 0, trc := [], trcLost := 0, jtag := { s.jtag with data := 0, err := false } }
  let s := banks.foldl (fun s e => bankCheck ((s.setFld (PIN_BANK e.1) PIN_BANK_vsel e.2.1).setFld (PIN_BANK e.1) PIN_BANK_vdet e.2.2) e.1) s
  let s := keep.foldl (fun s e =>
    { s with retain := smSet (fun _ => false) s.retain e.1 e.2.1, retDrive := smSet (fun _ => 0) s.retDrive e.1 e.2.2 }.setBit
      (PIN_CFG e.1) PIN_CFG_retained true) s
  let s := (s.setBit PIN_SAFE PIN_SAFE_release false).setFld PWR_STATE PWR_STATE_state 0
  let s := s.setEmber { s.ember with frc := 0, tbOn := false }
  freshNonce (if s.bit FUSE_STAT FUSE_STAT_loaded then applyFuses s else s)

/-- The contents of every memory are lost with power. -/
def loseMemory (s : State) : State := { s with mem := [], ecc := [] }

/-- The Ember island returns to its reset values at COLD (Table 24-1): fuse state, and the count of failed loads excepted (R451). -/
def resetEmber (s : State) : State :=
  let loaded := s.bit FUSE_STAT FUSE_STAT_loaded
  let fails := s.fld FUSE_STAT FUSE_STAT_fails
  let pg := s.fld PWR_STAT PWR_STAT_pg
  let en := s.fld PWR_STAT PWR_STAT_en
  let s := s.resetRegs emberReg
  let s := (s.setBit FUSE_STAT FUSE_STAT_loaded loaded).setFld FUSE_STAT FUSE_STAT_fails fails
  let s := (s.setFld PWR_STAT PWR_STAT_pg pg).setFld PWR_STAT PWR_STAT_en en
  let s := (List.range 6).foldl (fun s b => bankCheck (s.setFld (PIN_BANK b) PIN_BANK_vsel 0) b) s
  let s := { s.setFld DBG_AUTH DBG_AUTH_fails 0 with ports := [] }
  s.setEmber { s.ember with wakes := 0, cooling := false, vset := 800, vsent := 0 }

/-- The level of a RESET_N assertion (R453, R484). -/
def State.resetLevel (s : State) : Nat :=
  let midnight := match s.ember.phase with | .midnight | .down _ => true | _ => false
  if !s.bit FUSE_STAT FUSE_STAT_loaded || midnight then 0 else s.fuse 913 912 % 3

/-- RESET_N low for `ns` nanoseconds (R483, R484): less than 200 ns is ignored, 1 µs or more is taken, and between them it may be either. FUSE_STAT.fault clears
at every level, since the release tries the load again or runs on what was loaded (DESIGN CHOICE: the manual names no level for it; assumption 103). -/
def resetAssert (s : State) (ns : Nat) : State :=
  let (any, s) := s.draw
  if s.ember.phase == .off || ns < 200 || (ns < 1000 && any.getLsbD 0) then s
  else
    let level := s.resetLevel
    let aborted := s.ember.phase == .load
    let again := match s.ember.phase with | .run => false | .held => s.ember.again | _ => true
    let rising := match s.ember.phase with | .load | .up _ | .good _ => true | _ => false
    let hold := level == 2
    let s := resetIslands s hold
    let s := if level == 0 then
        let s := loseMemory (resetEmber s)
        if rising then s else s.setFld PWR_STAT PWR_STAT_en 1
      else s
    let s := s.setBit FUSE_STAT FUSE_STAT_fault false
    let s := (s.setFld RST_CAUSE RST_CAUSE_source 2).setFld RST_CAUSE RST_CAUSE_level level
    let s := s.setBit RST_CAUSE RST_CAUSE_fuse_interrupted aborted
    s.setEmber { s.ember with phase := .held, level := level, staged := none, again := again || level == 0 }

/-- RESET_N rises, or power-on reset ends (R465, R487): the profile pins are sampled; after COLD, or a release that was aborted, the fuses load and the
rails rise, and otherwise the islands are released. -/
def resetRelease (s : State) (sel : Nat) : State :=
  if s.ember.phase == .held then
    let s := s.setFld SYS_PROFILE SYS_PROFILE_pins sel
    if s.ember.again then s.setEmber { s.ember with phase := .load, staged := none } else releaseIslands s
  else s

/-- Power-on: a COLD reset with every state lost but the cells of the field segment (R483, R484). -/
def powerOn (s : State) : State :=
  let cells := s.ember.cells
  let vdet := (List.range 6).map (fun b => (b, s.fld (PIN_BANK b) PIN_BANK_vdet))
  let s := resetIslands s false
  let s := loseMemory (s.resetRegs (fun _ => true))
  let s := vdet.foldl (fun s e => bankCheck (s.setFld (PIN_BANK e.1) PIN_BANK_vdet e.2) e.1) s
  let s := (s.setFld PWR_STAT PWR_STAT_en 1).setFld PWR_STAT PWR_STAT_pg 1
  let s := (s.setFld RST_CAUSE RST_CAUSE_source 1).setFld RST_CAUSE RST_CAUSE_level 0
  freshNonce { s with jtag := Jtag.init, ports := [], ember := { Ember.init with phase := .held, cells := cells, again := true } }

/-- The always-on supply or PG_0 falls: the device is held in power-on reset (R483). -/
def supplyLoss (s : State) : State :=
  let s := powerOn s
  (s.setFld PWR_STAT PWR_STAT_pg 0).setEmber { s.ember with phase := .off }

/-! ## The sequencer (R491 to R494) -/

/-- Every island but Ember is held in reset and the rails are lowered, from rail 5 (R492). `entry` is how Midnight began. -/
def enterMidnight (s : State) (entry : Nat) : State :=
  let s := loseMemory (resetIslands s false)
  (s.setFld PWR_WAKE_CAUSE PWR_WAKE_CAUSE_entry entry).setEmber { s.ember with phase := .down 5 }

/-- A rail's enable rises after its step delay; the first waits for PG_1 to PG_5 to read low, and gives up waiting after 10 ms (R491). -/
def upStep (s : State) : State :=
  match s.ember.phase with
  | .up k =>
    let s := if k == 1 && s.fld PWR_STAT PWR_STAT_pg / 2 != 0 then s.setBit PWR_STAT PWR_STAT_pg_stuck true else s
    upNext (s.setFld PWR_STAT PWR_STAT_en (s.fld PWR_STAT PWR_STAT_en ||| 2 ^ k))
  | _ => s

/-- PG_k rises. -/
def pgRise (s : State) (k : Nat) : State :=
  if 6 ≤ k then s
  else
    let s := s.setFld PWR_STAT PWR_STAT_pg (s.fld PWR_STAT PWR_STAT_pg ||| 2 ^ k)
    if s.ember.phase == .good k then upNext s else s

/-- A power fault of rail `k` (R493). -/
def railFault (s : State) (k : Nat) : State :=
  enterMidnight ((s.setBit PWR_STAT PWR_STAT_pg_fault true).setFld PWR_STAT PWR_STAT_fault_rail k) 2

/-- PG_k has not risen within its timeout (R491). -/
def pgTimeout (s : State) : State :=
  match s.ember.phase with
  | .good k => railFault s k
  | _ => s

/-- PG_k falls: a power fault while its enable is high (R493). In the down-sequence, which it would enter, it is recorded. -/
def pgFall (s : State) (k : Nat) : State :=
  if k == 0 || 6 ≤ k then s
  else
    let s := s.setFld PWR_STAT PWR_STAT_pg (s.fld PWR_STAT PWR_STAT_pg - s.fld PWR_STAT PWR_STAT_pg / 2 ^ k % 2 * 2 ^ k)
    if !(s.fld PWR_STAT PWR_STAT_en).testBit k then s
    else match s.ember.phase with
      | .off | .midnight => s
      | .down _ => (s.setBit PWR_STAT PWR_STAT_pg_fault true).setFld PWR_STAT PWR_STAT_fault_rail k
      | _ => railFault s k

/-- The up-sequence starts from Midnight where a wake is latched and no cool-down runs (R494, R497). -/
def wakeNow (s : State) : State :=
  if s.ember.phase == .midnight && s.ember.wakes != 0 && !s.ember.cooling then upNext (s.setEmber { s.ember with wakes := 0 }) else s

/-- A step delay of the down-sequence ends and the next enable falls; after the last the device is in Midnight (R492). A COLD that aborted a release
lowers its rails in the same order (R488). -/
def downStep (s : State) : State :=
  let lower (s : State) (k : Nat) := s.setFld PWR_STAT PWR_STAT_en (s.fld PWR_STAT PWR_STAT_en - s.fld PWR_STAT PWR_STAT_en / 2 ^ k % 2 * 2 ^ k)
  match s.ember.phase with
  | .down k =>
    let s := lower s k
    if k ≤ 1 then wakeNow (s.setEmber { s.ember with phase := .midnight }) else s.setEmber { s.ember with phase := .down (k - 1) }
  | .held =>
    if s.ember.level == 0 then
      match [5, 4, 3, 2, 1].find? (fun k => (s.fld PWR_STAT PWR_STAT_en).testBit k) with
      | some k => lower s k
      | none => s
    else s
  | _ => s

/-- A write of 1 to PWR_STATE.midnight (R492). -/
def midnightRequest (s : State) : State := if s.ember.phase == .run then enterMidnight s 0 else s

/-- Wake pins at their configured level or edge, and the RTC at its alarm (R494): enabled sources are latched in Midnight and the down-sequence, the
first is recorded, and the up-sequence starts when it may. -/
def wake (s : State) (pins : Nat) (rtc : Bool) : State :=
  let s := if rtc then s.setReg PWR_RTC (s.reg PWR_RTC_ALARM) else s
  let asleep := match s.ember.phase with | .midnight | .down _ => true | _ => false
  let got := (pins &&& s.fld PWR_WAKE PWR_WAKE_pin_en) + cond (rtc && s.bit PWR_WAKE PWR_WAKE_rtc_en) 16 0
  if !asleep || got == 0 then s
  else
    let c := PWR_WAKE_CAUSE
    let s := if s.bit c PWR_WAKE_CAUSE_valid then s
      else ((s.setBit c PWR_WAKE_CAUSE_valid true).setFld c PWR_WAKE_CAUSE_rtc (got / 16)).setFld c PWR_WAKE_CAUSE_pins (got % 16)
    wakeNow (s.setEmber { s.ember with wakes := s.ember.wakes ||| got })

/-! ## Voltage scaling (R495) -/

/-- An integer from LINEAR16: mantissa times 2^exp, in mV, rounded down. -/
def linearMv (mant exp : Nat) : Nat := if signed 5 exp < 0 then mant * 1000 / 2 ^ (signed 5 exp).natAbs else mant * 1000 * 2 ^ (signed 5 exp).toNat

/-- The mantissa of a voltage in mV, rounded to the nearest (R495). -/
def linearMant (mv exp : Nat) : Nat :=
  if signed 5 exp < 0 then (mv * 2 ^ (signed 5 exp).natAbs * 2 + 1000) / 2000 else (mv * 2 + 1000 * 2 ^ (signed 5 exp).toNat) / (2000 * 2 ^ (signed 5 exp).toNat)

/-- A scaling step: the margin's distance from its target in mV, whether every transfer was acknowledged in time, and the READ_VOUT mantissa and
STATUS_WORD that came back. -/
def avsStep (s : State) (margin : Int) (ack : Bool) (vout status : Nat) : State :=
  if s.ember.phase != .run || s.fld PWR_STATE PWR_STATE_state == 0 || !s.bit PWR_AVS PWR_AVS_enable then s
  else
    let was := s.ember.vset
    let want := if margin < 0 then was + 5 else if 5 < margin then was - 5 else was
    let v := max (s.fld PWR_AVS PWR_AVS_min_mv) (min (s.fld PWR_AVS PWR_AVS_max_mv) want)
    if !ack then s.setBit PWR_STAT PWR_STAT_pmbus_fault true
    else
      let exp := s.fld PWR_PMBUS PWR_PMBUS_exp
      let s := (s.setFld PWR_AVS_STAT PWR_AVS_STAT_status_word status).setFld PWR_AVS_STAT PWR_AVS_STAT_vout_mv (linearMv vout exp)
      if status % 65536 != 0 then s.setBit PWR_STAT PWR_STAT_pmbus_fault true
      else s.setEmber { s.ember with vset := v, vsent := linearMant v exp }

/-! ## Temperature (R496, R497) -/

/-- The comparators look at the four sensors: 135 °C sets throttle, 145 °C latches trip and enters Midnight. -/
def thermalSample (s : State) (temps : List Int) : State :=
  let s := s.setEmber { s.ember with temps := temps.take 4 }
  let hot (t : Int) := s.ember.temps.any (fun x => t ≤ x)
  let s := if hot 135 && !s.bit PWR_THERM PWR_THERM_throttle then
      (s.setBit PWR_THERM PWR_THERM_throttle true).setBit PWR_THERM PWR_THERM_changed true
    else s
  if hot 145 then
    let s := (s.setBit PWR_THERM PWR_THERM_trip true).setEmber { s.ember with cooling := true }
    match s.ember.phase with
    | .run | .up _ | .good _ => enterMidnight s 1
    | .held => if s.fld PWR_STAT PWR_STAT_en / 2 != 0 then enterMidnight s 1 else s
    | _ => s
  else s

/-- Every sensor has read below 130 °C for 1 ms: throttle is released. -/
def throttleRelease (s : State) : State :=
  if s.bit PWR_THERM PWR_THERM_throttle && s.ember.temps.all (fun x => x < 130) then
    (s.setBit PWR_THERM PWR_THERM_throttle false).setBit PWR_THERM PWR_THERM_changed true
  else s

/-- cool_s seconds have passed since a trip: latched wakes are acted on. -/
def coolDownExpire (s : State) : State := wakeNow (s.setEmber { s.ember with cooling := false })

/-- A write of 1 to trip: refused while a sensor reads 130 °C or more. -/
def tripClear (s : State) : State :=
  if s.ember.temps.all (fun x => x < 130) then s.setBit PWR_THERM PWR_THERM_trip false else s.setBit PWR_THERM PWR_THERM_clr_refused true

/-- A register write to the PWR block. -/
def pwrWrite (s : State) (a : Nat) (w : Word) : State :=
  if a == PWR_STATE then
    let s := s.writeCodes a (setF w PWR_STATE_midnight 0)
    if bitOf w PWR_STATE_midnight then midnightRequest s else s
  else if a == PWR_THERM then
    let s := s.writeCodes a (setF w PWR_THERM_trip 0)
    if bitOf w PWR_THERM_trip then tripClear s else s
  else s.writeCodes a w

/-! ## The key loader (R457) -/

/-- The key loader starts; with no passing fuse load since power-on no key is loaded, and key_fault is set. -/
def keyLoad (s : State) : State :=
  if s.ember.phase != .run then s
  else if s.bit FUSE_STAT FUSE_STAT_loaded then s.setLed { s.led with dev := none, loading := true }
  else (s.setLed { s.led with dev := none, loading := false }).setBit LEDGER_EVT LEDGER_EVT_key_fault true

/-- The 12-byte identity (R456). -/
def State.identity (s : State) : List Byte := leBytes 4 (s.reg SYS_ID_0).toNat ++ leBytes 4 (s.reg SYS_ID_1).toNat ++ leBytes 4 (s.reg SYS_ID_2).toNat

/-- The device keys: from HKDF-SHA-256 over the fused secret, with the identity as salt and "XDK1" as info. -/
def State.deviceKeys (s : State) : Nat × List Byte :=
  let k := hkdf (leBytes 32 (s.fuse 351 96)) s.identity [0x58, 0x44, 0x4B, 0x31] 80
  (beOf (k.take 48) % (p256N - 1) + 1, k.drop 48)

/-- The derivation ends, and the commands that it held are dispatched. -/
def keyLoadDone (s : State) : State :=
  if s.led.loading then ledgerDispatch (s.setLed { s.led with dev := some s.deviceKeys, loading := false }) else s

end Sys2Proof.Machine
end

