-- ==== Sys2Proof/Machine/MemCtl.lean ====
section
/-! DEFINITION. The memory island's own events and registers (chapter 3): training, tracking, scrub, doze, mirror and interleave settings. -/

namespace Sys2Proof.Machine

/-! ## Configuration (R49, R62) -/

/-- A write of MEM_INTLV: an enable of 1 is ignored while a channel of the set is untrained (R49). -/
def intlvWrite (s : State) (w : Word) : State :=
  let s' := s.writeCodes MEM_INTLV w
  if (List.range 6).any (fun k => (s'.fld MEM_INTLV MEM_INTLV_set).testBit k && !s'.chanTrained k) && bitOf w MEM_INTLV_enable then
    s'.setBit MEM_INTLV MEM_INTLV_enable (s.bit MEM_INTLV MEM_INTLV_enable)
  else s'

/-- Whether two mirror pairs name a common byte of a channel; a region of size 0 names none. -/
def State.mirrorsMeet (s : State) (w : Word) (j : Nat) : Bool :=
  let v := s.reg (MEM_MIRROR j)
  let chans (w : Word) := [getF w MEM_MIRROR_primary, getF w MEM_MIRROR_mirror]
  bitOf v MEM_MIRROR_valid && (chans w).any (fun c => (chans v).contains c) && getF w MEM_MIRROR_size != 0 && getF v MEM_MIRROR_size != 0 &&
    getF w MEM_MIRROR_base < getF v MEM_MIRROR_base + getF v MEM_MIRROR_size && getF v MEM_MIRROR_base < getF w MEM_MIRROR_base + getF w MEM_MIRROR_size

/-- Whether a mirror setting is consistent (R62). -/
def State.mirrorOk (s : State) (i : Nat) (w : Word) : Bool :=
  getF w MEM_MIRROR_primary != getF w MEM_MIRROR_mirror &&
  s.fld MEM_INTLV MEM_INTLV_il_size ≤ getF w MEM_MIRROR_base && !(List.range 3).any (fun j => j != i && s.mirrorsMeet w j)

/-- A write of MEM_MIRROR_i, a channel number of 6 or 7 leaving its field as it was (R10): if the setting is inconsistent, valid reads 0 and the other
fields are as they were (R62). -/
def mirrorWrite (s : State) (i : Nat) (w : Word) : State :=
  let t := s.writeCodes (MEM_MIRROR i) w
  if s.mirrorOk i (t.reg (MEM_MIRROR i)) then t else s.setBit (MEM_MIRROR i) MEM_MIRROR_valid false

/-! ## Training (R63, R65) -/

/-- Channel `k` begins to train: until it ends it counts as not installed. A start bit for a channel that is not ON is dropped, and the density check's
writes are not seen in the channel's bytes (DESIGN CHOICE: R63 says neither; assumption 75). -/
def trainStart (s : State) (k : Nat) : State :=
  if k < 6 && s.blkOn (blkChannel k) then
    (s.setBit (MEM_TRAIN_STAT k) MEM_TRAIN_STAT_trained false).setFld MEM_TRAIN_CTRL MEM_TRAIN_CTRL_start (s.fld MEM_TRAIN_CTRL MEM_TRAIN_CTRL_start ||| 2 ^ k)
  else s

/-- A write of MEM_TRAIN_CTRL. -/
def trainWrite (s : State) (w : Word) : State := (List.range 6).foldl (fun s k => if w.getLsbD k then trainStart s k else s) s

/-- The capture points of a channel's byte groups set by training. -/
def resetCapture (s : State) (k : Nat) : State := { s with capture := s.capture.filter (fun e => e.1 / 64 != k) }

/-- Training of channel `k` ends: with the failed step's code, or 0 and the narrowest eye. -/
def trainDone (s : State) (k fail eye : Nat) : State :=
  let start := s.fld MEM_TRAIN_CTRL MEM_TRAIN_CTRL_start
  if k < 6 && start.testBit k then
    let r := MEM_TRAIN_STAT k
    let s := (s.setFld MEM_TRAIN_CTRL MEM_TRAIN_CTRL_start (start - 2 ^ k)).setBit MEM_EVT MEM_EVT_train true
    let s := (s.setFld r MEM_TRAIN_STAT_fail fail).setBit r MEM_TRAIN_STAT_trained (fail % 8 == 0)
    if fail % 8 == 0 then resetCapture (s.setFld r MEM_TRAIN_STAT_eye_min eye) k else s
  else s

/-- How far the capture point of a byte group stands from the point that training set. -/
def State.captureOf (s : State) (k group : Nat) : Int := smGet (fun _ => 0) s.capture (64 * k + group)

/-- A window of 4,096 transitions of a byte group ends (R65; the manual does not number the byte groups of a channel, and the model admits 64: DESIGN
CHOICE, assumption 76), with drift when the point stands 16 steps off or more (R70). -/
def eyeWindow (s : State) (k group early late : Nat) : State :=
  if k < 6 && group < 64 && s.chanTrained k then
    let pos := trackStep (s.captureOf k group) early late
    let s := { s with capture := smSet (fun _ => 0) s.capture (64 * k + group) pos }
    if 16 ≤ pos.natAbs then s.setBit MEM_EVT MEM_EVT_drift true else s
  else s

/-- A tracking-line read injected by the controller (R65). -/
def trackInject (s : State) (k : Nat) : State :=
  if k < 6 && s.chanTrained k then s.count (MEM_TRAIN_STAT k) MEM_TRAIN_STAT_inject_cnt else s

/-- The periodic impedance calibration (R64): a failed read-back of the tracking line counts as a correctable event. -/
def zqRecal (s : State) (k : Nat) (failed : Bool) : State :=
  if k < 6 && s.chanTrained k && failed then s.count (MEM_ECC_CNT k) MEM_ECC_CNT_corrected else s

/-! ## Parity, write-back and scrub (R56, R57, R59) -/

/-- A device reports an address-parity error, and the commands are reissued (R57, R70). -/
def parityError (s : State) (k : Nat) : State :=
  if k < 6 && s.bit (MEM_CH_CFG k) MEM_CH_CFG_ap_en then (s.count (MEM_PAR_CNT k) MEM_PAR_CNT_reissues).setBit MEM_EVT MEM_EVT_parity true else s

/-- The oldest corrective write-back of the word at a home address is issued (R56): one that a newer write cancelled is gone. -/
def writeBack (s : State) (h : Nat) : State :=
  match s.wb.lookup h with
  | some v => (((s.setBytes h (leBytes 8 v)).setEcc h 0)).dropWb h
  | none => s

/-- The patrol reads and corrects the next granule of channel `k` (R59), while the island is awake. -/
def scrubGranule (s : State) (k : Nat) (seen : List Nat) : State :=
  if k < 6 && s.bit MEM_SCRUB MEM_SCRUB_enable && s.blkOn (blkChannel k) && s.chanTrained k && !s.bit MEM_DOZE_STAT MEM_DOZE_STAT_dozing then
    let pos := smGet (fun _ => 0) s.scrubPos k
    let s := scrubWords s k (pos * 256) seen 32
    { s with scrubPos := smSet (fun _ => 0) s.scrubPos k ((pos + 1) % (max 1 (s.chanCapacity k / 256))) }
  else s

/-! ## Doze (R66, R67) -/

/-- The idle time has passed: doze is entered when every tolerance permits it. -/
def dozeEnter (s : State) : State :=
  if s.mayDoze && !s.bit MEM_DOZE_STAT MEM_DOZE_STAT_dozing then
    (s.setBit MEM_DOZE_STAT MEM_DOZE_STAT_dozing true).count MEM_DOZE_STAT MEM_DOZE_STAT_entries
  else s

/-- A request or a restated tolerance wakes the island. -/
def dozeExit (s : State) : State := s.setBit MEM_DOZE_STAT MEM_DOZE_STAT_dozing false

/-! ## Register access -/

/-- A register write to the MEM block. -/
def memCtlWrite (s : State) (a : Nat) (w : Word) : State :=
  if a == MEM_INTLV then intlvWrite s w
  else if MEM_MIRROR 0 ≤ a ∧ a < MEM_MIRROR 3 then mirrorWrite s ((a - MEM_MIRROR 0) / 4) w
  else if a == MEM_TRAIN_CTRL then trainWrite s w
  else if a == MEM_LTR 5 ∨ a == MEM_LTR 6 then stateTolerance s ((a - MEM_LTR 0) / 4) (w.toNat % 2 ^ 24)
  else if a == MEM_DOZE_CFG then
    let s := s.writeCodes a w
    if s.mayDoze then s else dozeExit s
  else s.writeCodes a w

/-- A register read of the MEM block: MEM_INTLV.enable reads 0 while a channel of its set is untrained (R49). -/
def memCtlRead (s : State) (a : Nat) : State × Word :=
  let s' := if a == MEM_INTLV then s.setBit a MEM_INTLV_enable s.ilOpen else s
  (s.readClears a, s'.readCodes a)

end Sys2Proof.Machine
end

