-- ==== Sys2Proof/Machine/Sys.lean ====
section
/-! DEFINITION. The watchdog and ALERT_N (R514 to R516), and the wires that follow the state (R263, R324, R516). -/

namespace Sys2Proof.Machine

/-- Whether the watchdog count stands still: Kiln halted with wdog_freeze (R530). -/
def State.wdogFrozen (s : State) : Bool := s.kiln.halted && s.bit DBG_CTRL DBG_CTRL_wdog_freeze

/-- A write of SYS_WDOG_CTRL (R514): enable starts the watchdog; timeout is fixed while it runs. -/
def wdogCtrlWrite (s : State) (w : Word) : State :=
  let r := SYS_WDOG_CTRL
  let on := s.bit r SYS_WDOG_CTRL_enable
  let s' := s.writeCodes r (if on then setF w SYS_WDOG_CTRL_timeout (s.fld r SYS_WDOG_CTRL_timeout) else w)
  if !on && bitOf w SYS_WDOG_CTRL_enable then { s' with wdog := s.tb } else s'

/-- A write of SYS_WDOG_KICK (R515). -/
def wdogKick (s : State) (w : Word) : State :=
  if getF w SYS_WDOG_KICK_key == 0xA5 then { s with wdog := s.tb } else s.count SYS_WDOG_CTRL SYS_WDOG_CTRL_bad_kick

/-- The watchdog expires: timeout milliseconds of the timebase have passed since the last kick (R514, R515). -/
def wdogExpire (s : State) : State :=
  let r := SYS_WDOG_CTRL
  if s.bit r SYS_WDOG_CTRL_enable && !s.wdogFrozen && s.wdog + s.fld r SYS_WDOG_CTRL_timeout * 250000 ≤ s.tb then
    (hostDbSet (s.setBit r SYS_WDOG_CTRL_expired true) 30).setBit PIN_SAFE PIN_SAFE_release false
  else s

/-- A register write to the SYS block. -/
def sysWrite (s : State) (a : Nat) (w : Word) : State :=
  if a == SYS_WDOG_CTRL then wdogCtrlWrite s w else if a == SYS_WDOG_KICK then wdogKick s w else s.writeCodes a w

/-! ## Wires -/

/-- SAFE_N is high (R324). -/
def State.safeHigh (s : State) : Bool :=
  s.bit PIN_SAFE PIN_SAFE_release && s.fld PIN_GUARD_STAT PIN_GUARD_STAT_tripped == 0 && !s.kiln.lockup && !s.bit PWR_THERM PWR_THERM_trip

/-- ALERT_N is low (R485, R516). -/
def State.alertLow (s : State) : Bool :=
  s.bit FUSE_STAT FUSE_STAT_fault ||
  (s.ember.phase == .run &&
    (s.bit SYS_ALERT SYS_ALERT_fw || s.bit SYS_WDOG_CTRL SYS_WDOG_CTRL_expired || s.kiln.lockup || s.bit SYS_ALERT SYS_ALERT_boot))

/-- The fields that show wires, set from what the wires follow: SAFE_N, ALERT_N and its causes. -/
def settle (s : State) : State :=
  let s := s.setBit PIN_SAFE PIN_SAFE_safe_n s.safeHigh
  let s := (s.setBit SYS_ALERT SYS_ALERT_wdog (s.bit SYS_WDOG_CTRL SYS_WDOG_CTRL_expired)).setBit SYS_ALERT SYS_ALERT_lockup s.kiln.lockup
  s.setBit SYS_ALERT SYS_ALERT_level s.alertLow

end Sys2Proof.Machine
end

