-- ==== Sys2Proof/Machine/Bus.lean ====
section
/-! DEFINITION. Accesses over the crossbar to the whole Kiln address map (R9, R31, R41 to R44, R448), and the DBG block (chapter 26). -/

namespace Sys2Proof.Machine

/-- Who makes an access: its crossbar port, and whether it is Kiln at Supervisor. -/
structure Ini where
  port : Nat
  sup : Bool

/-- Kiln at Supervisor. -/
def iniKiln : Ini := ⟨0, true⟩

/-! ## Register blocks (R31, R41, R44, R448) -/

/-- The one block whose control port register `a` is, where the register belongs to one. -/
def ownerBlock (a : Nat) : Option Nat :=
  ([0, 1, 2, 3, 4, 5, 6, 7, 8, 9, 10, 11, 12, 13, 14, 15, 28, 33, 34, 35, 36, 37, 38, 39] : List Nat).find? (fun n => blockReg n a)

/-- The blocks of which one serves register `a`, where it is some block's: the four translation engines share their store, and the ledger's blocks the
rest of its page. -/
def servers (a : Nat) : List Nat :=
  match ownerBlock a with
  | some b => if b == 28 then [28, 29, 30, 31] else [b]
  | none => if a / 0x10000 == 0x4020 then (List.range 18).map (· + 16) else []

/-- The profile that runs, where one does. -/
def State.profileNow (s : State) : Option Profile := s.fw.image.bind (fun i => i.profiles.lookup s.curProfile)

/-- Whether the running profile provides block `n` (R31, R466); with no profile running none is shut out. -/
def State.provides (s : State) (n : Nat) : Bool := match s.profileNow with | some p => p.blocks.testBit n | none => true

/-- Whether initiator `i` may reach register `a` (R41, R448): FAB is Kiln's at Supervisor, HOST and LEDGER crossbar port 0's, and DBG Kiln's at
Supervisor or JTAG's. -/
def mayReach (i : Ini) (a : Nat) : Bool :=
  match a / 0x10000 with
  | 0x400F => i.port == 0 && i.sup
  | 0x4020 => i.port == 0
  | 0x4022 => i.port == 0
  | 0x4030 => i.port == 0 && i.sup
  | _ => true

/-- A register write by an initiator that may make it, to every block but DBG. -/
def regWrite (s : State) (a : Nat) (w : Word) : State :=
  match a / 0x10000 with
  | 0x4000 => sysWrite s a w
  | 0x4001 => clkWrite s a w
  | 0x4003 => pwrWrite s a w
  | 0x4004 => if a == FUSE_PROG then fuseProg s w else s.writeCodes a w
  | 0x4005 => pinWrite s a w
  | 0x4006 => tmrWrite s a w
  | 0x4007 => tbWrite s a w
  | 0x4008 => adcWrite s a w
  | 0x4009 => intcWrite s a w
  | 0x400A => mbxWrite s idKiln a w
  | 0x400B => dmaWrite s a w
  | 0x400C => blkWrite s a w
  | 0x400D => audWrite s a w
  | 0x400E => memCtlWrite s a w
  | 0x400F => fabWrite s a w
  | 0x4010 => sceneWrite s a w
  | 0x4018 => kindWrite s a w
  | 0x4019 => kportWrite s a w
  | 0x4020 => ledgerWrite s a w
  | 0x4021 => floorWriteReg s a w
  | p => if 0x4011 ≤ p && p < 0x4015 then headWrite s a w else s.writeCodes a w

/-- A register read by an initiator that may make it, of every block but DBG: the state after it, and the word. -/
def regRead (s : State) (a : Nat) : State × Word :=
  match a / 0x10000 with
  | 0x4006 => tmrRead s a
  | 0x4007 => tbRead s a
  | 0x4009 => intcRead s a
  | 0x400A => mbxRead s idKiln a
  | 0x400B => dmaRead s a
  | 0x400D => audRead s a
  | 0x400E => memCtlRead s a
  | 0x400F => fabRead s a
  | 0x4010 => sceneReadReg s a
  | 0x4018 => kindRead s a
  | 0x4019 => kportRead s a
  | 0x4020 => ledgerRead s a
  | 0x4021 => floorReadReg s a
  | p => if 0x4011 ≤ p && p < 0x4015 then headRead s a else (s.readClears a, s.readCodes a)

/-- An error response to an access of register `a`: the cause of R9 where its size or alignment is wrong, and one that the manual leaves open where the
initiator may not reach it, where its island's clock is stopped (in a reset, and in Midnight), or where the profile lacks its block (R31). -/
def regRefusal (s : State) (i : Ini) (a n : Nat) : Option State :=
  let block := (ownerBlock a).getD 0x3F
  if n != 4 || a % 4 != 0 then some (fabErr s i.port block 5 a)
  else if !mayReach i a then some (fabErrOpen s i.port block a)
  else if s.ember.phase != .run && !emberReg a then some (fabErrOpen s i.port block a)
  else if (servers a).isEmpty || (servers a).any s.provides then none
  else some (fabErrOpen s i.port block a)

/-- A response with an error. -/
def Access.error (s : State) : Access := ⟨s, [], true, false⟩

/-- The lock ID of an initiator: the host at port 11, Kiln at port 0. Another has none, and 3 stands for that (R348, R349). -/
def Ini.lockId (i : Ini) : Nat := if i.port == 11 then idHost else if i.port == 0 then idKiln else 3

/-- A register write and read as an initiator makes them: the mailboxes tell initiators apart. -/
def iniWrite (s : State) (i : Ini) (a : Nat) (w : Word) : State := if a / 0x10000 == 0x400A then mbxWrite s i.lockId a w else regWrite s a w
def iniRead (s : State) (i : Ini) (a : Nat) : State × Word := if a / 0x10000 == 0x400A then mbxRead s i.lockId a else regRead s a

/-- A read of `n` bytes by an initiator, of every address but DBG's; `out` says that a wrapper passed its request earlier (R32), and `seen` are the results that a memory device gives. -/
def busReadOut (s : State) (out : Bool) (i : Ini) (a n : Nat) (seen : List Nat) : Access :=
  match s.target a with
  | .regs _ =>
    match regRefusal s i a n with
    | some s => .error s
    | none => let r := iniRead s i a; ⟨r.1, leBytes 4 r.2.toNat, false, false⟩
  | _ => memReadOut s out i.port a n seen

/-- A read as a new request, of every address but DBG's. -/
def busRead0 (s : State) (i : Ini) (a n : Nat) (seen : List Nat) : Access := busReadOut s false i a n seen

/-- A write by an initiator, to every address but DBG's. -/
def busWrite0 (s : State) (i : Ini) (a : Nat) (bs : List Byte) (seen : List Nat) : Access :=
  match s.target a with
  | .regs _ =>
    match regRefusal s i a bs.length with
    | some s => .error s
    | none => ⟨iniWrite s i a (BitVec.ofNat 32 (leOf bs)), [], false, false⟩
  | _ => memWrite s i.port a bs seen

/-! ## Authentication (R523, R524) -/

/-- A write of DBG_AUTH.go: ignored after 8 failed attempts. -/
def authGo (s : State) : State := if 8 ≤ s.fld DBG_AUTH DBG_AUTH_fails then s else s.setBit DBG_AUTH DBG_AUTH_go true

/-- The nonce of 32 bytes. -/
def State.authNonce (s : State) : List Byte := (List.range 8).flatMap (fun k => leBytes 4 (s.reg (DBG_AUTH_NONCE k)).toNat)

/-- Whether a key of 64 bytes and a signature over the challenge unlock the device; a debug_hash of zeros never does. -/
def State.authOk (s : State) (data : List Byte) : Bool :=
  let hash := s.fuse 863 608
  let q := data.take 64
  hash != 0 && sha256 q == leBytes 32 hash && ecdsaVerify q (sha256 ([0x58, 0x44, 0x41, 0x31] ++ s.identity ++ s.authNonce)) (data.drop 64)

/-- An attempt to unlock ends: the device unlocks or a failure counts, and the nonce is fresh. -/
def authEnd (s : State) (data : List Byte) : State :=
  let ok := s.authOk data
  let s := if ok then s.setBit DBG_AUTH DBG_AUTH_unlocked true else s.setFld DBG_AUTH DBG_AUTH_fails (min 8 (s.fld DBG_AUTH DBG_AUTH_fails + 1))
  freshNonce s

/-- The verification that DBG_AUTH.go started ends. -/
def authDone (s : State) : State :=
  if s.bit DBG_AUTH DBG_AUTH_go then
    authEnd (s.setBit DBG_AUTH DBG_AUTH_go false) ((List.range 32).flatMap (fun k => leBytes 4 (s.reg (DBG_AUTH_DATA k)).toNat))
  else s

/-- A write of DBG_AUTH.lock. -/
def debugLock (s : State) : State := s.setBit DBG_AUTH DBG_AUTH_unlocked false

/-- A write of DBG_AUTH. -/
def authWrite (s : State) (w : Word) : State :=
  let s := if bitOf w DBG_AUTH_lock then debugLock s else s
  if bitOf w DBG_AUTH_go then authGo s else s

/-! ## Kiln run control (R525 to R527, R530) -/

/-- The state with Kiln replaced. -/
def State.setKiln (s : State) (k : Kiln) : State := { s with kiln := k }

/-- Kiln halts at a boundary: a WAIT that it stood in issues again on resume. -/
def haltNow (s : State) : State :=
  (s.setKiln { s.kiln with halted := true, haltReq := false, waiting := false, step := false }).setBit DBG_KILN_CTRL DBG_KILN_CTRL_halted true

/-- A halt request: it takes effect at the next boundary, or in lockup; a load that holds the pipeline returns first. -/
def kilnHalt (s : State) : State :=
  if s.kiln.halted then s else if s.kiln.load.isSome && !s.kiln.lockup then s.setKiln { s.kiln with haltReq := true } else haltNow s

/-- Resume: Kiln runs on from the pc, status and ORIGIN it has, with nothing fetched (R526), and leaves lockup; the watchdog goes on from where it stood
still. -/
def kilnResume (s : State) : State :=
  if s.kiln.halted then
    (s.setKiln { s.kiln with halted := false, haltReq := false, lockup := false, step := false, held := [] }).setBit DBG_KILN_CTRL DBG_KILN_CTRL_halted false
  else s

/-- A step: the next instruction issues with no interrupt recognised. -/
def kilnStep (s : State) : State := if s.kiln.halted && !s.kiln.lockup then s.setKiln { s.kiln with step := true } else s

/-- General register `r` of Kiln, g13 by the privilege (R259). -/
def State.kreg (s : State) (r : Nat) : Word :=
  if r == 13 then (if s.kiln.status.getLsbD 4 then s.kiln.ssp else s.kiln.usp) else smGet (fun _ => 0#32) s.kiln.g r

/-- The state with a general register of Kiln set, g13 being that of Supervisor or of User. -/
def State.setKregAt (s : State) (sup : Bool) (r : Nat) (w : Word) : State :=
  if r == 13 then (if sup then s.setKiln { s.kiln with ssp := w } else s.setKiln { s.kiln with usp := w })
  else s.setKiln { s.kiln with g := smSet (fun _ => 0#32) s.kiln.g r w }

/-- The state with a general register of Kiln set, g13 by the privilege (R259). -/
def State.setKreg (s : State) (r : Nat) (w : Word) : State := s.setKregAt (s.kiln.status.getLsbD 4) r w

/-- The bits of status that exist (R215). -/
def statusBits : Word := 0xFFFF0F9F

/-- System register `n` of Kiln (Table 12-6). -/
def State.sysReg (s : State) (n : Nat) : Option Word :=
  let k := s.kiln
  match n with
  | 0 => some k.status
  | 1 => some k.vbar
  | 2 => some k.usp
  | 3 => some k.ssp
  | 4 => some k.svcPc
  | 5 => some k.svcStatus
  | 6 => some k.svcNum
  | 7 => some k.svcVec
  | 8 => some k.origin
  | 9 => some k.sidePc
  | _ => none

/-- The state with system register `n` written at Supervisor: reserved encodings leave their fields, and SVC_NUM and SIDE_PC take no write. -/
def State.setSysReg (s : State) (n : Nat) (w : Word) : State :=
  let k := s.kiln
  match n with
  | 0 => s.setKiln { k with status := w &&& statusBits }
  | 1 => if w.toNat % 64 ≤ 0x3E then s.setKiln { k with vbar := w &&& 0x3F } else s
  | 2 => s.setKiln { k with usp := w }
  | 3 => s.setKiln { k with ssp := w }
  | 4 => s.setKiln { k with svcPc := w }
  | 5 => s.setKiln { k with svcStatus := w &&& statusBits }
  | 7 => s.setKiln { k with svcVec := w }
  | 8 =>
    let depth := if w.toNat / 2 ^ 28 ≤ 8 then w.toNat / 2 ^ 28 else k.origin.toNat / 2 ^ 28
    let keep := BitVec.ofNat 32 (2 ^ depth - 1)
    s.setKiln { k with origin := BitVec.ofNat 32 (depth * 2 ^ 28) ||| (w &&& (keep ||| (keep <<< 8))) }
  | _ => s

/-- Register `r` as DBG_KILN_REG_r shows it: g0 to g15, pc, status, and system registers 0 to 9. -/
def State.debugReg (s : State) (r : Nat) : Word :=
  if r < 16 then s.kreg r else if r == 16 then s.kiln.pc else if r == 17 then s.kiln.status else (s.sysReg (r - 18)).getD 0

/-- A write of DBG_KILN_REG_r. -/
def setDebugReg (s : State) (r : Nat) (w : Word) : State :=
  if r < 16 then s.setKreg r w
  else if r == 16 then
    s.setKiln { s.kiln with pc := w &&& 0xFFFFFFFE, zeroFresh := false, side := s.kiln.side.map (fun op => { op with fresh := false }) }
  else if r == 17 then s.setSysReg 0 w
  else s.setSysReg (r - 18) w

/-! ## Threads (R529) -/

/-- A request to halt thread `t` at its next slot. -/
def threadHalt (s : State) (t : Nat) : State :=
  match (s.thr t).state with
  | .ready | .blocked => s.setThr t { s.thr t with halt := true }
  | _ => s

/-- A halted thread goes on as it was. -/
def threadResume (s : State) (t : Nat) : State :=
  match (s.thr t).state with
  | .halted => s.setThr t { s.thr t with state := (s.thr t).before, halt := false }
  | _ => s.setThr t { s.thr t with halt := false }

/-- A write of a halt or resume register: each thread whose bit is 1, from thread `lo`. -/
def eachThread (s : State) (lo : Nat) (w : Word) (f : State → Nat → State) : State := (bitList w).foldl (fun s i => f s (lo + i)) s

/-- The halted threads from `lo`, a bit each. -/
def State.haltedSet (s : State) (lo : Nat) : Word :=
  BitVec.ofNat 32 ((List.range 32).foldl (fun w i => w + cond ((s.thr (lo + i)).state == .halted) (2 ^ i) 0) 0)

/-- Flags as status bits [3:0]. -/
def Flags.word (f : Flags) : Word := BitVec.ofNat 32 (cond f.n 8 0 + cond f.z 4 0 + cond f.c 2 0 + cond f.v 1 0)

/-- Register `r` of the selected thread: only while it is halted. -/
def State.threadReg (s : State) (r : Nat) : Word :=
  let t := s.fld DBG_THR_SEL DBG_THR_SEL_thread
  let x := s.thr t
  if x.state != .halted then 0 else if r < 16 then s.treg t r else if r == 16 then x.pc else x.flags.word

/-! ## Bench tests (R532) -/

/-- A write of DBG_BENCH.start: under the Bench profile, unlocked. -/
def benchStart (s : State) (w : Word) : State :=
  if s.isBench && s.unlocked then s.setFld DBG_BENCH DBG_BENCH_start (s.fld DBG_BENCH DBG_BENCH_start ||| getF w DBG_BENCH_start) else s

/-- Bench test `i` ends with a result. -/
def benchDone (s : State) (i result : Nat) : State :=
  let start := s.fld DBG_BENCH DBG_BENCH_start
  if i < 4 && start.testBit i then
    let s := (s.setFld DBG_BENCH DBG_BENCH_start (start - 2 ^ i)).setFld DBG_BENCH DBG_BENCH_result result
    s.setFld DBG_BENCH DBG_BENCH_done (s.fld DBG_BENCH DBG_BENCH_done ||| 2 ^ i)
  else s

/-! ## The DBG block -/

/-- Whether a DBG register is served while the device is locked (R524). -/
def dbgOpen (a : Nat) : Bool := a == DBG_AUTH || (DBG_AUTH_NONCE 0 ≤ a && a < DBG_AUTH_NONCE 8) || (DBG_AUTH_DATA 0 ≤ a && a < DBG_AUTH_DATA 32)

/-- An access of Kiln memory through DBG_MEM_DATA (R526): refused with mem_err while Kiln runs. -/
def debugMem (s : State) (wr : Option Word) (seen : List Nat) : State :=
  let a := (s.reg DBG_MEM_ADDR).toNat
  if !s.kiln.halted then s.setBit DBG_KILN_CTRL DBG_KILN_CTRL_mem_err true
  else match wr with
    | some w => (busWrite0 (s.setReg DBG_MEM_DATA w) iniKiln a (leBytes 4 w.toNat) seen).s
    | none => let r := busRead0 s iniKiln a 4 seen; r.s.setReg DBG_MEM_DATA (BitVec.ofNat 32 (leOf r.data))

/-- A write of DBG_KILN_CTRL. Its request bits halt, resume and step are taken with the write and read 0 after it (DESIGN CHOICE: the manual does not say when a
W1S request bit clears; assumption 25). -/
def kilnCtrlWrite (s : State) (w : Word) : State :=
  let s := if bitOf w DBG_KILN_CTRL_mem_err then s.setBit DBG_KILN_CTRL DBG_KILN_CTRL_mem_err false else s
  let s := if bitOf w DBG_KILN_CTRL_halt then kilnHalt s else s
  let s := if bitOf w DBG_KILN_CTRL_step then kilnStep s else s
  if bitOf w DBG_KILN_CTRL_resume then kilnResume s else s

/-- A register write to the DBG block. -/
def dbgWrite (s : State) (a : Nat) (w : Word) : State :=
  if a == DBG_AUTH then authWrite s w
  else if DBG_AUTH_DATA 0 ≤ a ∧ a < DBG_AUTH_DATA 32 then s.setReg a w
  else if !s.unlocked then s
  else if a == DBG_KILN_CTRL then kilnCtrlWrite s w
  else if a == DBG_MEM_DATA then debugMem s (some w) []
  else if DBG_KILN_REG 0 ≤ a ∧ a < DBG_KILN_REG 28 then (if s.kiln.halted then setDebugReg s ((a - DBG_KILN_REG 0) / 4) w else s)
  else if a == DBG_THR_HALT_LO then eachThread s 0 w threadHalt
  else if a == DBG_THR_HALT_HI then eachThread s 32 w threadHalt
  else if a == DBG_THR_RESUME_LO then eachThread s 0 w threadResume
  else if a == DBG_THR_RESUME_HI then eachThread s 32 w threadResume
  else if a == DBG_BENCH then benchStart (s.writeCodes a (setF w DBG_BENCH_start 0)) w
  else s.writeCodes a w

/-- A register read of the DBG block. -/
def dbgRead (s : State) (a : Nat) : State × Word :=
  if !dbgOpen a ∧ !s.unlocked then (s, 0)
  else if a == DBG_MEM_DATA then let s := debugMem s none []; (s, s.reg DBG_MEM_DATA)
  else if DBG_KILN_REG 0 ≤ a ∧ a < DBG_KILN_REG 28 then (s, if s.kiln.halted then s.debugReg ((a - DBG_KILN_REG 0) / 4) else 0)
  else if a == DBG_THR_HALT_LO then (s, s.haltedSet 0)
  else if a == DBG_THR_HALT_HI then (s, s.haltedSet 32)
  else if DBG_THR_REG 0 ≤ a ∧ a < DBG_THR_REG 18 then (s, s.threadReg ((a - DBG_THR_REG 0) / 4))
  else (s.readClears a, s.readCodes a)

/-! ## The whole map -/

/-- A read of `n` bytes by an initiator at any Kiln address; `out` says that a wrapper passed its request earlier (R32). -/
def busFinish (s : State) (out : Bool) (i : Ini) (a n : Nat) (seen : List Nat) : Access :=
  if a / 0x10000 == 0x4030 then
    match regRefusal s i a n with
    | some s => .error s
    | none => let r := dbgRead s a; ⟨r.1, leBytes 4 r.2.toNat, false, false⟩
  else busReadOut s out i a n seen

/-- A read of `n` bytes by an initiator at any Kiln address, as a new request. -/
def busRead (s : State) (i : Ini) (a n : Nat) (seen : List Nat) : Access := busFinish s false i a n seen

/-- A write by an initiator at any Kiln address. -/
def busWrite (s : State) (i : Ini) (a : Nat) (bs : List Byte) (seen : List Nat) : Access :=
  if a / 0x10000 == 0x4030 then
    match regRefusal s i a bs.length with
    | some s => .error s
    | none => ⟨dbgWrite s a (BitVec.ofNat 32 (leOf bs)), [], false, false⟩
  else busWrite0 s i a bs seen

/-! ## JTAG (R519 to R522) -/

/-- Whether the boundary instructions act (R521). -/
def State.extestOn (s : State) : Bool := s.unlocked && (s.curProfile == 3 || s.curProfile == 0xFF)

/-- A JTAG instruction selects a code, and a shift gives out `bits`. -/
def jtagOut (s : State) (ir bits : Nat) : State := { s with jtag := { s.jtag with ir := ir, out := bits } }

/-- BYPASS: the one-bit register captures 0. -/
def jtagBypass (s : State) : State := { jtagOut s 0xFF 0 with jtag := { s.jtag with ir := 0xFF, out := 0, cells := [] } }

/-- EXTEST and its IEEE 1149.6 forms drive the boundary cells, or select BYPASS (R521). -/
def jtagExtest (s : State) (ir : Nat) (cells : List (Nat × Bool)) : State :=
  if s.extestOn then { s with jtag := { s.jtag with ir := ir, cells := cells } } else jtagBypass s

/-- SAMPLE/PRELOAD: the chain captures the levels of its pins, as the shift gives them. -/
def jtagSample (s : State) (levels : Nat) : State := { jtagOut s 1 levels with jtag := { s.jtag with ir := 1, out := levels, cells := [] } }

/-- IDCODE (R519). -/
def jtagIdcode (s : State) : State := jtagOut s 2 0x209609A7

/-- FUSESTAT: FUSE_STAT shifts out. -/
def jtagFusestat (s : State) : State := jtagOut s 0x20 (s.readCodes FUSE_STAT).toNat

/-- DBGACC (R522): the shift gives out what the access before it read, with its error bit; the access runs in Update-DR. Inside the DBG block it is
made as Kiln's at Supervisor is; outside, from crossbar port 8 at Supervisor, and only while the device is unlocked. -/
def jtagAccess (s : State) (a : Nat) (wr : Bool) (data : Word) (seen : List Nat) : State :=
  let s := jtagOut s 0x21 (s.jtag.data + cond s.jtag.err (2 ^ 64) 0)
  let a := a / 4 * 4
  let r : Access :=
    if a / 0x10000 == 0x4030 then
      if dbgOpen a || s.unlocked then (if wr then busWrite s iniKiln a (leBytes 4 data.toNat) seen else busRead s iniKiln a 4 seen) else .error s
    else if !s.unlocked then .error s
    else if wr then busWrite s ⟨8, true⟩ a (leBytes 4 data.toNat) seen else busRead s ⟨8, true⟩ a 4 seen
  { r.s with jtag := { r.s.jtag with data := leOf r.data, err := r.err } }

end Sys2Proof.Machine
end

