-- ==== Sys2Proof/Machine/Flags.lean ====
section
/-! DEFINITION. Results and flags of the arithmetic and logical instructions (R218, R220, R222, R223). -/

namespace Sys2Proof.Machine

/-- The flags in status bits [3:0]. -/
def Flags.of (w : Word) : Flags := ⟨w.getLsbD 3, w.getLsbD 2, w.getLsbD 1, w.getLsbD 0⟩

/-- Whether a condition code passes (Table 11-2); 0xF is reserved. -/
def condPasses (f : Flags) (cond : Nat) : Bool :=
  match cond with
  | 0x0 => true
  | 0x1 => f.z
  | 0x2 => !f.z
  | 0x3 => f.c
  | 0x4 => !f.c
  | 0x5 => f.n
  | 0x6 => !f.n
  | 0x7 => f.v
  | 0x8 => !f.v
  | 0x9 => f.c && !f.z
  | 0xA => !f.c || f.z
  | 0xB => f.n == f.v
  | 0xC => f.n != f.v
  | 0xD => !f.z && f.n == f.v
  | 0xE => f.z || f.n != f.v
  | _ => false

/-- The condition code that cc2 selects (Table 11-2). -/
def cc2Cond (cc : Nat) : Nat := match cc with | 0 => 0x0 | 1 => 0x1 | 2 => 0x2 | _ => 0xC

/-- A sum with a carry in, and all four flags of it: c the carry out, v the signed overflow. -/
def addFlags (a b : Word) (cin : Bool) : Word × Flags :=
  let n := a.toNat + b.toNat + cond cin 1 0
  let r := BitVec.ofNat 32 n
  (r, ⟨r.msb, r == 0, 2 ^ 32 ≤ n, a.msb == b.msb && r.msb != a.msb⟩)

/-- A difference less 1 − cin, and all four flags of it: c is 1 when no borrow occurs. -/
def subFlags (a b : Word) (cin : Bool) : Word × Flags := addFlags a (~~~b) cin

/-- The flags of a logical result: n and z of it, c from the last bit shifted out when there is one, v unchanged. -/
def logicFlags (f : Flags) (r : Word) (out : Option Bool) : Flags := ⟨r.msb, r == 0, out.getD f.c, f.v⟩

/-- A word shifted by 0 to 31 (type 0 LSL, 1 LSR, 2 ASR, 3 ROR), and the last bit shifted out when the amount is not 0. -/
def shiftOut (x : Word) (kind k : Nat) : Word × Option Bool :=
  let out := if k == 0 then none else some (x.getLsbD (if kind == 0 then 32 - k else k - 1))
  match kind with
  | 0 => (x <<< k, out)
  | 1 => (x >>> k, out)
  | 2 => (x.sshiftRight k, out)
  | _ => (x.rotateRight k, out)

/-- The leading zeros of a word, 0 to 32. -/
def leadingZeros (x : Word) : Nat := 32 - ((List.range 32).filter (fun i => x.getLsbD i)).foldl (fun _ i => i + 1) 0

/-- The result of DIV (R233), truncated toward zero; none for a divisor of 0. -/
def sideQuot (u : Bool) (a b : Word) : Option Word := if b == 0 then none else some (if u then BitVec.ofNat 32 (a.toNat / b.toNat) else BitVec.ofInt 32 (a.toInt.tdiv b.toInt))

/-- The result of MODR (R233), with the sign of ra. -/
def sideRem (u : Bool) (a b : Word) : Option Word := if b == 0 then none else some (if u then BitVec.ofNat 32 (a.toNat % b.toNat) else BitVec.ofInt 32 (a.toInt.tmod b.toInt))

/-- The 64-bit product of MUL64. -/
def sideProd (u : Bool) (a b : Word) : DWord := if u then BitVec.ofNat 64 (a.toNat * b.toNat) else BitVec.ofInt 64 (a.toInt * b.toInt)

end Sys2Proof.Machine
end

