-- ==== Sys2Proof/Machine/Operands.lean ====
section
/-! DEFINITION. Instruction words (R217, R220, R221, Tables 11-3 to 11-8): their fields, the undefined encodings (R216, R219, R556), and the operand
forms: the shifted register, the immediates and the addressing modes (R224). -/

namespace Sys2Proof.Machine

/-- An instruction as fetched: its word, a 16-bit form zero-extended, and its length in bytes. -/
structure Ins where
  word : Nat
  len : Nat
deriving DecidableEq, Repr

/-- The instruction of an opcode: op5 in the 16-bit form, op6 in the 32-bit form. -/
def Form.ins (f : Form) (op5 op6 : Nat) : Ins :=
  match f with
  | .short cc arg => ⟨op5 * 2 ^ 11 + cc.toNat * 2 ^ 9 + arg.toNat, 2⟩
  | .long cc arg => ⟨3 * 2 ^ 30 + cc.toNat * 2 ^ 26 + op6 * 2 ^ 20 + arg.toNat, 4⟩

/-- A SYS instruction of a sub-op: [8:0] of the 16-bit form, [11:0] of the 32-bit form. -/
def Form.sys (f : Form) (sub : Nat) : Ins :=
  match f with
  | .short cc _ => Form.ins (.short cc (BitVec.ofNat 9 sub)) 0x16 0x2E
  | .long cc arg => Form.ins (.long cc (BitVec.ofNat 20 (arg.toNat / 2 ^ 12 * 2 ^ 12 + sub))) 0x16 0x2E

/-- A thread-only instruction whose bits [11:8] have a given value in the bits of `mask`. -/
def threadOp (cc : BitVec 4) (arg : BitVec 20) (op6 mask sub : Nat) : Ins :=
  Form.ins (.long cc (BitVec.ofNat 20 ((arg.toNat &&& (0xFFFFF - mask * 2 ^ 8)) + sub * 2 ^ 8))) 0 op6

/-! ## Fields -/

/-- Whether the instruction has the 32-bit form. -/
def Ins.isLong (i : Ins) : Bool := i.len == 4

/-- Bits `[hi:lo]` of an instruction word. -/
def Ins.bits (i : Ins) (hi lo : Nat) : Nat := bitsN i.word hi lo

/-- The opcode: op6, or op5. -/
def Ins.op (i : Ins) : Nat := if i.isLong then i.bits 25 20 else i.bits 15 11

/-- The condition code. -/
def Ins.cond (i : Ins) : Nat := if i.isLong then i.bits 29 26 else cc2Cond (i.bits 10 9)

/-- The register fields of a 32-bit form. -/
def Ins.rd (i : Ins) : Nat := i.bits 19 16
def Ins.ra (i : Ins) : Nat := i.bits 15 12
def Ins.rb (i : Ins) : Nat := i.bits 3 0
def Ins.rh (i : Ins) : Nat := i.bits 7 4

/-- The f bit of the R form, and the u bit of the S form. -/
def Ins.f (i : Ins) : Bool := i.word.testBit 11

/-- Fields of a 16-bit form: bit 8 and rd of layout A, its rs (rd of layout B), and imm5. -/
def Ins.f16 (i : Ins) : Bool := i.word.testBit 8
def Ins.rd16 (i : Ins) : Nat := i.bits 7 4
def Ins.rs16 (i : Ins) : Nat := i.bits 3 0
def Ins.imm5 (i : Ins) : Nat := i.bits 8 4

/-- The registers of the mask of LDM and STM, ascending. -/
def Ins.mask (i : Ins) : List Nat := (List.range 16).filter (fun r => if r < 12 then i.word.testBit r else i.word.testBit (r + 4))

/-- The element size of BMOV and BFILL, and the polynomial code of BCRC. -/
def Ins.kind (i : Ins) : Nat := i.bits 11 10

/-! ## Undefined encodings -/

/-- Whether the registers or fields that a thread-only form does not use are 0 (R556), and its sub-op is none that Table 11-8 reserves. -/
def threadFormOk (i : Ins) : Bool :=
  let sub := i.bits 11 8
  let d := i.rd == 0
  let a := i.ra == 0
  let b := i.rb == 0
  i.rh == 0 &&
    match i.op with
    | 0x38 => sub == 0 && b
    | 0x39 => sub == 0 && d
    | 0x3A => sub ≤ 5 && d
    | 0x3B => sub == 0 && b
    | 0x3C => sub % 4 == 0 && sub / 4 < 3 && b
    | 0x3D => sub % 4 == 0 && d
    | 0x3E =>
      match sub with
      | 0 => true
      | 1 | 2 | 3 | 7 => d && b
      | 4 => d && a && b
      | 5 | 6 => a && b
      | 8 => d
      | _ => false
    | _ =>
      match sub with
      | 0 => a && b
      | 1 => d
      | 2 => d && b
      | 3 => d && a && b
      | _ => false

/-- Whether a 32-bit form is a defined encoding (R219, Table 11-5), the system register of MRS and MSR aside. -/
def longFormOk (i : Ins) : Bool :=
  let regs := i.rd != i.ra && i.rb != i.rd && i.rb != i.ra
  i.bits 29 26 != 0xF &&
    match i.op with
    | 0x09 | 0x0A => i.ra == 0
    | 0x0B | 0x0C => i.rd == 0
    | 0x0D => i.bits 10 4 == 0
    | 0x0E => i.bits 8 4 == 0
    | 0x0F => i.ra == 0 && i.bits 10 4 == 0
    | 0x15 => i.rd == 0
    | 0x18 | 0x19 | 0x1A | 0x1B | 0x1C | 0x1D | 0x1E | 0x1F => i.kind != 3 || i.rh == 0
    | 0x20 => i.kind == 0 || (i.kind == 3 && i.rh == 0)
    | 0x21 | 0x22 => !i.mask.isEmpty && !i.mask.contains i.ra
    | 0x23 => i.bits 9 4 == 0 && i.kind != 3 && regs
    | 0x24 => i.bits 9 4 == 0 && i.kind != 3 && i.rb != i.rd && i.rb != i.ra
    | 0x25 => i.bits 9 4 == 0 && i.kind != 3 && regs
    | 0x26 | 0x27 => i.bits 10 8 == 0 && i.rh == 0
    | 0x28 => i.bits 10 8 == 0 && i.rh != i.rd
    | 0x2C => i.rd == 0 && i.ra == 0 && i.bits 10 4 == 0
    | 0x2D => i.rd == 0 && i.ra == 0
    | 0x2E => i.rd == 0 && i.ra == 0 && i.bits 11 0 ≤ 5
    | 0x2F => i.ra == 0
    | 0x30 => i.rd == 0
    | op => op < 0x31 || (0x38 ≤ op && threadFormOk i)

/-- Whether a 16-bit form is a defined encoding (Table 11-3). -/
def shortFormOk (i : Ins) : Bool :=
  match i.op with
  | 0x06 | 0x15 => !i.f16
  | 0x13 => i.rd16 == 0
  | 0x16 => i.bits 8 0 ≤ 5
  | op => op < 0x17

/-- Whether an instruction is undefined for Kiln or for a thread: not a defined encoding, or of a group that the processor lacks (Table 11-1). -/
def undefIns (kiln : Bool) (i : Ins) : Bool :=
  if i.isLong then
    !longFormOk i ||
      (if kiln then 0x38 ≤ i.op
       else (0x21 ≤ i.op && i.op ≤ 0x28) || i.op == 0x2D || i.op == 0x2F || i.op == 0x30 || (i.op == 0x2E && i.bits 11 0 != 0))
  else !shortFormOk i || (!kiln && i.op == 0x16 && i.bits 8 0 != 0)

/-! ## Operands -/

/-- The registers of a processor, as an operand form reads them. -/
abbrev Regs := Nat → Word

/-- sh(rb): rb shifted as the R form's fields give, and the last bit shifted out. -/
def Ins.shRb (i : Ins) (g : Regs) : Word × Option Bool := shiftOut (g i.rb) (i.bits 10 9) (i.bits 8 4)

/-- imm12, sign-extended and zero-extended. -/
def Ins.immS (i : Ins) : Word := BitVec.ofInt 32 (signed 12 i.word)
def Ins.immZ (i : Ins) : Word := BitVec.ofNat 32 (i.bits 11 0)

/-- imm16. -/
def Ins.imm16 (i : Ins) : Nat := i.bits 15 0

/-- imm5, sign-extended. -/
def Ins.imm5S (i : Ins) : Word := BitVec.ofInt 32 (signed 5 i.imm5)

/-- The target of B and CALL: the instruction's own address and a signed halfword offset. -/
def Ins.target (i : Ins) (pc : Word) : Word := pc + BitVec.ofInt 32 (2 * signed (if i.isLong then 20 else 9) i.word)

/-- The effective address of an M form, and the base register's value afterwards where it changes (R224). -/
def Ins.ea (i : Ins) (g : Regs) (size : Nat) : Word × Option Word :=
  let base := g i.ra
  let off := base + BitVec.ofInt 32 (signed 10 i.word * size)
  match i.kind with
  | 0 => (off, none)
  | 1 => (base, some off)
  | 2 => (off, some off)
  | _ => (base + (g i.rb <<< i.bits 9 8), none)

/-- A load or store (R220, R222, R226): address, bytes, the register, whether it loads, sign extension, the data of a store, and the base register's
new value. -/
structure MemOp where
  addr : Word
  size : Nat
  reg : Nat
  load : Bool
  sext : Bool
  base : Option (Nat × Word)

/-- The access of an M form. -/
def Ins.memM (i : Ins) (g : Regs) (size : Nat) (load sext : Bool) : MemOp :=
  let e := i.ea g size
  ⟨e.1, size, i.rd, load, sext, e.2.map (fun w => (i.ra, w))⟩

/-- The access of the 16-bit LD and ST. -/
def Ins.memA (i : Ins) (g : Regs) (load : Bool) : MemOp :=
  ⟨g i.rs16, 4, i.rd16, load, false, if i.f16 then some (i.rs16, g i.rs16 + 4) else none⟩

/-- The access of LDSP and STSP. -/
def Ins.memSp (i : Ins) (g : Regs) (load : Bool) : MemOp := ⟨g 13 + BitVec.ofNat 32 (4 * i.imm5), 4, i.rs16, load, false, none⟩

/-- A loaded value of `size` bytes, extended. -/
def extend (size : Nat) (sext : Bool) (v : Nat) : Word := if sext then BitVec.ofInt 32 (signed (8 * size) v) else BitVec.ofNat 32 v

end Sys2Proof.Machine
end

