-- ==== Sys2Proof/Machine/Alu.lean ====
section
/-! DEFINITION. The instructions that touch registers, flags and the pc alone (R220, R222, R223, R227): what each one does on either processor. -/

namespace Sys2Proof.Machine

/-- What such an instruction does: it writes at most one register and at most all four flags, or it jumps with or without a link. -/
inductive Eff where
  | write (reg : Option (Nat × Word)) (flags : Option Flags)
  | jump (link : Bool) (target : Word)

/-- The operands of a register form in either length: destination, first operand, second operand with the last bit shifted out, and whether f asks for
the flags. -/
structure RForm where
  d : Nat
  a : Word
  b : Word
  out : Option Bool
  f : Bool

/-- Layout A: rd is the first operand and the destination, rs the second. R form: ra, and sh(rb). -/
def Ins.rForm (i : Ins) (g : Regs) : RForm :=
  if i.isLong then let s := i.shRb g; ⟨i.rd, g i.ra, s.1, s.2, i.f⟩ else ⟨i.rd16, g i.rd16, g i.rs16, none, i.f16⟩

/-- An arithmetic result, with its flags when they are asked for. -/
def arith (d : Nat) (r : Word × Flags) (f : Bool) : Eff := .write (some (d, r.1)) (if f then some r.2 else none)

/-- A logical result. -/
def logic (d : Nat) (r : Word) (old : Flags) (out : Option Bool) (f : Bool) : Eff := .write (some (d, r)) (if f then some (logicFlags old r out) else none)

def effMov (i : Ins) (g : Regs) (fl : Flags) : Eff := let r := i.rForm g; logic r.d r.b fl r.out r.f
def effAdd (i : Ins) (g : Regs) : Eff := let r := i.rForm g; arith r.d (addFlags r.a r.b false) r.f
def effSub (i : Ins) (g : Regs) : Eff := let r := i.rForm g; arith r.d (subFlags r.a r.b true) r.f
def effAnd (i : Ins) (g : Regs) (fl : Flags) : Eff := let r := i.rForm g; logic r.d (r.a &&& r.b) fl r.out r.f
def effOr (i : Ins) (g : Regs) (fl : Flags) : Eff := let r := i.rForm g; logic r.d (r.a ||| r.b) fl r.out r.f
def effXor (i : Ins) (g : Regs) (fl : Flags) : Eff := let r := i.rForm g; logic r.d (r.a ^^^ r.b) fl r.out r.f

/-- CMP and TST write flags whatever f is. -/
def effCmp (i : Ins) (g : Regs) : Eff := let r := i.rForm g; .write none (some (subFlags r.a r.b true).2)
def effTst (i : Ins) (g : Regs) (fl : Flags) : Eff := let r := i.rForm g; .write none (some (logicFlags fl (r.a &&& r.b) r.out))

def effAdc (i : Ins) (g : Regs) (fl : Flags) : Eff := let r := i.rForm g; arith r.d (addFlags r.a r.b fl.c) r.f
def effSbc (i : Ins) (g : Regs) (fl : Flags) : Eff := let r := i.rForm g; arith r.d (subFlags r.a r.b fl.c) r.f
def effRsb (i : Ins) (g : Regs) : Eff := let r := i.rForm g; arith r.d (subFlags r.b r.a true) r.f
def effBic (i : Ins) (g : Regs) (fl : Flags) : Eff := let r := i.rForm g; logic r.d (r.a &&& ~~~r.b) fl r.out r.f
def effMvn (i : Ins) (g : Regs) (fl : Flags) : Eff := let r := i.rForm g; logic r.d (~~~r.b) fl r.out r.f

/-- MUL and CLZ write n and z alone. -/
def effMul (i : Ins) (g : Regs) (fl : Flags) : Eff := logic i.rd (g i.ra * g i.rb) fl none i.f
def effClz (i : Ins) (g : Regs) (fl : Flags) : Eff := logic i.rd (BitVec.ofNat 32 (leadingZeros (g i.rb))) fl none i.f

/-- SHV shifts ra by rb[4:0]. -/
def effShv (i : Ins) (g : Regs) (fl : Flags) : Eff :=
  let r := shiftOut (g i.ra) (i.bits 10 9) ((g i.rb).toNat % 32)
  logic i.rd r.1 fl r.2 i.f

/-- MOVI: imm5 zero-extended. -/
def effMovi (i : Ins) : Eff := .write (some (i.rs16, BitVec.ofNat 32 i.imm5)) none

/-- ADDI: the 16-bit form always writes the flags, the 32-bit form never. -/
def effAddi (i : Ins) (g : Regs) : Eff :=
  if i.isLong then arith i.rd (addFlags (g i.ra) i.immS false) false else arith i.rs16 (addFlags (g i.rs16) i.imm5S false) true

def effCmpi (i : Ins) (g : Regs) : Eff :=
  .write none (some (if i.isLong then subFlags (g i.ra) i.immS true else subFlags (g i.rs16) i.imm5S true).2)

/-- The 16-bit shifts, by imm5. -/
def effShift (i : Ins) (g : Regs) (fl : Flags) (kind : Nat) : Eff :=
  let r := shiftOut (g i.rs16) kind i.imm5
  logic i.rs16 r.1 fl r.2 true

def effNot (i : Ins) (g : Regs) (fl : Flags) : Eff := logic i.rd16 (~~~(g i.rs16)) fl none true
def effNeg (i : Ins) (g : Regs) : Eff := arith i.rd16 (subFlags 0 (g i.rs16) true) true
def effSubi (i : Ins) (g : Regs) : Eff := arith i.rd (subFlags (g i.ra) i.immS true) false
def effAndi (i : Ins) (g : Regs) : Eff := .write (some (i.rd, g i.ra &&& i.immZ)) none
def effOri (i : Ins) (g : Regs) : Eff := .write (some (i.rd, g i.ra ||| i.immZ)) none
def effXori (i : Ins) (g : Regs) : Eff := .write (some (i.rd, g i.ra ^^^ i.immZ)) none
def effMovw (i : Ins) : Eff := .write (some (i.rd, BitVec.ofNat 32 i.imm16)) none
def effMovt (i : Ins) (g : Regs) : Eff := .write (some (i.rd, BitVec.ofNat 32 (i.imm16 * 2 ^ 16 + (g i.rd).toNat % 2 ^ 16))) none

/-- LEA: imm10 is not scaled, and no access is made. -/
def effLea (i : Ins) (g : Regs) : Eff := .write (some (i.rd, (i.ea g 1).1)) none

/-- ADR counts from the instruction's own address. -/
def effAdr (i : Ins) (pc : Word) : Eff := .write (some (i.rd, pc + BitVec.ofInt 32 (2 * signed 16 i.word))) none

def effB (i : Ins) (pc : Word) : Eff := .jump false (i.target pc)
def effCall (i : Ins) (pc : Word) : Eff := .jump true (i.target pc)

/-- JR: the target is in rb or rs, and [11] or bit 8 asks for the link. -/
def effJr (i : Ins) (g : Regs) : Eff := if i.isLong then .jump i.f (g i.rb) else .jump i.f16 (g i.rs16)

end Sys2Proof.Machine
end

