-- ==== Sys2Proof/Machine/KilnCore.lean ====
section
/-! DEFINITION. Taking an exception on Kiln and returning from one (R251 to R264), the store buffer (R244 to R246), the side unit (R233, R249, R250),
and the issue of an instruction (R218, R219, R252, R525, R526, R528). -/

namespace Sys2Proof.Machine

/-! ## Accessors -/

/-- Kiln's flags. -/
def State.kflags (s : State) : Flags := Flags.of s.kiln.status

/-- Whether Kiln is at Supervisor. -/
def State.ksup (s : State) : Bool := s.kiln.status.getLsbD 4

/-- The state with status bits [3:0] from flags. -/
def setKflags (s : State) (f : Flags) : State := s.setKiln { s.kiln with status := (s.kiln.status &&& 0xFFFFFFF0) ||| f.word }

/-- The elements that an interrupted long block instruction has still to do. -/
def State.prog (s : State) : Nat := s.kiln.status.toNat / 2 ^ 16

/-- The state with status.prog set. -/
def setProg (s : State) (n : Nat) : State := s.setKiln { s.kiln with status := (s.kiln.status &&& 0xFFFF) ||| BitVec.ofNat 32 (n * 2 ^ 16) }

/-- The pc set; it is always even (R214). -/
def setKpc (s : State) (pc : Word) : State := s.setKiln { s.kiln with pc := pc &&& 0xFFFFFFFE }

/-- An instruction of `len` bytes completes and the next one follows; prog is left at 0 (R229). -/
def kdone (s : State) (len : Nat) : State := setProg (setKpc s (s.kiln.pc + BitVec.ofNat 32 len)) 0

/-- Everything fetched is discarded (R242). -/
def unfetch (s : State) : State := s.setKiln { s.kiln with held := [] }

/-- The byte at an address as fetch has it: the one it holds, where a store has changed memory since, and memory's elsewhere (R247). -/
def State.fetchByte (s : State) (a : Nat) : Byte := (s.kiln.held.lookup a).getD (BitVec.ofNat 8 (s.peekLE a 1))

/-- The address after the `n` instructions fetched from `a` on (R217). -/
def State.pastFetched (s : State) (a : Nat) : Nat → Nat
  | 0 => a
  | n + 1 => s.pastFetched (a + (if (s.fetchByte (a + 1)).toNat / 64 == 3 then 4 else 2)) n

/-- The instructions fetched after instruction `i` that it discards when it branches: two for a JR, one for a B or CALL (R242). -/
def Ins.discards (i : Ins) : Nat := if (if i.isLong then i.op == 0x2C else i.op == 0x13) then 2 else 1

/-- What fetch still holds once instruction `i` at the pc has branched: what lies after the instructions discarded (R242, R247). -/
def branchHeld (s : State) (i : Ins) : State :=
  let cut := s.pastFetched (s.kiln.pc.toNat + i.len) i.discards
  s.setKiln { s.kiln with held := s.kiln.held.filter (fun e => cut ≤ e.1) }

/-- Instruction `i` completes with a taken branch (R531). -/
def kjump (s : State) (i : Ins) (target : Word) : State := trace (setProg (setKpc (branchHeld s i) target) 0) 1 0 0 target.toNat

/-- Whether an address lies in ITCM or DTCM. -/
def inTcm (a : Nat) : Bool := (0x100000 ≤ a && a < 0x120000) || (0x200000 ≤ a && a < 0x220000)

/-- Whether an address lies in the register-block region (R253, R259). -/
def inRegs (a : Nat) : Bool := 0x40000000 ≤ a

/-! ## The store buffer -/

/-- Whether two byte ranges overlap. -/
def overlaps (a n b m : Nat) : Bool := a < b + m && b < a + n

/-- Whether an entry of the buffer overlaps `n` bytes at `a`. -/
def State.buffered (s : State) (a n : Nat) : Bool := s.kiln.sb.any (fun e => overlaps a n e.1 e.2.length)

/-- A load that waited for a store to leave reads once none that it overlaps is left (R245): the wrapper at its address passes the request then, or refuses it
(R32). -/
def loadAsks (s : State) : State :=
  match s.kiln.load with
  | some l =>
    if l.asked || s.buffered l.addr l.size then s
    else s.setKiln { s.kiln with load := some { l with asked := true, opened := s.passes l.addr, via := (s.target l.addr).block } }
  | none => s

/-- The oldest entry of the store buffer is accepted by its target port and leaves (R244); an error response becomes an imprecise bus error (R246).
`seen` is what a memory device returns to a partial write. A store to the register-block
region was made at Supervisor (R259). -/
def storeIssue (s : State) (seen : List Nat) : State :=
  match s.kiln.sb with
  | [] => s
  | (a, bs) :: rest =>
    let r := busWrite (s.setKiln { s.kiln with sb := rest }) iniKiln a bs seen
    loadAsks (if r.err then r.s.setKiln { r.s.kiln with late := r.s.kiln.late ++ [(4, BitVec.ofNat 32 a, 0)] } else r.s)

/-- The oldest `n` entries leave. -/
def storeDrain (s : State) : Nat → State
  | 0 => s
  | n + 1 => storeDrain (storeIssue s []) n

/-- Every entry leaves. -/
def drainAll (s : State) : State := storeDrain s s.kiln.sb.length

/-- The data that the youngest overlapping entry forwards, where it holds every byte of the load (R245). -/
def State.forwarded (s : State) (a n : Nat) : Option (List Byte) :=
  match s.kiln.sb.reverse.find? (fun e => overlaps a n e.1 e.2.length) with
  | some (b, bs) => if b ≤ a && a + n ≤ b + bs.length then some ((bs.drop (a - b)).take n) else none
  | none => none

/-- The buffer left until no entry overlaps `n` bytes at `a`. -/
def drainOver (s : State) (a n : Nat) : State :=
  let young := s.kiln.sb.reverse.takeWhile (fun e => !overlaps a n e.1 e.2.length)
  storeDrain s (s.kiln.sb.length - young.length)

/-- The bytes of the current instruction, of `len` bytes, and of the 16 beyond it that a store of `n` bytes at `a` is about to change, as fetch holds them
(R247); bytes that lie behind the pc are forgotten. -/
def State.holds (s : State) (len a n : Nat) : List (Nat × Byte) :=
  let pc := s.kiln.pc.toNat
  let new := (List.range n).filterMap fun k =>
    if pc ≤ a + k && a + k < pc + len + 16 && (s.kiln.held.lookup (a + k)).isNone then some (a + k, BitVec.ofNat 8 (s.peekLE (a + k) 1)) else none
  s.kiln.held.filter (fun e => pc ≤ e.1) ++ new

/-- A store of `n` bytes at `a` leaves what fetch holds as it is (R247). -/
def keepFetched (s : State) (len a n : Nat) : State :=
  if overlaps a n s.kiln.pc.toNat (len + 16) then s.setKiln { s.kiln with held := s.holds len a n } else s

/-- A store by Kiln: to a TCM it completes; otherwise it enters the buffer, whose oldest entry leaves first when it is full (R244). -/
def kstore (s : State) (a : Nat) (bs : List Byte) : State :=
  if inTcm a then s.setBytes a bs
  else
    let s := if 8 ≤ s.kiln.sb.length then storeIssue s [] else s
    s.setKiln { s.kiln with sb := s.kiln.sb ++ [(a, bs)] }

/-! ## Entry (R254 to R258, R263) -/

/-- Lockup: Kiln stops issuing, and LOCKUP_N and HOST_DB bit 31 follow. -/
def lockUp (s : State) : State := hostDbSet (s.setKiln { s.kiln with lockup := true, waiting := false, load := none, haltReq := false }) 31

/-- The entries on the origin stack. -/
def State.originDepth (s : State) : Nat := s.kiln.origin.toNat / 2 ^ 28

/-- The origin stack with an entry of a kind and the present privilege pushed (R262). -/
def pushOrigin (s : State) (fast : Bool) : State :=
  let d := s.originDepth
  let entry := (d + 1) * 2 ^ 28 + (s.kiln.origin.toNat % 2 ^ 28 + cond fast (2 ^ (8 + d)) 0 + cond s.ksup (2 ^ d) 0)
  s.setKiln { s.kiln with origin := BitVec.ofNat 32 entry }

/-- The top entry popped: its bits are cleared. -/
def popOrigin (s : State) : State :=
  let d := s.originDepth - 1
  let keep := 2 ^ d - 1
  s.setKiln { s.kiln with origin := BitVec.ofNat 32 (d * 2 ^ 28) ||| (s.kiln.origin &&& BitVec.ofNat 32 (keep * 257)) }

/-- The address of vector entry e (R256). -/
def State.vectorAt (s : State) (e : Nat) : Nat := 0x200000 + s.kiln.vbar.toNat % 64 * 2048 + 4 * e

/-- Words written upward from an address, on the Supervisor stack: the first error or poison response ends it (R263). -/
def pushWords (s : State) (a : Nat) : List Word → State × Bool
  | [] => (s, true)
  | w :: ws =>
    if inTcm a then pushWords (s.setBytes a (leBytes 4 w.toNat)) (a + 4) ws
    else
      let r := busWrite s iniKiln a (leBytes 4 w.toNat) []
      if r.err || r.poison then (r.s, false) else pushWords r.s (a + 4) ws

/-- Words 4 to 7 of a frame (R257, Table 12-5): the abandoned side-unit operation, or 0 and what the manual leaves open; word 7 names the instruction that
divided by zero. -/
def sideWords (s : State) (fault : Option Word) : State × List Word :=
  match s.kiln.side with
  | some op => (s.setKiln { s.kiln with side := none }, [op.word, op.ra, op.rb, fault.getD op.addr])
  | none =>
    let (a, s) := s.draw
    let (b, s) := s.draw
    match fault with
    | some w => (s, [0, a, b, w])
    | none => let (c, s) := s.draw; (s, [0, a, b, c])

/-- The frame of an entry for vector e is written and its handler entered (Table 12-4): `side` are words 4 to 7. A fault during the entry ends it there, and
Kiln locks up (R263). -/
def enterFrame (s : State) (e : Nat) (pc : Word) (imprecise : Bool) (info status : Word) (side : List Word) : State :=
  if 8 ≤ s.originDepth then lockUp s
  else
    let s := pushOrigin s false
    let s := s.setKiln { s.kiln with status := (status &&& 0x0F0F) ||| 0x10 }
    let vec := s.peekLE (s.vectorAt e) 4
    let ssp := s.kiln.ssp
    if vec % 2 == 1 || ssp.toNat % 8 != 0 then lockUp s
    else
      let base := ssp - 32
      let s := if inTcm base.toNat then s else drainOver s base.toNat 32
      let cause := BitVec.ofNat 32 (cond imprecise (2 ^ 31) 0 + e)
      match pushWords s base.toNat ([pc, status, cause, info] ++ side) with
      | (s, false) => lockUp s
      | (s, true) =>
        let s := s.setKiln { s.kiln with ssp := base }
        trace (setKpc s (BitVec.ofNat 32 vec)) 2 0 e pc.toNat

/-- An entry begins: what waits, is in flight or is fetched is given up, and the source that is taken, if any, becomes ACTIVE. -/
def entryBegins (s : State) (src : Option Nat) : State :=
  let s := s.setKiln { s.kiln with waiting := false, load := none, zeroFresh := false, held := [] }
  match src with
  | some n => intcTake s n
  | none => s

/-- Whether an address lies in Falornyr's own code, the body of its image in CSRAM, and whether in what it keeps beside: DTCM, where its vector table and
counters lie, and the frame at its stack pointer (DEDUCED, assumption 100). -/
def State.ownCode (s : State) (a : Nat) : Bool := s.fw.image.any (fun i => 0x10000000 ≤ a && a < 0x10000000 + i.code.length)
def State.ownData (s : State) (a : Nat) : Bool := (0x200000 ≤ a && a < 0x220000) || (s.kiln.ssp.toNat ≤ a && a < s.kiln.ssp.toNat + 32)

/-- What Falornyr's handler of a bus error or memory-data fault notes (R509): code that is to be repaired, or that it stops kicking the watchdog. -/
def noteOwnFault (s : State) (e a : Nat) : State :=
  if !s.fw.running || !(e == 4 || e == 5) then s
  else if s.ownCode a then { s with fw := { s.fw with mend := some a } }
  else if s.ownData a then { s with fw := { s.fw with broken := true } }
  else s

/-- A framed entry for vector e: frame pc, imprecise, info, the address of a divide by zero, and the source that is taken (Table 12-4). -/
def framedEntry (s : State) (e : Nat) (pc : Word) (imprecise : Bool) (info : Word) (fault : Option Word) (src : Option Nat) : State :=
  let side := sideWords (entryBegins (noteOwnFault s e info.toNat) src) fault
  enterFrame side.1 e pc imprecise info s.kiln.status side.2

/-- A precise exception of the current instruction. -/
def kfault (s : State) (e : Nat) (info : Word) : State := framedEntry s e s.kiln.pc false info none none

/-- What cause.imprecise says of the first reported exception: 0 only for a divide by zero that the BARRIER directly after it meets (R250). -/
def State.lateImprecise (s : State) (barrier : Bool) : Bool :=
  match s.kiln.late with
  | (6, _, _) :: _ => !(barrier && s.kiln.zeroFresh)
  | _ => true

/-- The first reported imprecise exception is taken (R252). -/
def takeLate (s : State) (imprecise : Bool) : State :=
  match s.kiln.late with
  | [] => s
  | (e, info, w7) :: rest =>
    framedEntry (s.setKiln { s.kiln with late := rest }) e s.kiln.pc imprecise info (if e == 6 then some w7 else none) none

/-- The interrupt source that is recognisable (R253, R342). -/
def State.recognisable (s : State) : Option Nat :=
  if s.kiln.status.getLsbD 7 then s.offered.filter (fun n => bitsN s.kiln.status.toNat 11 8 < s.fld (INTC_SRC n) INTC_SRC_prio) else none

/-- Whether a source ends a WAIT (R237). -/
def State.wakes (s : State) : Bool :=
  match s.offered with
  | some n => bitsN s.kiln.status.toNat 11 8 < s.fld (INTC_SRC n) INTC_SRC_prio
  | none => false

/-- The checks of R252 that come before issue: the state once an entry is taken, where one is. `barrier` says whether a BARRIER is to issue next, and `due`
is the interrupt that was recognisable as Kiln came here, waiting or not (R237, R343). -/
def boundary (s : State) (barrier : Bool) (due : Option Nat) : Option State :=
  if !s.kiln.late.isEmpty then some (takeLate s (s.lateImprecise barrier))
  else match due with
    | some n => some (framedEntry s (32 + n) s.kiln.pc false 0 none (some n))
    | none => none

/-! ## The side unit -/

/-- The destination registers of a side-unit operation. -/
def sideDests (w : Word) : List Nat := let i : Ins := ⟨w.toNat, 4⟩; if i.op == 0x28 then [i.rd, i.rh] else [i.rd]

/-- The side unit completes (R233, R249, R250): it writes its registers, g13 being that of the privilege it issued at, or reports a divisor of zero. -/
def sideComplete (s : State) : State :=
  match s.kiln.side with
  | none => s
  | some op =>
    let i : Ins := ⟨op.word.toNat, 4⟩
    let s := s.setKiln { s.kiln with side := none }
    if i.op == 0x28 then
      let p := sideProd i.f op.ra op.rb
      (s.setKregAt op.sup i.rd (BitVec.ofNat 32 p.toNat)).setKregAt op.sup i.rh (BitVec.ofNat 32 (p.toNat / 2 ^ 32))
    else
      match if i.op == 0x26 then sideQuot i.f op.ra op.rb else sideRem i.f op.ra op.rb with
      | some r => s.setKregAt op.sup i.rd r
      | none => s.setKiln { s.kiln with sidePc := op.addr, zeroFresh := op.fresh, late := s.kiln.late ++ [(6, 0, op.addr)] }

/-- An operation issues to the side unit at the present privilege (R249). -/
def sideIssue (s : State) (w ra rb : Word) (at_ : Word) (fresh : Bool) : State :=
  s.setKiln { s.kiln with side := some ⟨w, ra, rb, at_, fresh, s.ksup⟩ }

/-- The registers that an instruction reads or writes, as its encoding names them (R249). -/
def Ins.regs (i : Ins) : List Nat :=
  if i.isLong then
    match i.op with
    | 0x09 | 0x0A | 0x0F => [i.rd, i.rb]
    | 0x0B | 0x0C => [i.ra, i.rb]
    | 0x10 | 0x11 | 0x12 | 0x13 | 0x14 => [i.rd, i.ra]
    | 0x15 | 0x30 => [i.ra]
    | 0x16 | 0x17 | 0x29 | 0x2F => [i.rd]
    | 0x18 | 0x19 | 0x1A | 0x1B | 0x1C | 0x1D | 0x1E | 0x1F | 0x20 => if i.kind == 3 then [i.rd, i.ra, i.rb] else [i.rd, i.ra]
    | 0x21 | 0x22 => i.ra :: i.mask
    | 0x28 => [i.rd, i.ra, i.rb, i.rh]
    | 0x2A | 0x2D | 0x2E => []
    | 0x2B => [14]
    | 0x2C => if i.f then [14, i.rb] else [i.rb]
    | _ => [i.rd, i.ra, i.rb]
  else
    match i.op with
    | 0x07 | 0x08 | 0x09 | 0x0A | 0x0B | 0x0C => [i.rs16]
    | 0x0F | 0x10 => [i.rs16, 13]
    | 0x11 | 0x16 => []
    | 0x12 => [14]
    | 0x13 => if i.f16 then [14, i.rs16] else [i.rs16]
    | _ => [i.rd16, i.rs16]

/-- The general registers with both banks of g13 apart: 13 is SSP and 16 is USP (R259). -/
def bankOf (sup : Bool) (r : Nat) : Nat := if r == 13 && !sup then 16 else r

/-- The stack pointers that a system instruction reads or writes beside the registers of its encoding, as `bankOf` numbers them: ERET its frame's (R261),
MRS and MSR the one they name (R264). -/
def Ins.stacks (i : Ins) : List Nat :=
  if i.isLong then
    match i.op with
    | 0x2E => if i.bits 11 0 == 4 then [13] else []
    | 0x2F | 0x30 => match i.bits 11 0 with | 2 => [16] | 3 => [13] | _ => []
    | _ => []
  else if i.op == 0x16 && i.bits 8 0 == 4 then [13] else []

/-- Whether an instruction waits in D for the side unit (R249). -/
def State.stalls (s : State) (i : Ins) : Bool :=
  match s.kiln.side with
  | none => false
  | some op =>
    let dests := (sideDests op.word).map (bankOf op.sup)
    (i.isLong && 0x26 ≤ i.op && i.op ≤ 0x28) || (i.regs.map (bankOf s.ksup) ++ i.stacks).any dests.contains

/-! ## Comparators (R524, R528) -/

/-- The instruction comparator that matches at an address. -/
def State.bpMatch (s : State) (pc : Word) : Option Nat :=
  if s.unlocked then (List.range 4).find? (fun k => s.bit (DBG_BP k) DBG_BP_enable && s.fld (DBG_BP k) DBG_BP_addr == pc.toNat / 2) else none

/-- The data comparator that matches an access of `n` bytes at `a`. -/
def State.wpMatch (s : State) (write : Bool) (a n : Nat) : Option Nat :=
  if s.unlocked then
    (List.range 4).find? (fun k =>
      s.bit (DBG_WP_CTRL k) DBG_WP_CTRL_enable && (s.fld (DBG_WP_CTRL k) DBG_WP_CTRL_kind).testBit (cond write 1 0) &&
        a ≤ (s.reg (DBG_WP_HI k)).toNat && (s.reg (DBG_WP_LO k)).toNat < a + n)
  else none

/-- A match halts Kiln, or takes exception 9. -/
def matchTaken (s : State) (halt : Bool) (info : Nat) : State := if halt then haltNow s else kfault s 9 (BitVec.ofNat 32 info)

/-- A data comparator has matched. -/
def wpTaken (s : State) (k a : Nat) : State :=
  let s := s.setReg DBG_HIT (BitVec.ofNat 32 a)
  matchTaken s (s.bit (DBG_WP_CTRL k) DBG_WP_CTRL_halt) (0x200 + k)

/-! ## Issue -/

/-- Whether Kiln runs: the islands are released, and it is neither locked up nor halted, or is to make a step. -/
def State.kilnRuns (s : State) : Bool := s.ember.phase == .run && !s.kiln.lockup && (!s.kiln.halted || s.kiln.step)

/-- A WAIT that a source above ipl ends completes (R237). -/
def wakeUp (s : State) : State :=
  if s.kiln.waiting then kdone (s.setKiln { s.kiln with waiting := false }) s.kiln.waitLen else s

/-- A step ends when its instruction has completed: a load or a WAIT may still hold it. -/
def stepEnd (s : State) : State := if s.kiln.load.isSome || s.kiln.waiting then s else s.setKiln { s.kiln with step := false }

/-- Whether an instruction is BARRIER in either length. -/
def Ins.isBarrier (i : Ins) : Bool := if i.isLong then i.op == 0x2E && i.bits 11 0 == 1 else i.op == 0x16 && i.bits 8 0 == 1

/-- Whether an instruction would issue as BARRIER, its encoding being defined (R219) and its condition passing. -/
def State.atBarrier (s : State) (i : Ins) : Bool := i.isBarrier && !undefIns true i && condPasses s.kflags i.cond

/-- An instruction issues behind the side unit: what BARRIER tells of the instruction just before it holds for the next one only (R250). -/
def behindSide (s : State) (barrier : Bool) : State :=
  if barrier || (s.kiln.side.isNone && s.kiln.late.isEmpty) then s else s.setKiln { s.kiln with zeroFresh := false, side := s.kiln.side.map (fun op => { op with fresh := false }) }

/-- The instruction issues, no event having been found before it: an instruction comparator, an undefined encoding, a condition that fails, or its own
effect. -/
def issueIns (s : State) (i : Ins) (body : State → State) : State :=
  let pass := condPasses s.kflags i.cond
  match if pass && !s.kiln.step then s.bpMatch s.kiln.pc else none with
  | some k => matchTaken s (s.bit (DBG_WP_CTRL 0) DBG_WP_CTRL_halt) (0x100 + k)
  | none =>
    let s := behindSide s (s.atBarrier i)
    if undefIns true i then kfault s 1 (BitVec.ofNat 32 i.word)
    else if !pass then
      let s := setKpc s (s.kiln.pc + BitVec.ofNat 32 i.len)
      if i.isLong && 0x21 ≤ i.op && i.op ≤ 0x25 then setProg s 0 else s
    else body s

/-- Kiln comes to an instruction boundary with instruction `i` next (R252): a halt, a WAIT, an exception or an interrupt goes before it. -/
def kilnIssue (s : State) (i : Ins) (body : State → State) : State :=
  if !s.kilnRuns || s.kiln.load.isSome then s
  else if s.kiln.haltReq then haltNow s
  else if s.kiln.waiting && !s.wakes then s
  else
    let due := s.recognisable
    let s := wakeUp s
    if s.kiln.step then stepEnd (issueIns (if s.stalls i then sideComplete s else s) i body)
    else match boundary s (s.atBarrier i) due with
      | some t => t
      | none =>
        let s := if s.stalls i then sideComplete s else s
        if s.kiln.late.isEmpty then issueIns s i body else takeLate s true

end Sys2Proof.Machine
end

