-- ==== Sys2Proof/Machine/KilnOps.lean ====
section
/-! DEFINITION. What each kind of instruction does on Kiln (chapters 11 and 12): register effects, loads and stores, long block instructions, side-unit and
system instructions; entry, the store buffer and returning loads as events. -/

namespace Sys2Proof.Machine

/-- An effect on registers, flags and pc; a JR to an odd target takes the alignment fault (R225). -/
def kEff (s : State) (i : Ins) (e : Eff) : State :=
  match e with
  | .write reg flags =>
    let s := match reg with | some (r, w) => s.setKreg r w | none => s
    let s := match flags with | some f => setKflags s f | none => s
    kdone s i.len
  | .jump link target =>
    if target.getLsbD 0 then kfault s 3 target
    else kjump (if link then s.setKreg 14 (s.kiln.pc + BitVec.ofNat 32 i.len) else s) i target

/-! ## Loads and stores -/

/-- A load's data has come: the base register, then the destination (R226). -/
def loadWrite (s : State) (m : KLoad) (v : Nat) : State :=
  let s := match m.base with | some (r, w) => s.setKreg r w | none => s
  kdone (s.setKreg m.rd (extend m.size m.sext v)) m.len

/-- A load or store of Kiln (R224 to R226, R243 to R245, R259, R528). -/
def kMem (s : State) (i : Ins) (m : MemOp) : State :=
  let a := m.addr.toNat
  if a % m.size != 0 then kfault s 3 m.addr
  else if inRegs a && !s.ksup then kfault s 2 (BitVec.ofNat 32 i.word)
  else match s.wpMatch (!m.load) a m.size with
    | some k => wpTaken s k a
    | none =>
      if m.load then
        let asks := !s.buffered a m.size
        let l : KLoad := ⟨a, m.size, m.sext, m.reg, m.base, i.len, asks, asks && s.passes a, if asks then (s.target a).block else none, false⟩
        if inTcm a then loadWrite s l (leOf (s.bytes a m.size))
        else match s.forwarded a m.size with
          | some bs => loadWrite s l (leOf bs)
          | none => s.setKiln { s.kiln with load := some l }
      else
        let s := kstore (keepFetched s i.len a m.size) a (leBytes m.size (s.kreg m.reg).toNat)
        let s := match m.base with | some (r, w) => s.setKreg r w | none => s
        kdone s i.len

/-- The data of the load that holds the pipeline returns (R243); it waits while a buffered store overlaps it (R245). An error or poison response is a precise
fault. A wrapper that passed the load lets it complete after its block begins to stop, unless it has answered it with an error (R32, R36, R37). -/
def loadReturn (s : State) (seen : List Nat) : State :=
  match s.kiln.load with
  | none => s
  | some l =>
    if s.kiln.lockup || s.ember.phase != .run || s.buffered l.addr l.size then s
    else
      let r : Access := if l.failed then .error s else busFinish s l.opened iniKiln l.addr l.size seen
      let s := r.s.setKiln { r.s.kiln with load := none }
      let at_ := BitVec.ofNat 32 l.addr
      let s := if r.err then kfault s 4 at_ else if r.poison then kfault s 5 at_ else loadWrite s l (leOf r.data)
      if s.kiln.haltReq then haltNow s else if s.kiln.step then stepEnd s else s

/-! ## Long block instructions (R229 to R232) -/

/-- What an element of a long block instruction gives: done, or a stop before it with the exception's number and info, or a data comparator. -/
inductive Elem where
  | done (s : State)
  | fault (s : State) (e : Nat) (info : Word)
  | hit (k a : Nat)

/-- An element read (R243, R245): a store that overlaps it leaves the buffer first, or forwards its data. -/
def elemRead (s : State) (i : Ins) (a n : Nat) (next : State → Nat → Elem) : Elem :=
  let at_ := BitVec.ofNat 32 a
  if inRegs a && !s.ksup then .fault s 2 (BitVec.ofNat 32 i.word)
  else match s.wpMatch false a n with
    | some k => .hit k a
    | none =>
      if inTcm a then next s (leOf (s.bytes a n))
      else match s.forwarded a n with
        | some bs => next s (leOf bs)
        | none =>
          let r := busRead (drainOver s a n) iniKiln a n []
          if r.err then .fault r.s 4 at_ else if r.poison then .fault r.s 5 at_ else next r.s (leOf r.data)

/-- An element write. -/
def elemWrite (s : State) (i : Ins) (a n v : Nat) (next : State → Elem) : Elem :=
  if inRegs a && !s.ksup then .fault s 2 (BitVec.ofNat 32 i.word)
  else match s.wpMatch true a n with
    | some k => .hit k a
    | none => next (kstore (keepFetched s i.len a n) a (leBytes n v))

/-- A register advanced by a number of bytes. -/
def advance (s : State) (r : Nat) (by_ : Word) : State := s.setKreg r (s.kreg r + by_)

/-- LDM with `left` elements to do: the lowest of the registers left is loaded (R230). -/
def elemLdm (s : State) (i : Ins) (left : Nat) : Elem :=
  let a := (s.kreg i.ra).toNat
  let r := (i.mask.drop (i.mask.length - left)).headD 0
  elemRead s i a 4 (fun s v => .done (advance (s.setKreg r (BitVec.ofNat 32 v)) i.ra 4))

/-- STM: the highest of the registers left is stored, below ra (R230). -/
def elemStm (s : State) (i : Ins) (left : Nat) : Elem :=
  let a := (s.kreg i.ra - 4).toNat
  let r := (i.mask.take left).getLastD 0
  elemWrite s i a 4 (s.kreg r).toNat (fun s => .done (advance s i.ra (-4)))

/-- BMOV: one element copied (R231). -/
def elemBmov (s : State) (i : Ins) (_left : Nat) : Elem :=
  let n := 2 ^ i.kind
  elemRead s i (s.kreg i.ra).toNat n fun s v =>
    elemWrite s i (s.kreg i.rd).toNat n v fun s =>
      .done (advance (advance s i.rd (BitVec.ofNat 32 n)) i.ra (BitVec.ofNat 32 n))

/-- BFILL: the low bits of ra written (R231). -/
def elemBfill (s : State) (i : Ins) (_left : Nat) : Elem :=
  let n := 2 ^ i.kind
  elemWrite s i (s.kreg i.rd).toNat n (s.kreg i.ra).toNat (fun s => .done (advance s i.rd (BitVec.ofNat 32 n)))

/-- One bit of a reflected CRC. -/
def reflBit (poly : Nat) (c : Nat) : Nat := if c % 2 == 1 then (c / 2) ^^^ poly else c / 2

/-- A byte folded into a reflected CRC. -/
def reflFold (poly acc b : Nat) : Nat := (List.range 8).foldl (fun c _ => reflBit poly c) (acc ^^^ b)

/-- BCRC: one byte folded into the accumulator (R232). -/
def elemBcrc (s : State) (i : Ins) (_left : Nat) : Elem :=
  elemRead s i (s.kreg i.ra).toNat 1 fun s v =>
    let acc := (s.kreg i.rd).toNat
    let r := match i.kind with
      | 0 => reflFold 0x82F63B78 acc v
      | 1 => reflFold 0xEDB88320 acc v
      | _ => reflFold 0x8408 (acc % 2 ^ 16) v
    .done (advance (s.setKreg i.rd (BitVec.ofNat 32 r)) i.ra 1)

/-- Elements done one after another, `fuel` of them at most, with `left` to do: the last completes the instruction. -/
def elements (i : Ins) (one : State → Ins → Nat → Elem) : Nat → Nat → State → State
  | _, 0, s => kdone s i.len
  | 0, left, s => setProg s left
  | fuel + 1, left + 1, s =>
    match one s i (left + 1) with
    | .done s => elements i one fuel left s
    | .fault s e info => kfault (setProg s (left + 1)) e info
    | .hit k a => wpTaken (setProg s (left + 1)) k a

/-- A long block instruction (R229): it starts with its count, or resumes with prog. `limit` is how many elements it does before the next boundary that an
interrupt may use; a step completes them all (R526). LDM and STM have no more elements than their mask. -/
def kBlock (s : State) (i : Ins) (limit count : Nat) (aligned : Option Word) (one : State → Ins → Nat → Elem) : State :=
  let left := if s.prog == 0 then count else if i.op < 0x23 then min s.prog count else s.prog
  match if count == 0 && s.prog == 0 then none else aligned with
  | some a => kfault s 3 a
  | none => elements i one (if s.kiln.step then left else limit) left s

/-- The count of BMOV, BFILL and BCRC. -/
def State.blockCount (s : State) (i : Ins) : Nat := (s.kreg i.rb).toNat % 2 ^ 16

/-- The first pointer that is not a multiple of the element size (R225). -/
def State.misaligned (s : State) (n : Nat) : List Nat → Option Word
  | [] => none
  | r :: rs => if (s.kreg r).toNat % n != 0 then some (s.kreg r) else s.misaligned n rs

def kLdm (s : State) (i : Ins) (limit : Nat) : State := kBlock s i limit i.mask.length (s.misaligned 4 [i.ra]) elemLdm
def kStm (s : State) (i : Ins) (limit : Nat) : State := kBlock s i limit i.mask.length (s.misaligned 4 [i.ra]) elemStm
def kBmov (s : State) (i : Ins) (limit : Nat) : State := kBlock s i limit (s.blockCount i) (s.misaligned (2 ^ i.kind) [i.ra, i.rd]) elemBmov
def kBfill (s : State) (i : Ins) (limit : Nat) : State := kBlock s i limit (s.blockCount i) (s.misaligned (2 ^ i.kind) [i.rd]) elemBfill

/-- BCRC: its elements are bytes, so its pointer is always aligned. -/
def kBcrc (s : State) (i : Ins) (limit : Nat) : State := kBlock s i limit (s.blockCount i) none elemBcrc

/-! ## The side unit and system instructions -/

/-- DIV, MODR and MUL64 issue to the side unit (R249). -/
def kSide (s : State) (i : Ins) : State :=
  kdone (sideIssue s (BitVec.ofNat 32 i.word) (s.kreg i.ra) (s.kreg i.rb) s.kiln.pc true) i.len

/-- SVC (R260, R263): fast at User, framed at Supervisor. -/
def kSvc (s : State) (i : Ins) : State :=
  let next := s.kiln.pc + BitVec.ofNat 32 i.len
  if s.ksup then framedEntry s 7 next false i.immZ none none
  else if 8 ≤ s.originDepth then lockUp s
  else
    let k := s.kiln
    let s := pushOrigin s true
    let s := s.setKiln { s.kiln with svcPc := next, svcStatus := k.status, svcNum := i.immZ, status := (k.status &&& 0xFFFF) ||| 0x10 }
    unfetch (setKpc s k.svcVec)

/-- MRS (R238, R264). -/
def kMrs (s : State) (i : Ins) : State :=
  let n := i.bits 11 0
  match s.sysReg n with
  | none => kfault s 1 (BitVec.ofNat 32 i.word)
  | some w => if n != 0 && !s.ksup then kfault s 2 (BitVec.ofNat 32 i.word) else kdone (s.setKreg i.rd w) i.len

/-- MSR (R238, R259, R264): at User only the flags of status; a write of status at Supervisor keeps the prog that it writes. -/
def kMsr (s : State) (i : Ins) : State :=
  let n := i.bits 11 0
  let w := s.kreg i.ra
  match s.sysReg n with
  | none => kfault s 1 (BitVec.ofNat 32 i.word)
  | some _ =>
    if !s.ksup then (if n == 0 then kdone (setKflags s (Flags.of w)) i.len else kfault s 2 (BitVec.ofNat 32 i.word))
    else if n == 0 then (kdone s i.len).setSysReg 0 w
    else kdone (s.setSysReg n w) i.len

/-- BARRIER (R235, R246, R250): the side unit completes and the buffer drains; an exception that either reports is taken at the BARRIER, a divide by zero of
the instruction just before it precisely. -/
def kBarrier (s : State) (i : Ins) : State :=
  let s := drainAll (sideComplete s)
  if s.kiln.late.isEmpty then kdone s i.len else takeLate s (s.lateImprecise true)

/-- Whether the instruction may run at the present privilege; else the privilege fault (R238). -/
def kPriv (s : State) (i : Ins) (body : State → State) : State := if s.ksup then body s else kfault s 2 (BitVec.ofNat 32 i.word)

/-- IFLUSH (R236, R248): the store buffer drains, and what is fetched is discarded. -/
def kIflush (s : State) (i : Ins) : State := kPriv s i (fun s => kdone (unfetch (drainAll s)) i.len)

/-- WAIT (R237): Kiln waits at it until a source above ipl is pending. -/
def kWait (s : State) (i : Ins) : State :=
  kPriv s i (fun s => if s.wakes then kdone s i.len else s.setKiln { s.kiln with waiting := true, waitLen := i.len })

/-- PRIV_RETURN (R262). -/
def privReturn (s : State) : State :=
  let d := s.originDepth
  let fast := d != 0 && s.kiln.origin.getLsbD (8 + d - 1)
  kfault s 8 (if fast then 0 else s.kiln.ssp)

/-- Whether the privilege that an ERET would restore differs from that of the top origin entry, or there is no entry. -/
def State.originBad (s : State) (status : Word) : Bool :=
  let d := s.originDepth
  d == 0 || status.getLsbD 4 != s.kiln.origin.getLsbD (d - 1)

/-- `n` words read from an address, as Kiln reads its stack; the exception and address of the first that fails. -/
def stackRead (s : State) (a : Nat) : Nat → State × List Word × Option (Nat × Nat)
  | 0 => (s, [], none)
  | n + 1 =>
    let r : Access := if inTcm a then ⟨s, s.bytes a 4, false, false⟩ else busRead (drainOver s a 4) iniKiln a 4 []
    if r.err then (r.s, [], some (4, a))
    else if r.poison then (r.s, [], some (5, a))
    else
      let t := stackRead r.s (a + 4) n
      (t.1, BitVec.ofNat 32 (leOf r.data) :: t.2.1, t.2.2)

/-- Whether a word encodes DIV, MODR or MUL64. -/
def sideWord (w : Word) : Bool := let i : Ins := ⟨w.toNat, 4⟩; i.bits 31 30 == 3 && 0x26 ≤ i.op && i.op ≤ 0x28 && !undefIns true i

/-- ERET of a framed entry: words 0, 1 and 4 to 6 (R261). An operation that it reissues waits for the unit, has the address in word 7, and is just before
the next instruction where the pc that returns follows it (R250). -/
def eretFrame (s : State) (i : Ins) : State :=
  let ssp := s.kiln.ssp
  if ssp.toNat % 4 != 0 then kfault s 3 ssp
  else
  let lo := stackRead s ssp.toNat 2
  match lo.2.2 with
  | some (e, a) => kfault lo.1 e (BitVec.ofNat 32 a)
  | none =>
    let hi := stackRead lo.1 (ssp.toNat + 16) 3
    match hi.2.2 with
    | some (e, a) => kfault hi.1 e (BitVec.ofNat 32 a)
    | none =>
      let s := hi.1
      let pc := lo.2.1.getD 0 0
      let status := lo.2.1.getD 1 0 &&& statusBits
      let w := hi.2.1.getD 0 0
      if s.originBad status then privReturn s
      else if w != 0 && !sideWord w then kfault s 1 (BitVec.ofNat 32 i.word)
      else
        let s := popOrigin (if w != 0 then sideComplete s else s)
        let s := s.setKiln { s.kiln with status := status, ssp := ssp + 32 }
        let at_ := BitVec.ofNat 32 (s.peekLE (ssp.toNat + 28) 4)
        let s := if w != 0 then sideIssue s w (hi.2.1.getD 1 0) (hi.2.1.getD 2 0) at_ (at_ + 4 == pc) else s
        trace (unfetch (setKpc s pc)) 3 0 0 pc.toNat

/-- ERET (R261, R262). -/
def kEret (s : State) (i : Ins) : State :=
  kPriv s i fun s =>
    let d := s.originDepth
    if d != 0 && s.kiln.origin.getLsbD (8 + d - 1) then
      let status := s.kiln.svcStatus &&& statusBits
      if s.originBad status then privReturn s
      else
        let pc := s.kiln.svcPc
        let s := popOrigin s
        trace (unfetch (setKpc (s.setKiln { s.kiln with status := status }) pc)) 3 0 0 pc.toNat
    else if d == 0 then privReturn s
    else eretFrame s i

/-- BRK (R528). -/
def kBrk (s : State) : State := if s.unlocked && s.bit DBG_CTRL DBG_CTRL_brk_halt then haltNow s else kfault s 9 0

/-! ## Events -/

/-- The halfword at an address as fetch has it: the bytes it holds, where a store has changed memory since, and memory elsewhere (R247). -/
def fetchHalf (s : State) (a : Nat) : State × Except Nat Nat :=
  match s.kiln.held.lookup a, s.kiln.held.lookup (a + 1) with
  | some lo, some hi => (s, .ok (leOf [lo, hi]))
  | lo, hi =>
    let r := busRead s iniKiln a 2 []
    if r.err then (r.s, .error 4)
    else if r.poison then (r.s, .error 5)
    else (r.s, .ok (leOf [lo.getD (r.data.getD 0 0), hi.getD (r.data.getD 1 0)]))

/-- The instruction that lies at the pc, as fetch has it (R217); or the exception of the fetch. -/
def fetchAt (s : State) : State × Except Nat Ins :=
  let pc := s.kiln.pc.toNat
  match fetchHalf s pc with
  | (s, .error e) => (s, .error e)
  | (s, .ok h) =>
    if h / 2 ^ 14 != 3 then (s, .ok ⟨h, 2⟩)
    else match fetchHalf s (pc + 2) with
      | (s, .error e) => (s, .error e)
      | (s, .ok t) => (s, .ok ⟨h * 2 ^ 16 + t, 4⟩)

/-- Whether the instruction that fetch has at the pc is a BARRIER to issue. -/
def State.fetchedBarrier (s : State) : Bool :=
  match (fetchAt s).2 with
  | .ok i => s.atBarrier i
  | .error _ => false

/-- The entry that is due (R252, R253): of a reported exception, of a recognisable interrupt, which cancels a load in flight from outside the register
blocks, or of a fault that fetch finds at the pc. Behind a load in flight a reported exception goes first, at the boundary that the load's return
brings. -/
def exceptionEntry (s : State) : State :=
  if !s.kilnRuns then s
  else match s.kiln.load with
    | some l =>
      match if inRegs l.addr || s.kiln.step || !s.kiln.late.isEmpty then none else s.recognisable with
      | some n => framedEntry s (32 + n) s.kiln.pc false 0 none (some n)
      | none => s
    | none =>
      if s.kiln.haltReq || (s.kiln.waiting && !s.wakes) then s
      else
        let due := s.recognisable
        let s := wakeUp s
        match if s.kiln.step then none else boundary s s.fetchedBarrier due with
        | some t => t
        | none =>
          match fetchAt s with
          | (t, .error e) => stepEnd (kfault t e s.kiln.pc)
          | (_, .ok i) => if undefIns true i then stepEnd (kfault s 1 (BitVec.ofNat 32 i.word)) else s

/-- STORE_BUFFER_ISSUE: it goes on in lockup and while Kiln is halted. -/
def storeBufferIssue (s : State) (seen : List Nat) : State := if s.ember.phase == .run then storeIssue s seen else s

/-- SIDE_UNIT_COMPLETE: it goes on while Kiln is halted (R525). -/
def sideUnitComplete (s : State) : State := if s.ember.phase == .run then sideComplete s else s

end Sys2Proof.Machine
end

