-- ==== Sys2Proof/Machine/ThreadOps.lean ====
section
/-! DEFINITION. What instructions do on a Kindling thread (R216, R266, R271 to R286, R292 to R307): their issue, registers and memory, ports, channels, threads,
locks and events. -/

namespace Sys2Proof.Machine

/-! ## Issue (R218, R219, R266, R556) -/

/-- What an instruction gives on a thread: it completes, blocks with a wait code and resource, frees its thread, or takes a thread exception. -/
inductive TRes where
  | done (s : State)
  | block (s : State) (wait res : Nat)
  | exit (s : State)
  | fault (cause : Nat)

/-- Thread `t` issues instruction `i` in the slot that it has been given. -/
def threadIssue (s : State) (t : Nat) (i : Ins) (body : State → TRes) : State :=
  if s.kind.slot != some t then s
  else
    let s := { s with kind := { s.kind with slot := none } }
    if undefIns false i then threadFault s t 1
    else if !condPasses (s.thr t).flags i.cond then threadDone s t i.len
    else match body s with
      | .done s => threadDone s t i.len
      | .block s wait res => threadBlock s t wait res
      | .exit s => { s with kind := { s.kind with armed := true } }
      | .fault c => threadFault s t c

/-- The cause with which the instruction at a thread's pc cannot issue: it lies beyond Kindling memory, or is undefined (R216, R219, R271). -/
def State.threadFetchFault (s : State) (t : Nat) : Option Nat :=
  let pc := (s.thr t).pc.toNat
  if 0x80000 < pc + 2 then some 3
  else
    let h := leOf (s.tbytes t (0x12000000 + pc) 2)
    if h / 2 ^ 14 != 3 then (if undefIns false ⟨h, 2⟩ then some 1 else none)
    else if 0x80000 < pc + 4 then some 3
    else if undefIns false ⟨h * 2 ^ 16 + leOf (s.tbytes t (0x12000000 + pc + 2) 2), 4⟩ then some 1
    else none

/-- One Kindling cycle (R269): stores whose time has come are seen by all (R266), the stall detector counts (R287), the clocks of the ports run (R295), the slot
is given, and its thread faults there where it has no instruction to issue. -/
def slotGive (s : State) : State :=
  let s := if s.blkOn 14 then clockCycle (landStores (stallCount s) (fun e => e.due ≤ s.kind.cyc)) else s
  let s := slotIssue s
  match if s.blkOn 14 then s.kind.slot else none with
  | none => s
  | some t =>
    match s.threadFetchFault t with
    | some c => threadFault { s with kind := { s.kind with slot := none } } t c
    | none => s

/-! ## Registers and memory -/

/-- The registers of thread `t`. -/
def State.tregs (s : State) (t : Nat) : Regs := s.treg t

/-- The state with a thread's flags set. -/
def setTflags (s : State) (t : Nat) (f : Flags) : State := s.setThr t { s.thr t with flags := f }

/-- The state with a thread's pc moved so that completion leaves it at `target`. -/
def setTpc (s : State) (t : Nat) (target : Word) (len : Nat) : State := s.setThr t { s.thr t with pc := target - BitVec.ofNat 32 len }

/-- An effect on registers, flags and pc. -/
def tEff (s : State) (t : Nat) (i : Ins) (e : Eff) : TRes :=
  match e with
  | .write reg flags =>
    let s := match reg with | some (r, w) => s.setTreg t r w | none => s
    .done (match flags with | some f => setTflags s t f | none => s)
  | .jump link target =>
    if target.getLsbD 0 then .fault 2
    else .done (setTpc (if link then s.setTreg t 14 ((s.thr t).pc + BitVec.ofNat 32 i.len) else s) t target i.len)

/-- A load or store of a thread (R224 to R226, R266, R271). -/
def tMem (s : State) (t : Nat) (m : MemOp) : TRes :=
  let a := m.addr.toNat
  if a % m.size != 0 then .fault 2
  else if 0x80000 < a + m.size then .fault 3
  else
    let home := 0x12000000 + a
    let s' := if m.load then s else threadStore s t home (leBytes m.size (s.treg t m.reg).toNat)
    let s' := match m.base with | some (r, w) => s'.setTreg t r w | none => s'
    .done (if m.load then s'.setTreg t m.reg (extend m.size m.sext (leOf (s.tbytes t home m.size))) else s')

/-! ## Ports (R292 to R307) -/

/-- A port operation as a thread's result: a port on which it blocks has wait code 6 (R307). -/
def tPort (t : Nat) (id : Word) (rd : Option Nat) (r : PortRes) : TRes :=
  match r with
  | .done s v => .done (match rd with | some d => s.setTreg t d v | none => s)
  | .block s => .block s 6 id.toNat
  | .fault c => .fault c

/-- An operation of the port that `id` names. -/
def withPort (s : State) (t : Nat) (id : Word) (rd : Option Nat) (op : Nat → PortRes) : TRes :=
  match portUse s t id with
  | .error c => .fault c
  | .ok n => tPort t id rd (op n)

def tIn (s : State) (t : Nat) (i : Ins) : TRes := withPort s t (s.treg t i.ra) (some i.rd) (portIn s)
def tOut (s : State) (t : Nat) (i : Ins) : TRes := withPort s t (s.treg t i.ra) none (fun n => portOut s n (s.treg t i.rb))
def tPts (s : State) (t : Nat) (i : Ins) : TRes := withPort s t (s.treg t i.ra) (some i.rd) (portPts s)

/-- PCFG of a sub-op (Tables 11-8 and 14-1): of a clock block when the identifier names one. -/
def tPcfg (s : State) (t : Nat) (i : Ins) : TRes :=
  let id := s.treg t i.ra
  let w := s.treg t i.rb
  let sub := i.bits 11 8
  if id.toNat / 256 == 5 then
    match clockUse id with
    | .error c => .fault c
    | .ok k =>
      match sub with
      | 0 => tPort t id none (pcfgCbSource s k w)
      | 1 => tPort t id none (pcfgCbGate s k w)
      | 2 => tPort t id none (pcfgCbTime s k KPORT_CB_TIME_hi w)
      | 3 => tPort t id none (pcfgCbTime s k KPORT_CB_TIME_lo w)
      | _ => .fault 1
  else
    withPort s t id none fun n =>
      match sub with
      | 0 => pcfgMode s t n w
      | 1 => pcfgCond s n w
      | 2 => pcfgCompare s n w
      | 3 => pcfgOutTime s n w
      | 4 => pcfgClock s n w
      | _ => pcfgWidth s n w

/-! ## Channels (R277 to R282) -/

/-- The channel end that an identifier names, when the thread owns it (R272, R277). -/
def endUse (s : State) (t : Nat) (id : Word) : Except Nat Nat :=
  let e := id.toNat % 256
  if id.toNat / 256 != 2 || 128 ≤ e then .error 4
  else if !(s.chEnd e).alloc || (s.chEnd e).owner != t then .error 5
  else .ok e

/-- An operation of the channel end that `id` names. -/
def withEnd (s : State) (t : Nat) (id : Word) (op : Nat → TRes) : TRes :=
  match endUse s t id with
  | .error c => .fault c
  | .ok e => op e

/-- An end's buffer after tokens are taken; a CT_ABORT that waited for room may now leave. -/
def setBuf (s : State) (e : Nat) (buf : List Nat) : State := pumpAborts (s.setEnd e { s.chEnd e with buf := buf })

/-- The result of CIN in rd, and z. -/
def cinDone (s : State) (t rd : Nat) (v : Nat) (z : Bool) : TRes :=
  let s := s.setTreg t rd (BitVec.ofNat 32 v)
  .done (setTflags s t { (s.thr t).flags with z := z })

/-- CIN (R282): a word or byte of data, or a control token. -/
def tCin (s : State) (t : Nat) (i : Ins) : TRes :=
  let id := s.treg t i.ra
  withEnd s t id fun e =>
    let buf := (s.chEnd e).buf
    let data := buf.takeWhile (fun w => tokClass w == 0)
    if i.kind == 2 then
      match buf with
      | [] => .block s 1 id.toNat
      | w :: rest => if tokClass w == 0 then cinDone s t i.rd 0 true else cinDone (setBuf s e rest) t i.rd w false
    else
      let n := if i.kind == 0 then 4 else 1
      if n ≤ data.length then cinDone (setBuf s e (buf.drop n)) t i.rd (leOf ((data.take n).map (BitVec.ofNat 8))) false
      else if data.length < buf.length then cinDone (setBuf s e (buf.drop data.length)) t i.rd 0 true
      else .block s 1 id.toNat

/-- COUT (R278 to R281): a word, a byte, a control token or CT_END. -/
def tCout (s : State) (t : Nat) (i : Ins) : TRes :=
  let id := s.treg t i.ra
  let v := (s.treg t i.rb).toNat
  withEnd s t id fun e =>
    if i.kind == 2 && 256 ≤ v then .fault 6
    else
      let toks := match i.kind with
        | 0 => (leBytes 4 v).map BitVec.toNat
        | 1 => [v % 256]
        | 2 => [0x100 + v]
        | _ => [ctEnd]
      match sendTokens s e toks with
      | .done s => .done s
      | .block s => .block s 2 id.toNat
      | .fault c => .fault c

/-- GETCH (R277). -/
def tGetch (s : State) (t : Nat) (i : Ins) : TRes :=
  match (List.range 128).find? (fun e => !(s.chEnd e).alloc && (s.routeInto e).isNone && !(s.chEnd e).out) with
  | some e => .done ((s.setEnd e { ChEnd.init with alloc := true, owner := t }).setTreg t i.rd (BitVec.ofNat 32 (0x200 + e)))
  | none => .done (s.setTreg t i.rd 0xFFFFFFFF)

/-- Whether an end has an open route in either direction. -/
def State.endBusy (s : State) (e : Nat) : Bool := (s.chEnd e).out || (s.routeInto e).isSome

/-- FREECH (R277). -/
def tFreech (s : State) (t : Nat) (i : Ins) : TRes :=
  withEnd s t (s.treg t i.ra) fun e => if s.endBusy e then .fault 10 else .done (freeEnd s e)

/-- ROUTE (R279): at once, or held while the route is open. -/
def tRoute (s : State) (t : Nat) (i : Ins) : TRes :=
  withEnd s t (s.treg t i.ra) fun e =>
    let v := (s.treg t i.rb).toNat
    if (if v.testBit 8 then v - v % 16 != 256 else 128 ≤ v) || v == e then .fault 4
    else
      let x := s.chEnd e
      .done (if x.out then s.setEnd e { x with held := some v } else (dropSender s e).setEnd e { x with dest := some v })

/-! ## Threads and locks (R273 to R275, R284) -/

/-- The lowest FREE thread of the pool. -/
def State.poolThread (s : State) : Option Nat :=
  (List.range 64).find? (fun n =>
    (s.reg (if n < 32 then KIND_POOL_LO else KIND_POOL_HI)).getLsbD (n % 32) && (s.thr n).state == .free)

/-- FORK (R273). -/
def tFork (s : State) (t : Nat) (i : Ins) : TRes :=
  match s.poolThread with
  | some n =>
    let s := threadStart s n (s.treg t i.ra) (s.treg t i.rb) (BitVec.ofNat 32 (0x400 + t)) (some t)
    .done (s.setTreg t i.rd (BitVec.ofNat 32 (0x400 + n)))
  | none => .done (s.setTreg t i.rd 0xFFFFFFFF)

/-- JOIN (R274). -/
def tJoin (s : State) (t : Nat) (i : Ins) : TRes :=
  let id := (s.treg t i.ra).toNat
  if id / 256 != 4 || 64 ≤ id % 256 then .fault 4
  else if (s.thr (id % 256)).parent != some t then .fault 8
  else if (s.thr (id % 256)).state == .free then .done s
  else .block s 4 id

/-- The lock that an identifier names. -/
def lockUse (id : Word) : Except Nat Nat := if id.toNat / 256 != 3 || 32 ≤ id.toNat % 256 then .error 4 else .ok (id.toNat % 256)

/-- LOCK (R284): a thread that blocked in this LOCK and has been granted it completes. -/
def tLock (s : State) (t : Nat) (i : Ins) : TRes :=
  let id := s.treg t i.ra
  match lockUse id with
  | .error c => .fault c
  | .ok l =>
    let x := s.lock l
    let waited := (s.thr t).wait == 3 && (s.thr t).res == id.toNat
    if x.holder == some t then (if waited then .done s else .fault 7)
    else if x.holder.isNone then .done (s.setLock l { x with holder := some t, waiters := x.waiters.filter (· != t) })
    else .block (s.setLock l { x with waiters := if x.waiters.contains t then x.waiters else x.waiters ++ [t] }) 3 id.toNat

/-- UNLOCK (R284). -/
def tUnlock (s : State) (t : Nat) (i : Ins) : TRes :=
  match lockUse (s.treg t i.ra) with
  | .error c => .fault c
  | .ok l => if (s.lock l).holder == some t then .done (passLock s l) else .fault 7

/-- TEXIT (R275). -/
def tTexit (s : State) (t : Nat) : TRes :=
  if (List.range 32).any (fun l => (s.lock l).holder == some t) || (s.endsOf t).any s.endBusy then .fault 10
  else .exit ((threadFree s t).count (KIND_T_ISSUE t) KIND_T_ISSUE_count)

def tTid (s : State) (t : Nat) (i : Ins) : TRes := .done (s.setTreg t i.rd (BitVec.ofNat 32 (0x400 + t)))

/-! ## Events (R285, R307, R346) -/

/-- Whether an armed resource is ready. -/
def State.eventReady (s : State) (id : Nat) : Bool :=
  match id / 256 with
  | 1 => s.portReady (id % 256)
  | 2 => !(s.chEnd (id % 256)).buf.isEmpty
  | _ => (s.reg KIND_DB).getLsbD (id % 256)

/-- EWAIT: the ready resource of the lowest identifier; a KIND_DB bit that it takes is cleared. -/
def tEwait (s : State) (t : Nat) (i : Ins) : TRes :=
  let armed := (s.thr t).events
  if armed.isEmpty then .fault 9
  else match armed.find? (fun e => s.eventReady e.1) with
    | none => .block s 5 0
    | some (id, vec) =>
      let s := if id / 256 == 7 then s.setReg KIND_DB (s.reg KIND_DB &&& ~~~(1#32 <<< (id % 256))) else s
      .done (s.setTreg t i.rd vec)

/-- The resource that EARM and EDIS take, or the cause: a port, a channel end that the thread owns, or a KIND_DB bit. -/
def armUse (s : State) (t : Nat) (id : Word) (arm : Bool) : Except Nat Nat :=
  match id.toNat / 256 with
  | 1 =>
    if 96 ≤ id.toNat % 256 then .error 4
    else if !arm then .ok id.toNat
    else match portUse s t id with
      | .error c => .error c
      | .ok n => if s.portMode n == 0 then .error 14 else .ok id.toNat
  | 2 => (endUse s t id).map (fun _ => id.toNat)
  | 7 => if 32 ≤ id.toNat % 256 then .error 4 else .ok id.toNat
  | _ => .error 4

/-- EARM: a ninth distinct resource is refused with cause 9. -/
def tEarm (s : State) (t : Nat) (i : Ins) : TRes :=
  match armUse s t (s.treg t i.ra) true with
  | .error c => .fault c
  | .ok id =>
    let x := s.thr t
    let rest := smErase x.events id
    if 8 ≤ rest.length then .fault 9 else .done (s.setThr t { x with events := smInsert id (s.treg t i.rb) rest })

/-- EDIS disarms one resource. -/
def tEdis (s : State) (t : Nat) (i : Ins) : TRes :=
  match armUse s t (s.treg t i.ra) false with
  | .error c => .fault c
  | .ok id => .done (s.setThr t { s.thr t with events := smErase (s.thr t).events id })

/-- ECLR disarms every resource. -/
def tEclr (s : State) (t : Nat) : TRes := .done (s.setThr t { s.thr t with events := [] })

end Sys2Proof.Machine
end

