-- ==== Sys2Proof/Machine/DmaRun.lean ====
section
/-! DEFINITION. DMA transfers (R186 to R189, R192): descriptors, arbitration, bursts and their completion. -/

namespace Sys2Proof.Machine

/-- The DMA engine on the crossbar. -/
def iniDma : Ini := ⟨8, false⟩

/-- Whether a descriptor is bad (R186, Table 9-7). -/
def DmaCh.bad (c : DmaCh) : Bool :=
  c.trigMode == 3 || ((c.srcFix || c.dstFix) && (c.len % 4 != 0 || c.src % 4 != 0 || c.dst % 4 != 0))

/-- The bytes from the first to the last that one side of a descriptor touches (R188). -/
def DmaCh.extent (c : DmaCh) (fix : Bool) (stride : Nat) : Nat := if fix then 4 else (c.lines - 1) * stride + c.len

/-- Whether an address lies in the source's extent. -/
def DmaCh.inSource (c : DmaCh) (a : Nat) : Bool := c.src ≤ a && a < c.src + c.extent c.srcFix c.srcStride

/-- Whether the extents of source and destination intersect. -/
def DmaCh.intersects (c : DmaCh) : Bool := overlaps c.src (c.extent c.srcFix c.srcStride) c.dst (c.extent c.dstFix c.dstStride)

/-- Whether the manual leaves the result of an overlap unspecified (R188). -/
def DmaCh.overlap (c : DmaCh) : Bool := c.intersects && !(c.dst < c.src && c.dstStride ≤ c.srcStride)

/-- Channel `k` fetches its descriptor (R187, R188, R190). -/
def dmaDescLoad (s : State) (k : Nat) (seen : List Nat) : State :=
  if 16 ≤ k || s.dmaState k != 1 || (s.dmaCh k).phase != .load || !s.blkOn 13 then s
  else
    let r := busRead s iniDma ((s.dmaCh k).desc * 32) 32 seen
    if r.err || r.poison then dmaError r.s k 5
    else
      let words := (List.range 8).map (fun i => leOf ((r.data.drop (4 * i)).take 4))
      let c : DmaCh := { r.s.dmaCh k with words := words, waited := 0, burst := none, carry := [] }
      if c.bad then dmaError r.s k 4
      else
        let s := if c.overlap then r.s.setBit (DMA_CH_STAT k) DMA_CH_STAT_overlap true else r.s
        let s := (s.setReg (DMA_CH_POS k) 0).setDma k { c with phase := .move, undef := c.overlap }
        if c.trigMode == 0 then s else dmaAwait s k

/-- Whether a channel is ready for a burst. -/
def State.dmaReady (s : State) (k : Nat) : Bool := s.dmaState k == 1 && (s.dmaCh k).phase == .move && (s.dmaCh k).burst.isNone

/-- The priority of a channel. -/
def State.dmaPrio (s : State) (k : Nat) : Nat := s.fld (DMA_CH_CTRL k) DMA_CH_CTRL_prio

/-- Of some channels, the one that the arbiter prefers: of those of the highest priority, the first after the channel that was served last at that
priority (R189). -/
def State.dmaPrefer (s : State) (ks : List Nat) : Option Nat :=
  let top := ks.foldl (fun p k => max p (s.dmaPrio k)) 0
  let last := smGet (fun _ => 15) s.dmaLast top
  ((List.range 16).map (fun i => (last + 1 + i) % 16)).find? (fun k => ks.contains k && s.dmaPrio k == top)

/-- The channel that gets the next burst: one that has waited through `age` bursts goes first. -/
def State.dmaNext (s : State) : Option Nat :=
  let ready := (List.range 16).filter s.dmaReady
  let age := s.fld DMA_ARB DMA_ARB_age
  let old := ready.filter (fun k => age != 0 && age ≤ (s.dmaCh k).waited)
  s.dmaPrefer (if old.isEmpty then ready else old)

/-- The bytes of the next burst: at most 256, within the line and one 256-byte block of the destination (R187). -/
def State.dmaSize (s : State) (k : Nat) : Nat :=
  let c := s.dmaCh k
  let byte := s.fld (DMA_CH_POS k) DMA_CH_POS_byte
  let d := dmaAddr c.dst c.dstStride (s.fld (DMA_CH_POS k) DMA_CH_POS_line) byte c.dstFix
  min (c.len - byte) (if c.dstFix then 256 else 256 - d % 256)

/-- The arbiter gives the next burst (R189). -/
def dmaBurst (s : State) : State :=
  match if s.blkOn 13 then s.dmaNext else none with
  | none => s
  | some k =>
    let s := ((List.range 16).filter s.dmaReady).foldl (fun s j => s.setDma j { s.dmaCh j with waited := (s.dmaCh j).waited + 1 }) s
    let s := s.setDma k { s.dmaCh k with
      burst := some (s.dmaSize k), waited := 0, opened := s.passes (s.dmaFrom k), via := (s.target (s.dmaFrom k)).block }
    { s with dmaLast := smSet (fun _ => 15) s.dmaLast (s.dmaPrio k) k }

/-- Words read again and again from one address. -/
def readFixed (s : State) (out : Bool) (a : Nat) : Nat → Access
  | 0 => ⟨s, [], false, false⟩
  | n + 1 =>
    let r := busFinish s out iniDma a 4 []
    if r.err || r.poison then r else let t := readFixed r.s out a n; { t with data := r.data ++ t.data }

/-- The `n` bytes that a burst reads from its source, and what a fixed source's last word leaves over (R187): the bytes left by the burst before come first. -/
def dmaTake (s : State) (c : DmaCh) (from_ n : Nat) (seen : List Nat) : Access × List Byte :=
  if c.srcFix then
    let r := readFixed s c.opened from_ ((n - c.carry.length + 3) / 4)
    let all := c.carry ++ r.data
    ({ r with data := all.take n }, all.drop n)
  else (busFinish s c.opened iniDma from_ n seen, [])

/-- Words written one after another to one address. -/
def writeFixed (s : State) (a : Nat) : Nat → List Byte → Access
  | 0, _ => ⟨s, [], false, false⟩
  | n + 1, bs => let r := busWrite s iniDma a (bs.take 4) []; if r.err then r else writeFixed r.s a n (bs.drop 4)

/-- Bytes of a burst from address `a` as they are written: in an overlap that the manual leaves open, those in the source's extent are free (R188). -/
def dmaMix (c : DmaCh) (s : State) (a : Nat) : List Byte → State × List Byte
  | [] => (s, [])
  | b :: bs =>
    let at_ := if c.dstFix then c.dst + a % 4 else a
    if c.undef && c.inSource at_ then
      let (w, s) := s.draw
      let t := dmaMix c s (a + 1) bs
      (t.1, BitVec.ofNat 8 w.toNat :: t.2)
    else let t := dmaMix c s (a + 1) bs; (t.1, b :: t.2)

/-- After a burst: what was asked for meanwhile, the next line with its wait, or the end of the descriptor (R190 to R192). -/
def dmaAfter (s : State) (k line byte : Nat) : State :=
  let c := s.dmaCh k
  let last := c.len ≤ byte
  let s := s.setReg (DMA_CH_POS k) (setF (setF 0 DMA_CH_POS_line (if last then line + 1 else line)) DMA_CH_POS_byte (if last then 0 else byte))
  if c.abort then dmaAborted s k
  else
    let paused := s.bit (DMA_CH_CTRL k) DMA_CH_CTRL_pause
    let phase := if !last then DmaPhase.move else if c.lines ≤ line + 1 then .ended else if c.trigMode == 2 then .lineStart else .move
    let s := s.setDma k { c with phase := phase }
    if paused then setDmaState s k 3 else if phase == .lineStart then dmaAwait s k else s

/-- The burst of channel `k` completes: its bytes are moved, or the channel stops at it with an error (R192). -/
def dmaBurstDone (s : State) (k : Nat) (seen : List Nat) : State :=
  let c := s.dmaCh k
  match if 16 ≤ k then none else c.burst with
  | none => s
  | some n =>
    let line := s.fld (DMA_CH_POS k) DMA_CH_POS_line
    let byte := s.fld (DMA_CH_POS k) DMA_CH_POS_byte
    let into := dmaAddr c.dst c.dstStride line byte c.dstFix
    let (r, left) := dmaTake s c (s.dmaFrom k) n seen
    if r.err then dmaError r.s k 1
    else if r.poison then dmaError r.s k 3
    else
      let m := dmaMix c r.s into r.data
      let w := if c.dstFix then writeFixed m.1 into (n / 4) m.2 else busWrite m.1 iniDma into m.2 []
      if w.err then dmaError w.s k 2 else dmaAfter (w.s.setDma k { w.s.dmaCh k with burst := none, carry := left }) k line (byte + n)

/-- Every write of the descriptor has completed: done is set when irq asks for it, and the next descriptor of the chain is loaded (R187). Pause keeps bursts from
issuing, not this (R191). -/
def dmaDescEnd (s : State) (k : Nat) : State :=
  let c := s.dmaCh k
  if 16 ≤ k || !(s.dmaState k == 1 || s.dmaState k == 3) || c.phase != .ended then s
  else
    let s := if c.w 5 3 3 == 1 then s.setFld DMA_INT_STAT DMA_INT_STAT_done (s.fld DMA_INT_STAT DMA_INT_STAT_done ||| 2 ^ k) else s
    if c.w 5 4 4 == 1 then s.setDma k { DmaCh.init with desc := c.w 5 31 5, words := c.words } else dmaIdle s k

end Sys2Proof.Machine
end

