-- ==== Sys2Proof/Machine/HostBars.lean ====
section
/-! DEFINITION. The PCI Express endpoint: its BARs (R427 to R432), its link (R352, R433) and its power state (R425). -/

namespace Sys2Proof.Machine

/-- The host and link islands on the crossbar. -/
def iniHost : Ini := ⟨11, false⟩

/-- A refused access (R431): captured, counted, and where it is a read of nothing, logged by AER (Table 21-3). -/
def hostRefuse (s : State) (bar off : Nat) (wr : Bool) (cause : Nat) : State :=
  let s := s.count HOST_CNT HOST_CNT_refused
  let s := if cause == 1 && !wr then s.count HOST_CNT HOST_CNT_aer else s
  if s.bit HOST_ERR_INFO HOST_ERR_INFO_valid then s
  else
    let s := (s.setReg HOST_ERR_ADDR (BitVec.ofNat 32 off)).setBit HOST_ERR_INFO HOST_ERR_INFO_valid true
    ((s.setFld HOST_ERR_INFO HOST_ERR_INFO_bar bar).setBit HOST_ERR_INFO HOST_ERR_INFO_wr wr).setFld HOST_ERR_INFO HOST_ERR_INFO_cause cause

/-- What the host sees of an access: data, an error completion, or a poisoned one. -/
def hostSees (s : State) (data : Nat) (err poison : Bool) : State := { s with rd := ⟨data, err, poison⟩ }

/-- Whether BAR accesses are decoded: the host interface ON, the link up and the function in D0 (R425). -/
def State.barsOpen (s : State) : Bool := s.blkOn 36 && s.bit HOST_LINK HOST_LINK_up && s.host.d0

/-! ## The endpoint (R425, R427) -/

/-- The capabilities of Table 21-1: the highest link generation and the link widths, lane reversal, ASPM L1 and L0s, functions, MSI-X vectors, MSI, INTx, AER, FLR,
D3hot, and the largest payload and read request in bytes. -/
structure Endpoint where
  gen : Nat
  widths : List Nat
  reversal : Bool
  l1 : Bool
  l0s : Bool
  functions : Nat
  vectors : Nat
  msi : Bool
  intx : Bool
  aer : Bool
  flr : Bool
  d3hot : Bool
  payload : Nat
  readRequest : Nat
deriving DecidableEq, Repr

/-- The endpoint of the device. Its states that no command shows, such as a link in ASPM L1, are left out (assumption 126). -/
def endpoint : Endpoint :=
  { gen := 4, widths := [1, 2, 4], reversal := true, l1 := true, l0s := false, functions := 1, vectors := 32, msi := false, intx := false, aer := true, flr := true,
    d3hot := true, payload := 256, readRequest := 512 }

/-- A BAR of Table 21-2: its number, its size, whether it is of 64 bits, and whether it is prefetchable. -/
structure Bar where
  num : Nat
  size : Nat
  wide : Bool
  prefetch : Bool
deriving DecidableEq, Repr

/-- The BARs. -/
def bars : List Bar := [⟨0, 0x10000, false, false⟩, ⟨2, 0x10000000, true, true⟩, ⟨4, 0x1000000, true, true⟩]

/-- What the register of a BAR reads once ones have been written to it: the address bits that its size leaves to the host, and its type in bits 3 to 0. -/
def Bar.sizing (b : Bar) : Word := BitVec.ofNat 32 (2 ^ 32 - b.size + cond b.wide 4 0 + cond b.prefetch 8 0)

/-! ## The configuration space (R426) -/

/-- What the words of the configuration space that R426 and R427 fix read as: vendor and device ID, revision ID with the class code, the subsystem IDs, and the
BARs' sizes and types. They stand at the offsets of the PCI header (PRESUMED, assumption 102). No command of the table reads them. -/
def State.pciConfig (s : State) (off : Nat) : Option Word :=
  if off == 0x00 then some (BitVec.ofNat 32 (0x0960 * 2 ^ 16 + s.fuse 879 864))
  else if off == 0x08 then some (BitVec.ofNat 32 (0x0B4000 * 2 ^ 8 + (s.reg SYS_ID_2).toNat / 2 ^ 8 % 2 ^ 8))
  else if off == 0x2C then some (BitVec.ofNat 32 (s.fuse 911 896 * 2 ^ 16 + s.fuse 895 880))
  else (bars.find? (fun b => off == 0x10 + 4 * b.num)).map Bar.sizing

/-! ## BAR0 (R428) -/

/-- The 32-bit words of the MSI-X table (R352): entry i holds address, upper address, data and control. -/
def State.msixWord (s : State) (w : Nat) : Nat :=
  let m := s.msix (w / 4)
  match w % 4 with
  | 0 => m.addr % 2 ^ 32
  | 1 => m.addr / 2 ^ 32
  | 2 => m.data
  | _ => cond m.masked 1 0

/-- A write to a word of the MSI-X table. -/
def msixWrite (s : State) (w : Nat) (v : Nat) : State :=
  let i := w / 4
  let m := s.msix i
  match w % 4 with
  | 0 => s.setMsix i { m with addr := m.addr / 2 ^ 32 * 2 ^ 32 + v / 4 * 4 }
  | 1 => s.setMsix i { m with addr := v * 2 ^ 32 + m.addr % 2 ^ 32 }
  | 2 => s.setMsix i { m with data := v }
  | _ => msixMask s i (v % 2 == 1)

/-- The pending bits of the 32 vectors. -/
def State.pbaWord (s : State) : Nat := (List.range 32).foldl (fun w i => w + cond (s.pba i) (2 ^ i) 0) 0

/-- Whether the host reaches an MBX offset through BAR0. -/
def bar0Reaches (off : Nat) : Bool := off < 0x600 || (0x1000 ≤ off && off < 0x1010)

/-- A 32-bit read through BAR0: the state, and the word. -/
def bar0Read (s : State) (off : Nat) : State × Nat :=
  if bar0Reaches off then let r := mbxRead s idHost (0x400A0000 + off); (r.1, r.2.toNat)
  else if off == KILN_DB_SET - 0x400A0000 then (s, (s.reg KILN_DB).toNat)
  else if 0x8000 ≤ off && off < 0x8200 then (s, s.msixWord ((off - 0x8000) / 4))
  else if off == 0x9000 then (s, s.pbaWord)
  else (s, 0)

/-- A 32-bit write through BAR0; of KILN_DB_SET the host may set bits 16 to 31. -/
def bar0Write (s : State) (off : Nat) (w : Word) : State :=
  if bar0Reaches off then mbxWrite s idHost (0x400A0000 + off) w
  else if off == KILN_DB_SET - 0x400A0000 then mbxWrite s idHost KILN_DB_SET (w &&& 0xFFFF0000)
  else if 0x8000 ≤ off && off < 0x8200 then msixWrite s ((off - 0x8000) / 4) w.toNat
  else s

/-- A BAR0 access (R428, R431). -/
def bar0Access (s : State) (off size : Nat) (wr : Bool) (w : Word) : State :=
  if !s.barsOpen then s
  else if size != 4 || off % 4 != 0 then hostSees (hostRefuse (fabErr s 11 0x3F 5 (0x400A0000 + off)) 0 off wr 3) 0 true false
  else if wr then bar0Write s off w
  else let r := bar0Read s off; hostSees r.1 r.2 false false

/-! ## BAR2 and BAR4 (R429 to R431) -/

/-- An access that is mapped, as Table 21-3 gives its outcome. -/
def barReach (s : State) (bar off a : Nat) (wr : Option (List Byte)) (n : Nat) (seen : List Nat) : State :=
  match wr with
  | some bs =>
    let r := busWrite s iniHost a bs seen
    if r.err then hostRefuse r.s bar off true 3 else r.s
  | none =>
    let r := busRead s iniHost a n seen
    if r.err then hostSees (hostRefuse r.s bar off false 3) 0 true false
    else if r.poison then hostSees (hostRefuse r.s bar off false 4) 0 false true
    else hostSees r.s (leOf r.data) false false

/-- An access that nothing maps, or a write that is not permitted. -/
def barRefused (s : State) (bar off : Nat) (wr : Bool) (cause : Nat) : State :=
  let s := hostRefuse s bar off wr cause
  if wr then s else hostSees s 0 true false

/-- The Kiln address that `n` bytes at a BAR2 offset reach, and whether they may be written. -/
def State.bar2Map (s : State) (off n : Nat) : Option (Nat × Bool) :=
  let w := off / 2 ^ 26
  let k := off % 2 ^ 26
  if w < 4 && s.bit (HOST_WIN_CFG w) HOST_WIN_CFG_enable && k + n ≤ s.fld (HOST_WIN_CFG w) HOST_WIN_CFG_size * 65536 then
    some (s.fld (HOST_WIN_BASE w) HOST_WIN_BASE_base * 65536 + k, s.bit (HOST_WIN_CFG w) HOST_WIN_CFG_write)
  else none

/-- The same of a BAR4 offset. -/
def State.bar4Map (s : State) (off n : Nat) : Option (Nat × Bool) :=
  let wr := s.bit HOST_BAR4 HOST_BAR4_write
  if off + n ≤ 0x800000 then (if s.bit HOST_BAR4 HOST_BAR4_csram_en then some (0x10000000 + off, wr) else none)
  else if 0x800000 ≤ off && off + n ≤ 0xC00000 then (if s.bit HOST_BAR4 HOST_BAR4_ls_en then some (0x11000000 + (off - 0x800000), wr) else none)
  else none

/-- An access to a data BAR: a write of bytes, or a read of `n`. -/
def barAccess (s : State) (bar off : Nat) (map : Option (Nat × Bool)) (wr : Option (List Byte)) (n : Nat) (seen : List Nat) : State :=
  if !s.barsOpen then s
  else match map with
    | none => barRefused s bar off wr.isSome 1
    | some (a, w) => if wr.isSome && !w then barRefused s bar off true 2 else barReach s bar off a wr n seen

/-- How many bytes an access takes. -/
def accessLen (wr : Option (List Byte)) (n : Nat) : Nat := match wr with | some bs => bs.length | none => n

def bar2Access (s : State) (off : Nat) (wr : Option (List Byte)) (n : Nat) (seen : List Nat) : State :=
  barAccess s 1 off (s.bar2Map off (accessLen wr n)) wr n seen

def bar4Access (s : State) (off : Nat) (wr : Option (List Byte)) (n : Nat) (seen : List Nat) : State :=
  barAccess s 2 off (s.bar4Map off (accessLen wr n)) wr n seen

/-! ## The link (R352, R433) -/

/-- What a link-down and an FLR clear: lock ID 1, the MSI-X table and the PBA. -/
def hostForget (s : State) : State := let t := mbxDrop s idHost; { t with host := { t.host with msix := [], pba := [] } }

/-- The link goes down. -/
def linkDown (s : State) : State :=
  if s.bit HOST_LINK HOST_LINK_up then ((hostForget s).setBit HOST_LINK HOST_LINK_up false).setBit HOST_LINK HOST_LINK_changed true else s

/-- The link comes up at a generation and width; messages that wait may be sent. -/
def hostLinkUp (s : State) (gen width : Nat) : State :=
  if s.bit HOST_LINK HOST_LINK_up then s
  else
    let s := ((s.setBit HOST_LINK HOST_LINK_up true).setFld HOST_LINK HOST_LINK_gen gen).setFld HOST_LINK HOST_LINK_width width
    sendAllPending (s.setBit HOST_LINK HOST_LINK_changed true)

/-- A function-level reset. -/
def flr (s : State) : State := if s.bit HOST_LINK HOST_LINK_up then (hostForget s).setBit HOST_LINK HOST_LINK_flr true else s

/-- The host writes the function's power state: D0, or D3hot, which stops BAR decoding (R425). -/
def hostPower (s : State) (d0 : Bool) : State := sendAllPending { s with host := { s.host with d0 := d0 } }

end Sys2Proof.Machine
end

