-- ==== Sys2Proof/Machine/FwCmd.lean ====
section
/-! DEFINITION. How Falornyr serves host commands (R436 to R447): copying and acknowledging a request, repeats, the checks that precede a command's work, and
its response. -/

namespace Sys2Proof.Machine

/-! ## Requests and responses -/

/-- The fields of a request header (R437). -/
def HostCmd.op (c : HostCmd) : Nat := c.hdr / 2 ^ 16
def HostCmd.seq (c : HostCmd) : Nat := bitsN c.hdr 15 8
def HostCmd.flags (c : HostCmd) : Nat := bitsN c.hdr 7 0

/-- Parameter `i`, counted from 1 as its DATA register is. -/
def HostCmd.p (c : HostCmd) (i : Nat) : Nat := c.params.getD (i - 1) 0

/-- The opcodes of Tables 8-3 and 21-6 to 21-15. -/
def hostOps : List Nat :=
  [0x0100, 0x0101, 0x0102, 0x0103, 0x0104, 0x0105, 0x0106, 0x0107, 0x0108, 0x0200, 0x0201, 0x0202, 0x0203] ++
  [0x1000, 0x1001, 0x1002, 0x1003, 0x1004, 0x1005, 0x1100, 0x1101, 0x1102, 0x1103, 0x1104, 0x1200, 0x1201, 0x1202, 0x1203] ++
  [0x2000, 0x2001, 0x2002, 0x2003, 0x2004, 0x2005, 0x3000, 0x3001, 0x3002, 0x3003, 0x3004, 0x3005, 0x3006] ++
  [0x4000, 0x4001, 0x4002, 0x4003, 0x4004, 0x4005, 0x4100, 0x4101, 0x4102, 0x4103, 0x4104, 0x4105, 0x4106] ++
  [0x5000, 0x5001, 0x5002, 0x5003, 0x7F00, 0x7F01, 0x7F02]

/-- What a command's work gives: OK with results, OK with something that follows the response, a failure with its status and detail, work that goes
on with what it keeps, or OK with work that goes on after the response. -/
inductive Reply where
  | ok (results : List Nat)
  | okThen (results : List Nat) (after : State → State)
  | fail (status detail : Nat)
  | later (keeps : List Nat)
  | early (results keeps : List Nat)

/-- The response to a command leaves for MBX_4, and is kept for repeats (R437, R438). -/
def answer (s : State) (c : HostCmd) (status detail : Nat) (results : List Nat) : State :=
  let r := (c.op * 2 ^ 16 + c.seq * 256 + 0x80 + c.mbx) :: (detail % 2 ^ 16 * 2 ^ 16 + status) :: results
  let last := match s.fw.last.lookup c.mbx with
    | some (q, none) => if q == c.seq then smInsert c.mbx (c.seq, some r) (smErase s.fw.last c.mbx) else s.fw.last
    | _ => s.fw.last
  fwPostResp (s.setFw { s.fw with last := last, resps := s.fw.resps ++ [r] })

/-- Whether an entry of the commands that Falornyr works on is command `c`. -/
def sameCmd (c d : HostCmd) : Bool := d.mbx == c.mbx && d.hdr == c.hdr && d.told == c.told

/-- A command that Falornyr has done with. -/
def retire (s : State) (c : HostCmd) : State := s.setFw { s.fw with cmds := s.fw.cmds.filter (fun d => !sameCmd c d) }

/-- A command of which Falornyr keeps something. -/
def keepCmd (s : State) (c d : HostCmd) : State := s.setFw { s.fw with cmds := s.fw.cmds.map (fun x => if sameCmd c x then d else x) }

/-- The message posted in a request mailbox. -/
def State.request (s : State) (n : Nat) : HostCmd :=
  let len := s.fld (MBX_CTRL n) MBX_CTRL_len
  ⟨n, (s.reg (MBX_DATA n 0)).toNat, len, (List.range (len - 1)).map (fun k => (s.reg (MBX_DATA n (k + 1))).toNat), false, false⟩

/-- Falornyr copies a request and acknowledges it (R436); a repeat gets the stored response, or none while the first copy runs (R438). -/
def acceptCmd (s : State) (n : Nat) : State :=
  let c := s.request n
  let s := mbxAck (s.setFw { s.fw with goes := s.fw.goes.erase n }) n idKiln
  match (s.fw.last.lookup n).filter (fun l => l.1 == c.seq) with
  | some (_, some r) => fwPostResp (s.setFw { s.fw with resps := s.fw.resps ++ [r] })
  | some (_, none) => s
  | none => s.setFw { s.fw with cmds := s.fw.cmds ++ [c], last := smInsert n (c.seq, none) (smErase s.fw.last n) }

/-! ## Checks -/

/-- The blocks whose absence from the profile closes a command's group (R447). -/
def groupBlocks (op : Nat) : List Nat :=
  match op / 256 with
  | 0x10 => [7]
  | 0x11 => [9, 10, 11, 12]
  | 0x12 => [9, 10, 11, 12]
  | 0x20 => [15]
  | 0x30 => [14]
  | 0x40 => [33]
  | 0x41 => [34, 35]
  | _ => []

/-- Whether a command is served with no profile running (R467). -/
def bareOps : List Nat := [0x0100, 0x0101, 0x0106, 0x0107, 0x0108]

/-- The checks common to all commands (R437, R442, R447, R467, R468): the failure that answers one, where there is one. -/
def precheck (s : State) (c : HostCmd) (count : Nat → Bool) : Option (Nat × Nat) :=
  let blocks := groupBlocks c.op
  if c.flags != 0 then some (1, 0)
  else if c.len == 0 || !count (c.len - 1) then some (3, 0)
  else if s.fw.restart && c.op != 0x0100 then some (4, 0)
  else if s.curProfile == 0xFF && !bareOps.contains c.op then some (5, 0)
  else if !blocks.isEmpty && blocks.all (fun n => !s.provides n) then some (5, 0)
  else if c.op / 256 == 0x7F && c.op != 0x7F00 && !s.unlocked then some (6, 0)
  else none

/-- BAD_PARAM with the word index of the first parameter that is out of range. -/
def badParam : Nat → List Bool → Option Nat
  | _, [] => none
  | i, ok :: rest => if ok then badParam (i + 1) rest else some i

/-- The work of a command whose parameters pass their ranges, listed from DATA_1 on. -/
def withParams (s : State) (oks : List Bool) (work : State × Reply) : State × Reply :=
  match badParam 1 oks with
  | some i => (s, .fail 2 i)
  | none => work

/-- The response to a command, and its end; one that was answered with OVERTIME ends without a second, and its late result is
counted (R440, R503). -/
def conclude (s : State) (c : HostCmd) (status detail : Nat) (results : List Nat) : State :=
  if c.told then healthCount (retire s c) 6 2 else answer (retire s c) c status detail results

/-- What follows from a command's work. -/
def finish (c : HostCmd) (r : State × Reply) : State :=
  match r.2 with
  | .ok res => conclude r.1 c 0 0 res
  | .okThen res after => after (conclude r.1 c 0 0 res)
  | .fail st det => conclude r.1 c st det []
  | .early res ks => answer (keepCmd r.1 c { c with begun := true, told := true, params := ks }) c 0 0 res
  | .later ks => keepCmd r.1 c { c with begun := true, params := ks }

/-- A command's bound has passed (R440): it is answered, and its work goes on. -/
def overtime (s : State) (c : HostCmd) : State := answer (keepCmd s c { c with told := true }) c 7 0 []

/-- Falornyr serves mailbox `n` for a command of opcode `op` (R436 to R442): the request there is copied when it is that command's, or of no opcode; work
that outlived its response is carried on; and the first command of that mailbox without a response is begun, carried on, or answered at its bound when
`late` says that the bound has come. -/
def hostServe (s : State) (n op : Nat) (late : Bool) (count : Nat → Bool) (start more : State → HostCmd → State × Reply) : State :=
  if !s.fwServes || 4 ≤ n then s
  else
    let c := s.request n
    let s := if s.mbxBusy n && s.fw.goes.head? == some n && (c.op == op || !hostOps.contains c.op) then acceptCmd s n else s
    let s := match s.fw.cmds.find? (fun c => c.mbx == n && c.told && c.op == op) with | some c => finish c (more s c) | none => s
    match s.fw.cmds.find? (fun c => c.mbx == n && !c.told) with
    | none => s
    | some c =>
      if !hostOps.contains c.op then conclude s c 1 0 []
      else if c.op != op then s
      else if c.begun then (if late then overtime s c else finish c (more s c))
      else match precheck s c count with
        | some (st, det) => conclude s c st det []
        | none => finish c (start s c)

/-- A command whose work is done at once. -/
def hostNow (s : State) (n op : Nat) (count : Nat) (work : State → HostCmd → State × Reply) : State :=
  hostServe s n op false (· == count) work (fun s _ => (s, .ok []))

/-- Whether an earlier command that works on still holds the same object, as a test of it says (BUSY). -/
def State.cmdBusy (s : State) (c : HostCmd) (same : HostCmd → Bool) : Bool := s.fw.cmds.any (fun d => d.begun && !sameCmd c d && same d)

/-! ## Buffers (R445) -/

/-- The Kiln address of a buffer: `n` bytes from a BAR2 offset within one open window. -/
def State.buffer (s : State) (off n : Nat) : Option Nat := (s.bar2Map off n).map (·.1)

/-- Bytes that Falornyr reads; none after an error or poison response. -/
def fwRead (s : State) (a n : Nat) : State × Option (List Byte) :=
  let r := busRead s iniKiln a n []
  (r.s, if r.err || r.poison then none else some r.data)

/-- Bytes that Falornyr writes, and whether they were taken. -/
def fwWrite (s : State) (a : Nat) (bs : List Byte) : State × Bool := let r := busWrite s iniKiln a bs []; (r.s, !r.err)

/-- The work over the bytes of a buffer; FAULT after an error or poison response. -/
def withBuffer (s : State) (a n : Nat) (work : State → List Byte → State × Reply) : State × Reply :=
  match fwRead s a n with
  | (s, some bs) => work s bs
  | (s, none) => (s, .fail 10 0)

/-- The little-endian words of bytes. -/
def wordsLE : List Byte → List Nat
  | a :: b :: c :: d :: rest => leOf [a, b, c, d] :: wordsLE rest
  | _ => []

/-- A register that Falornyr reads, and the words of several. -/
def State.rw (s : State) (a : Nat) : Nat := (s.readCodes a).toNat

/-- Register writes that Falornyr makes, in order. -/
def regWrites (s : State) (ws : List (Nat × Nat)) : State := ws.foldl (fun s e => regWrite s e.1 (BitVec.ofNat 32 e.2)) s

end Sys2Proof.Machine
end

