-- ==== Sys2Proof/Machine/Boot.lean ====
section
/-! DEFINITION. Boot images (R460 to R464), profiles (R465 to R469), the entry to Noon and the warm restart. -/

namespace Sys2Proof.Machine

/-! ## Images (R461, R464) -/

/-- The fuse counter: the position of the highest set rollback bit plus 1 (R464). -/
def State.rollbackCounter (s : State) : Nat := let r := s.fuse 4351 4096; if r == 0 then 0 else Nat.log2 r + 1

/-- A little-endian word of an image header. -/
def headerWord (bs : List Byte) (off : Nat) : Nat := leOf ((bs.drop off).take 4)

/-- Body of an image. -/
def imageBody (bs : List Byte) : List Byte := (bs.drop 256).take (headerWord bs 12)

/-- Whether a header is well formed and its body lies within `room` bytes (R461): magic, zeros, rollback at or above the counter, lengths. -/
def State.imageShape (s : State) (room : Nat) (bs : List Byte) : Bool :=
  bs.take 4 == [0x58, 0x46, 0x42, 0x31] && ((bs.drop 96).take 96).all (· == 0) && s.rollbackCounter ≤ headerWord bs 8 && headerWord bs 8 ≤ 256 &&
  headerWord bs 12 ≤ 7 * 2 ^ 20 && 256 + headerWord bs 12 ≤ min room bs.length

/-- Whether an image's key is the root key and its signature verifies (R461). -/
def State.imageSigned (s : State) (bs : List Byte) : Bool :=
  let key := (bs.drop 32).take 64
  sha256 key == leBytes 32 (s.fuse 607 352) && ecdsaVerify key (sha256 (bs.take 192 ++ imageBody bs)) ((bs.drop 192).take 64)

/-- Whether an image in a slot of `room` bytes is valid (R461). -/
def State.imageValid (s : State) (room : Nat) (bs : List Byte) : Bool := s.imageShape room bs && s.imageSigned bs

/-- The interleaved part and the private region of a channel, in units of 256 KB, that Table 3-2 gives a profile for some device. -/
def partitions (n : Nat) : List (Nat × Nat) := if n == 1 then [(96, 32)] else if n == 2 then [(112, 16)] else [(120, 8), (60, 4), (30, 2)]

/-- Whether a record's settings make a partition: all six channels interleaved, and QA, QB and QC mirrored into QD, QE and QF above it (R51). -/
def partitionIs (p : Profile) (il size : Nat) : Bool :=
  let w := (p.settings.lookup MEM_INTLV).getD 0
  bitOf w MEM_INTLV_enable && getF w MEM_INTLV_set == 0x3F && getF w MEM_INTLV_il_size == il &&
  (List.range 3).all (fun i =>
    let m := (p.settings.lookup (MEM_MIRROR i)).getD 0
    bitOf m MEM_MIRROR_valid && getF m MEM_MIRROR_primary == i && getF m MEM_MIRROR_mirror == i + 3 && getF m MEM_MIRROR_base == il &&
      getF m MEM_MIRROR_size == size)

/-- How many blocks from `lo` a record enables, of `n`. -/
def blockCount (p : Profile) (lo n : Nat) : Nat := ((List.range n).filter (fun k => p.blocks.testBit (lo + k))).length

/-- Whether the record of profile `n` holds what Tables 1-1 and 3-2 store: its heads, its Retorts, its Seen tables and its partition (R14, R51, R466). A
Seen table of 2^20 entries has 2^17 buckets of 8, and one of 2^24 has 2^21. -/
def recordFits (n : Nat) (p : Profile) : Bool :=
  let bits (a : Nat) := getF ((p.settings.lookup a).getD 0) LEDGER_SEEN_CFG_bits
  let alt := (p.settings.lookup LEDGER_SEEN_ALT_CFG).getD 0
  blockCount p 9 4 == (if n == 1 then 0 else 4) && blockCount p 16 12 == (if n == 0 then 4 else 12) && bits LEDGER_SEEN_CFG == (if n == 1 then 21 else 17) &&
    (n != 2 || (bitOf alt LEDGER_SEEN_ALT_CFG_enable && getF alt LEDGER_SEEN_ALT_CFG_bits == 21)) && (partitions n).any (fun e => partitionIs p e.1 e.2)

/-- The image to run: a record whose header offset is 0 is absent (Table 22-5), and one that does not hold what the manual's tables store is no record of
it (DEDUCED, assumption 98). -/
def imageOf (f : FlashImage) : Image :=
  ⟨headerWord f.bytes 4, headerWord f.bytes 8, imageBody f.bytes,
    f.records.filter (fun r => r.1 < 4 && headerWord f.bytes (16 + 4 * r.1) != 0 && recordFits r.1 r.2)⟩

/-! ## Boot (R459 to R463) -/

/-- The body stored in CSRAM from its first byte (R462). -/
def loadBody (s : State) (bs : List Byte) : State := (busWrite s iniKiln 0x10000000 (imageBody bs) []).s

/-- Falornyr starts (R438, R462): the source and version are recorded, it holds the locks of MBX_4 and MBX_5 (R436), and the timebase never steps back from now
on (R328). -/
def startFalornyr (s : State) (source : Nat) (f : FlashImage) : State :=
  let i := imageOf f
  let s := (s.setFld SYS_BOOT SYS_BOOT_source source).setFld SYS_BOOT SYS_BOOT_version i.version
  let s := (s.setFld (MBX_STAT 4) MBX_STAT_holder idKiln).setFld (MBX_STAT 5) MBX_STAT_holder idKiln
  let s := s.setBit TB_CTRL TB_CTRL_mono true
  s.setFw { Fw.init with image := some i, running := true, cert := s.fw.cert, goes := s.fw.goes }

/-- The certificate check (R459): its identity, and the public keys of the derived keys. -/
def State.certOk (s : State) (c : List Byte) : Bool :=
  let (d, x) := s.deviceKeys
  c.length == 192 && c.take 4 == [0x58, 0x44, 0x43, 0x31] && (c.drop 4).take 12 == s.identity && (c.drop 16).take 64 == p256Public d &&
    (c.drop 80).take 32 == x25519 x (leBytes 32 9)

/-- Whether the boot ROM runs: the device is released, its fuses are loaded, and Falornyr has not started. -/
def State.inRom (s : State) : Bool := s.ember.phase == .run && s.bit FUSE_STAT FUSE_STAT_loaded && !s.fw.running && !s.kiln.lockup

/-- The slots of a flash in the order of R462: number, room and image. -/
def slotsOfFlash (f : Flash) : List (Nat × Nat × FlashImage) := [(1, f.size / 2, f.slotA), (2, f.size / 2 - 4096, f.slotB)]

/-- Whether an image goes before another (R462): a higher rollback number, then a higher version. -/
def imageBeats (a b : List Byte) : Bool :=
  headerWord b 8 < headerWord a 8 || (headerWord a 8 == headerWord b 8 && headerWord b 4 < headerWord a 4)

/-- The slot that the boot ROM takes: its number and image. -/
def State.pickSlot (s : State) (f : Flash) : Option (Nat × FlashImage) :=
  (((slotsOfFlash f).filter (fun e => s.imageValid e.2.1 e.2.2.bytes)).map (fun e => (e.1, e.2.2))).foldl
    (fun best e => match best with
      | none => some e
      | some b => if imageBeats e.2.bytes b.2.bytes then some e else some b) none

/-- The boot ROM selects, verifies and starts an image, or waits for host push, or gives up with ALERT_N low (R459 to R463). A flash without a valid
SFDP table is none. -/
def bootStart (s : State) (flash : Option Flash) : State :=
  if !s.inRom then s
  else
    let flash := if s.fuse 924 924 == 1 then flash else none
    let cert := (flash.map (·.cert)).getD []
    let ok := s.certOk cert
    let s := (s.setBit SYS_BOOT SYS_BOOT_cert_bad (!ok)).setFw { s.fw with cert := cert }
    match flash.bind s.pickSlot with
    | some (n, f) => startFalornyr (loadBody s f.bytes) n f
    | none =>
      if s.fuse 925 925 == 1 then
        ((blockEnable s 36 true).setBit HOST_BAR4 HOST_BAR4_csram_en true).setBit HOST_BAR4 HOST_BAR4_write true
      else s.setBit SYS_ALERT SYS_ALERT_boot true

/-- The opcode of a host push. -/
def opPush : Nat := 0x01FF

/-- The boot ROM's answer to a host push. -/
def pushAnswer (s : State) (c : HostCmd) (status : Nat) : State :=
  fwPostResp (s.setFw { s.fw with resps := s.fw.resps ++ [[c.op * 2 ^ 16 + c.seq * 256 + 0x80, status]] })

/-- A host push (R463): the image in CSRAM is validated by R461 and answered; one that passes starts Falornyr. `records` is what its profile records say. -/
def pushBoot (s : State) (records : List (Nat × Profile)) : State :=
  let c := s.request 0
  if !s.inRom || !s.blkOn 36 || s.fuse 925 925 != 1 || !s.mbxBusy 0 || c.op != opPush then s
  else
    let s := mbxAck (s.setFw { s.fw with goes := s.fw.goes.erase 0 }) 0 idKiln
    let n := c.p 1
    if n < 256 || 0x800000 < n then pushAnswer s c 2
    else match fwRead s 0x10000000 n with
      | (s, none) => pushAnswer s c 2
      | (s, some bs) =>
        if !s.imageShape n bs then pushAnswer s c 2
        else if !s.imageSigned bs then pushAnswer s c 11
        else
          let f : FlashImage := ⟨bs, records⟩
          pushAnswer (startFalornyr (loadBody s bs) 3 f) c 0

/-! ## Profiles (R51, R466, R467, R469) -/

/-- Whether a partition fits the installed QDR (R49, R51, R544): each channel of the set holds the interleaved part, and each channel of a mirror pair
its region. A channel that has not completed training counts as not installed. -/
def State.partitionFits (s : State) (p : Profile) : Bool :=
  let size (k : Nat) := if s.chanTrained k then s.chanCapacity k else 0
  let w := (p.settings.lookup MEM_INTLV).getD 0
  (List.range 6).all (fun k => !(getF w MEM_INTLV_set).testBit k || (size k != 0 && getF w MEM_INTLV_il_size * 0x40000 ≤ size k)) &&
  (List.range 3).all (fun i =>
    let m := (p.settings.lookup (MEM_MIRROR i)).getD 0
    let stop := (getF m MEM_MIRROR_base + getF m MEM_MIRROR_size) * 0x40000
    !bitOf m MEM_MIRROR_valid || (stop ≤ size (getF m MEM_MIRROR_primary) && stop ≤ size (getF m MEM_MIRROR_mirror)))

/-- The record of a profile that may run (R467). -/
def State.runnable (s : State) (p : Nat) : Option Profile :=
  if (s.fld SYS_PROFILE SYS_PROFILE_permitted).testBit p then
    (s.fw.image.bind (fun i => i.profiles.lookup p)).filter s.partitionFits
  else none

/-- Whether a record's guard and actuator settings are those that are locked (R469). -/
def State.safetyMatches (s : State) (p : Profile) : Bool :=
  (!s.bit PIN_SAFE PIN_SAFE_lock || p.guard == s.reg PIN_GUARD_CFG) &&
  (!s.bit KPORT_LOCK KPORT_LOCK_lock || p.acts.all (fun e => e.2 == s.reg (KPORT_ACT e.1)))

/-- A record applied (R466): settings, guard and actuator settings with their locks, reset modes, block enables. Settings that are locked ignore the write. -/
def applyProfile (s : State) (n : Nat) (p : Profile) : State :=
  let s := p.settings.foldl (fun s e => regWrite s e.1 e.2) s
  let s := regWrite s PIN_GUARD_CFG p.guard
  let s := p.acts.foldl (fun s e => regWrite s (KPORT_ACT e.1) e.2) s
  let s := guardLock s
  let s := regWrite s KPORT_LOCK (setF 0 KPORT_LOCK_lock 1)
  let s := (regWrite s FAB_RESET_MODE_0 (BitVec.ofNat 32 p.modes)) |> fun s => regWrite s FAB_RESET_MODE_1 (BitVec.ofNat 32 (p.modes / 2 ^ 32))
  let s := (List.range 40).foldl (fun s b => if p.blocks.testBit b then blockEnable s b true else s) s
  s.setFld SYS_PROFILE SYS_PROFILE_cur n

/-- The rollback bits from the counter up to the image's number programmed (R464). -/
def raiseRollback (s : State) : State :=
  match s.fw.image with
  | none => s
  | some i =>
    let c := s.rollbackCounter
    (List.range (i.rollback - c)).foldl (fun s k => fuseProg s (setF (setF 0 FUSE_PROG_bit (4096 + c + k)) FUSE_PROG_go 1)) s

/-- Noon entered from Dawn, after a profile has been applied (R464, R490). -/
def reachNoon (s : State) (p : Profile) : State :=
  if s.fld PWR_STATE PWR_STATE_state == 0 then
    let s := raiseRollback (s.setFld PWR_STATE PWR_STATE_state 1)
    s.setFw { s.fw with limit := p.noon }
  else s

/-- Every block but the host interface is told to stop. -/
def stopBlocks (s : State) : State := (List.range 40).foldl (fun s b => if b == 36 || s.blkState b == 0 then s else blockEnable s b false) s

/-- Whether every block but the host interface is OFF. -/
def State.allOff (s : State) : Bool := (List.range 40).all (fun b => b == 36 || s.blkState b == 0)

/-- Falornyr applies the profile that the pins selected and enters Noon, or starts with no profile: no block beyond the host interface is enabled (R466,
R467, R490). Once it serves it posts SYS_EVENT 1, which host software awaits after a reset (R517; DEDUCED, assumption 101). -/
def noonEntry (s : State) : State :=
  if !s.fwServes || s.fld PWR_STATE PWR_STATE_state != 0 || s.curProfile != 0xFF || s.fw.restart then s
  else
    let n := s.fld SYS_PROFILE SYS_PROFILE_pins
    match s.runnable n with
    | some p => notify (reachNoon (applyProfile s n p) p) opSysEvent 1
    | none => blockEnable (stopBlocks s) 36 true

/-! ## The warm restart (R468, R469) -/

/-- The restart begins, after the response. -/
def restartBegin (s : State) (goal : Nat) : State := stopBlocks (safeRelease (s.setFw { s.fw with restart := true, goal := goal }) false)

/-- What the restart empties: session slots, peer entries and the Cord's sequence in the island, and what Falornyr held of its old epoch. -/
def restartEmpty (s : State) : State :=
  let s := s.setLed { s.led with peers := [], sess := [], seq := 0, tail := 0, chain := [] }
  s.setFw { s.fw with
    epochOpen := false, nextSeq := 0, stop := [], jobs := [], asks := [], ended := [], rejects := [], pend := [], batch := [], asms := [], sess := [], out := [], inbox := [],
    inSync := [], synced := false, rebuilt := s.fw.rebuilt && s.fw.goal == s.curProfile, bind := [], witAt := [], restart := false, saved := [] }

/-- The restart goes on once every block is OFF: the record is applied, the ledger island's keys are loaded again, and SYS_EVENT 2 and 1 are posted. -/
def restartEnd (s : State) : State :=
  if !s.fw.restart || !s.allOff then s
  else match s.runnable s.fw.goal with
    | none => s
    | some p =>
      let s := reachNoon (applyProfile (restartEmpty s) s.fw.goal p) p
      notify (notify (keyLoad s) opSysEvent 2) opSysEvent 1

/-- SYS_PROFILE_SELECT (R468, R469). -/
def profileSelect (s : State) (c : HostCmd) : State × Reply :=
  withParams s [c.p 1 < 4] <|
    match s.runnable (c.p 1) with
    | none => (s, .fail 6 0)
    | some p =>
      if !s.safetyMatches p then (s, .fail 6 0)
      else (s, .okThen [s.curProfile] (fun s => restartBegin s (c.p 1)))

/-- SYS_PROFILE_SELECT from mailbox `n`, and the warm restart that it started. -/
def sysProfileSelect (s : State) (n : Nat) : State :=
  if s.fw.restart then restartEnd (hostNow s n 0x0101 1 profileSelect) else hostNow s n 0x0101 1 profileSelect

end Sys2Proof.Machine
end

