-- ==== Sys2Proof/Machine/FwSys.lean ====
section
/-! DEFINITION. Host commands of the SYS, POWER, HEALTH and DEBUG groups (Tables 21-6, 21-7, 21-14, 21-15), and the hardware counters that the health
counters gather (R511). -/

namespace Sys2Proof.Machine

/-! ## Hardware counters (R511, Tables 25-1 and 25-3) -/

/-- The read-clear registers that feed health counters: per register the fields, and the group and index of each one's counter. -/
def counterRegs : List (Nat × List (Fld × Nat × Nat)) :=
  (List.range 6).map (fun k => (MEM_ECC_CNT k, [(MEM_ECC_CNT_corrected, 0, 0), (MEM_ECC_CNT_rescued, 0, 1), (MEM_ECC_CNT_poisoned, 0, 2)])) ++
  (List.range 6).map (fun k => (MEM_PAR_CNT k, [(MEM_PAR_CNT_reissues, 0, 3)])) ++
  [(MEM_CSRAM_ECC, [(MEM_CSRAM_ECC_corrected, 0, 5), (MEM_CSRAM_ECC_poisoned, 0, 5)]), (MEM_DOZE_STAT, [(MEM_DOZE_STAT_entries, 0, 6)])] ++
  (List.range 4).flatMap (fun n =>
    [(HEAD_WIT_CNT n, [(HEAD_WIT_CNT_mismatch, 1, 0), (HEAD_WIT_CNT_log_lost, 1, 4)]),
     (HEAD_CNT n, [(HEAD_CNT_underrun, 1, 1), (HEAD_CNT_te_miss, 1, 2)]),
     (SCENE_FAULT n, [(SCENE_FAULT_fetch_err, 1, 6), (SCENE_FAULT_poison, 1, 6)])]) ++
  [(KIND_STALL, [(KIND_STALL_count, 2, 2)])] ++
  (List.range 96).map (fun n => (KPORT_MISS n, [(KPORT_MISS_port_miss, 2, 4), (KPORT_MISS_contend, 2, 5), (KPORT_MISS_trips, 2, 6)])) ++
  [(PIN_GUARD_STAT, [(PIN_GUARD_STAT_trips, 2, 7)]), (LEDGER_CNT_2, [(LEDGER_CNT_2_reissued, 3, 1), (LEDGER_CNT_2_xl_fail, 3, 4)]),
   (LEDGER_CNT_0, [(LEDGER_CNT_0_sig_bad, 3, 2)]), (LEDGER_CNT_1, [(LEDGER_CNT_1_auth_fail, 3, 3)]),
   (LEDGER_SEEN_STAT, [(LEDGER_SEEN_STAT_evictions, 3, 6)]),
   (FLOOR_CNT_1 0, [(FLOOR_CNT_1_dropped, 4, 3)]), (FLOOR_CNT_1 1, [(FLOOR_CNT_1_dropped, 4, 3)]),
   (HOST_CNT, [(HOST_CNT_refused, 6, 0), (HOST_CNT_aer, 6, 1)]), (FAB_ERR_CNT, [(FAB_ERR_CNT_total, 7, 6)]), (INTC_STAT, [(INTC_STAT_storms, 7, 7)])]

/-- A register that Falornyr reads: what its counters held is added to the health counters, so that nothing is lost by the read. -/
def takeReg (s : State) (a : Nat) : State × Nat :=
  let r := regRead s a
  let fs := (counterRegs.lookup a).getD []
  (fs.foldl (fun s f => healthAdd s f.2.1 f.2.2 (getF r.2 f.1)) r.1, r.2.toNat)

/-- Several registers read in order. -/
def takeRegs (s : State) (as : List Nat) : State × List Nat :=
  as.foldl (fun (r : State × List Nat) a => let t := takeReg r.1 a; (t.1, r.2 ++ [t.2])) (s, [])

/-- The results of registers read in order. -/
def regReply (s : State) (as : List Nat) : State × Reply := let r := takeRegs s as; (r.1, .ok r.2)

/-- Every hardware counter gathered (R511). -/
def gather (s : State) : State := (takeRegs s (counterRegs.map (·.1))).1

/-! ## SYS (Table 21-6) -/

/-- A 64-bit value as its two words, low word first (R437). -/
def twoWords (v : Nat) : List Nat := [v % 2 ^ 32, v / 2 ^ 32 % 2 ^ 32]

/-- SYS_VERSION. The build number is the image's own. -/
def sysVersion (s : State) (_ : HostCmd) : State × Reply :=
  let v := (s.fw.image.map (·.version)).getD 0
  (s, .ok [v, (Config.buildNumber v).toNat, s.rw SYS_ID_0, s.rw SYS_ID_1, s.rw SYS_ID_2, s.curProfile])

/-- The address of the interleaved window that reaches an offset of a channel's interleaved part (R48). -/
def State.interleaveOf (s : State) (k off : Nat) : Option Nat :=
  match s.ilSet.idxOf? k with
  | some i => if off < s.ilSize then some (0x20000000 + (off / 256 * s.ilSet.length + i) * 256 + off % 256) else none
  | none => none

/-- Whether `n` bytes at a Kiln address lie in the interleaved window, or in one channel's alias (R445). -/
def State.windowRegion (s : State) (a n : Nat) : Bool :=
  (0x20000000 ≤ a && a + n ≤ 0x20000000 + s.ilSet.length * s.ilSize) ||
  (List.range 6).any (fun k => aliasAddr k 0 ≤ a && a + n ≤ aliasAddr k (s.chanCapacity k))

/-- Whether an address lies in the Seen table of a context. -/
def State.inSeen (s : State) (a : Nat) : Bool :=
  let within (base bits : Nat) := base ≤ a && a < base + 64 * 2 ^ bits
  within (s.fld LEDGER_SEEN_BASE LEDGER_SEEN_BASE_base * 64) (s.fld LEDGER_SEEN_CFG LEDGER_SEEN_CFG_bits) ||
  (s.bit LEDGER_SEEN_ALT_CFG LEDGER_SEEN_ALT_CFG_enable &&
    within (s.fld LEDGER_SEEN_ALT_BASE LEDGER_SEEN_ALT_BASE_base * 64) (s.fld LEDGER_SEEN_ALT_CFG LEDGER_SEEN_ALT_CFG_bits))

/-- Whether the granule at an address is barred to writes of the host (R445): mirrored, in a Seen table, or Falornyr's own, by either of its addresses. -/
def State.barred (s : State) (a : Nat) : Bool :=
  if 0x30000000 ≤ a then
    let k := (a - 0x30000000) / 0x2000000
    let off := a % 0x2000000
    let b := (s.interleaveOf k off).getD a
    (s.mirrorOf MEM_MIRROR_primary k off).isSome || (s.mirrorOf MEM_MIRROR_mirror k off).isSome || s.inSeen a || s.inSeen b ||
      Config.fwOwns (b / 65536)
  else s.inSeen a || ((s.deinterleave a).any (fun e => s.inSeen (aliasAddr e.1 e.2))) || Config.fwOwns (a / 65536)

/-- A window opened. -/
def openWindow (s : State) (w base size : Nat) (wr : Bool) : State :=
  let s := s.setReg (HOST_WIN_BASE w) (BitVec.ofNat 32 base)
  s.setReg (HOST_WIN_CFG w) (setF (setF (setF 0 HOST_WIN_CFG_enable 1) HOST_WIN_CFG_write (cond wr 1 0)) HOST_WIN_CFG_size size)

/-- SYS_WINDOW_OPEN (R445). -/
def sysWindowOpen (s : State) (c : HostCmd) : State × Reply :=
  let (w, base, size, wr) := (c.p 1, c.p 2, c.p 3, c.p 4)
  withParams s [w < 4, base % 65536 == 0 && s.windowRegion base (min size 1024 * 65536), 1 ≤ size && size ≤ 1024, wr < 2] <|
    if wr == 1 && (List.range (size * 256)).any (fun g => s.barred (base + 256 * g)) then (s, .fail 6 0)
    else (openWindow s w base size (wr == 1), .ok [w * 2 ^ 26])

/-- SYS_WINDOW_CLOSE. -/
def sysWindowClose (s : State) (c : HostCmd) : State × Reply :=
  withParams s [c.p 1 < 4] (s.setBit (HOST_WIN_CFG (c.p 1)) HOST_WIN_CFG_enable false, .ok [])

/-- SYS_BAR4. -/
def sysBar4 (s : State) (c : HostCmd) : State × Reply :=
  withParams s [c.p 1 < 8]
    (((s.setBit HOST_BAR4 HOST_BAR4_csram_en ((c.p 1).testBit 2)).setBit HOST_BAR4 HOST_BAR4_ls_en ((c.p 1).testBit 1)).setBit
      HOST_BAR4 HOST_BAR4_write ((c.p 1).testBit 0), .ok [])

/-- SYS_TIME. -/
def sysTime (s : State) (_ : HostCmd) : State × Reply := (s, .ok (twoWords s.tb ++ [s.fw.epoch, cond s.fw.ptpLock 1 0]))

/-- SYS_CERT (R458, R459): the certificate, in a buffer that holds it. -/
def sysCert (s : State) (c : HostCmd) : State × Reply :=
  match s.buffer (c.p 1) (c.p 2) with
  | none => (s, .fail 2 1)
  | some a =>
    withParams s [true, 192 ≤ c.p 2] <|
      if s.bit SYS_BOOT SYS_BOOT_cert_bad then (s, .fail 11 0)
      else
        let (s, ok) := fwWrite s a s.fw.cert
        (s, if ok then .ok [192] else .fail 10 0)

/-- SYS_IMAGE_STAGE: the image in a buffer verified by R461. -/
def sysImageStage (s : State) (c : HostCmd) : State × Reply :=
  match s.buffer (c.p 1) (c.p 2) with
  | none => (s, .fail 2 1)
  | some a =>
    withParams s [true, 256 ≤ c.p 2] <| withBuffer s a (c.p 2) fun s bs =>
      let ok := s.imageValid (c.p 2) bs
      let v := headerWord bs 4
      (s.setFw { s.fw with staged := some (v, ok) }, .ok [v, cond ok 1 0])

/-- SYS_ECHO. -/
def sysEcho (s : State) (c : HostCmd) : State × Reply := (s, .ok c.params)

/-! ## POWER (Table 21-7, R490) -/

/-- The heads that run in video mode. -/
def State.videoHeads (s : State) : List Nat := (List.range 4).filter (fun n => s.blkOn (9 + n) && !s.cmdMode n)

/-- A block restarted by its enable (R34). -/
def restartBlock (s : State) (n : Nat) : State := blockEnable (blockEnable s n false) n true

/-- The registers that Dusk replaces, with their values. -/
def State.duskRegs (s : State) (p : Profile) : List (Nat × Word) :=
  [(CLK_PLL_CTRL 0, setF (s.reg (CLK_PLL_CTRL 0)) CLK_PLL_CTRL_s 2), (MEM_DOZE_CFG, setF (s.reg MEM_DOZE_CFG) MEM_DOZE_CFG_enable 1)] ++
  p.duskHeads.filter (fun e => s.videoHeads.any (fun n => e.1 / 0x10000 == 0x4011 + n))

/-- Falornyr applies what Dusk changes: the Kiln divider, doze, the Retorts other than 0 and 1, and the timing of video-mode heads, which it restarts. -/
def duskApply (s : State) (p : Profile) : State :=
  let rs := s.duskRegs p
  let heads := s.videoHeads
  let s := s.setFw { s.fw with saved := rs.map (fun e => (e.1, s.reg e.1)), limit := p.dusk }
  let s := rs.foldl (fun s e => regWrite s e.1 e.2) s
  let s := (List.range 10).foldl (fun s k => if s.blkState (18 + k) == 0 then s else blockEnable s (18 + k) false) s
  heads.foldl restartBlock s

/-- Noon restores what Dusk changed. -/
def noonApply (s : State) (p : Profile) : State :=
  let heads := s.videoHeads
  let s := s.fw.saved.foldl (fun s e => regWrite s e.1 e.2) s
  let s := s.setFw { s.fw with saved := [], limit := p.noon }
  let s := (List.range 10).foldl (fun s k => if p.blocks.testBit (18 + k) then blockEnable s (18 + k) true else s) s
  heads.foldl restartBlock s

/-- The change completes when the blocks that it starts and stops have done so: Falornyr writes the state. -/
def powerDone (s : State) (target : Nat) : State × Reply :=
  if ((List.range 4).map (9 + ·) ++ (List.range 10).map (18 + ·)).any (fun b => s.blkState b == 1 || s.blkState b == 3) then (s, .later [target])
  else (s.setFld PWR_STATE PWR_STATE_state target, .ok [target])

/-- POWER_STATE (R490, R492). -/
def powerState (s : State) (c : HostCmd) : State × Reply :=
  let cur := s.fld PWR_STATE PWR_STATE_state
  withParams s [1 ≤ c.p 1 && c.p 1 ≤ 3] <|
    if s.cmdBusy c (fun d => d.op == c.op) then (s, .fail 4 0)
    else if c.p 1 == 3 then (stopBlocks s, .early [3] [3])
    else if c.p 1 == cur then (s, .ok [cur])
    else match s.profileNow with
      | none => (s, .fail 9 0)
      | some p => powerDone (if c.p 1 == 2 then duskApply s p else noonApply s p) (c.p 1)

/-- POWER_STATE carried on: Midnight is entered once the blocks have stopped. -/
def powerStateMore (s : State) (c : HostCmd) : State × Reply :=
  if c.p 1 == 3 then (if s.allOff then (midnightRequest s, .ok []) else (s, .later [3])) else powerDone s (c.p 1)

/-- POWER_STATUS: VDD_CORE as the last scaling step read it, and the hottest of the converted sensors. -/
def powerStatus (s : State) (_ : HostCmd) : State × Reply :=
  let temps := [16, 17, 18, 19].map (fun c => signed 16 (s.fld (ADC_RES c) ADC_RES_value))
  let hot := temps.foldl max (temps.getD 0 0)
  (s, .ok [s.fld PWR_STATE PWR_STATE_state, s.fld PWR_AVS_STAT PWR_AVS_STAT_vout_mv, wrapTo 32 hot, s.fld PWR_THERM PWR_THERM_throttle])

/-- POWER_WAKE (R494). -/
def powerWake (s : State) (c : HostCmd) : State × Reply :=
  withParams s [c.p 1 < 16] <|
    let s := (s.setFld PWR_WAKE PWR_WAKE_pin_en (c.p 1)).setBit PWR_WAKE PWR_WAKE_rtc_en (c.p 2 != 0)
    (if c.p 2 == 0 then s else s.setReg PWR_RTC_ALARM (BitVec.ofNat 32 (c.p 2)), .ok [])

/-- POWER_LIMIT: within the profile's limit for the state. -/
def powerLimit (s : State) (c : HostCmd) : State × Reply :=
  let most := match s.profileNow with
    | some p => if s.fld PWR_STATE PWR_STATE_state == 2 then p.dusk else p.noon
    | none => 0
  withParams s [c.p 1 ≤ most] (s.setFw { s.fw with limit := c.p 1 }, .ok [c.p 1])

/-! ## HEALTH (Table 21-14, R511 to R513) -/

/-- HEALTH_READ. -/
def healthRead (s : State) (c : HostCmd) : State × Reply :=
  withParams s [c.p 1 < 8] <|
    let s := gather s
    (s, .ok ((List.range (healthSize (c.p 1))).map (s.health (c.p 1))))

/-- HEALTH_CLEAR: the group's counters return to 0, and its alerts may be posted again. -/
def healthClear (s : State) (c : HostCmd) : State × Reply :=
  withParams s [c.p 1 < 8] <|
    let s := gather s
    (s.setFw { s.fw with health := s.fw.health.filter (fun e => e.1 / 16 != c.p 1), posted := s.fw.posted.filter (fun e => e.1 / 16 != c.p 1) }, .ok [])

/-- HEALTH_ALERT. -/
def healthAlertSet (s : State) (c : HostCmd) : State × Reply :=
  withParams s [c.p 1 < 8]
    (thresholdCheck (s.setFw { s.fw with thresholds := smSet (fun _ => 0) s.fw.thresholds (c.p 1) (c.p 2) }), .ok [])

/-- HEALTH_HEARTBEAT. -/
def healthHeartbeat (s : State) (c : HostCmd) : State × Reply := (s.setFw { s.fw with beat := c.p 1 }, .ok [])

/-! ## DEBUG (Table 21-15, R523, R531) -/

/-- DEBUG_UNLOCK: the attempt of R523 with 128 bytes from a buffer; ignored after 8 failures. -/
def debugUnlock (s : State) (c : HostCmd) : State × Reply :=
  match s.buffer (c.p 1) 128 with
  | none => (s, .fail 2 1)
  | some a => withBuffer s a 128 fun s bs =>
    let s := if 8 ≤ s.fld DBG_AUTH DBG_AUTH_fails then s else authEnd s bs
    (s, .ok [cond s.unlocked 1 0])

/-- DEBUG_TRACE: the values of DBG_TRACE_CTRL, DBG_TRACE_BASE and DBG_TRACE_SIZE. -/
def debugTrace (s : State) (c : HostCmd) : State × Reply :=
  ((dbgWrite (dbgWrite (dbgWrite s DBG_TRACE_BASE (BitVec.ofNat 32 (c.p 2))) DBG_TRACE_SIZE (BitVec.ofNat 32 (c.p 3))) DBG_TRACE_CTRL
    (BitVec.ofNat 32 (c.p 1))), .ok [])

/-- Words read one after another; none after an error or poison response. -/
def peekWords (s : State) (a : Nat) : Nat → State × Option (List Nat)
  | 0 => (s, some [])
  | n + 1 =>
    match fwRead s a 4 with
    | (s, none) => (s, none)
    | (s, some bs) =>
      match peekWords s (a + 4) n with
      | (s, some ws) => (s, some (leOf bs :: ws))
      | (s, none) => (s, none)

/-- DEBUG_PEEK. -/
def debugPeek (s : State) (c : HostCmd) : State × Reply :=
  withParams s [true, 1 ≤ c.p 2 && c.p 2 ≤ 14] <|
    match peekWords s (c.p 1) (c.p 2) with
    | (s, some ws) => (s, .ok ws)
    | (s, none) => (s, .fail 10 0)

end Sys2Proof.Machine
end

