-- ==== Sys2Proof/Machine/FwScene.lean ====
section
/-! DEFINITION. Host commands of the SCENE, HEAD and WITNESS groups (Tables 21-8, 21-9, 21-18 and 8-3). -/

namespace Sys2Proof.Machine

/-- The work of a command over head `n`, once the head exists and the profile provides it (R442). -/
def withHead (s : State) (c : HostCmd) (work : Nat → State × Reply) : State × Reply :=
  let n := c.p 1
  if 4 ≤ n then (s, .fail 2 1) else if !s.provides (9 + n) then (s, .fail 5 0) else work n

/-- The work over a buffer parameter, which must lie within one open window (R445). -/
def withBuf (s : State) (c : HostCmd) (i n : Nat) (work : Nat → State × Reply) : State × Reply :=
  match s.buffer (c.p i) n with
  | none => (s, .fail 2 i)
  | some a => work a

/-! ## SCENE (Table 21-8) -/

/-- Pairs of words. -/
def pairsOf : List Nat → List (Nat × Nat)
  | a :: b :: ws => (a, b) :: pairsOf ws
  | _ => []

/-- SCENE_COMMIT (R98): the frame at which the writes apply is the next. -/
def sceneCommit (s : State) (c : HostCmd) : State × Reply :=
  withHead s c fun n => withParams s [true, true, 1 ≤ c.p 3 && c.p 3 ≤ 1024] <| withBuf s c 2 (8 * c.p 3) fun a =>
    withBuffer s a (8 * c.p 3) fun s bs =>
      let ps := pairsOf (wordsLE bs)
      if ps.any (fun e => e.1 % 4 != 0 || 0x1000 ≤ e.1) then (s, .fail 2 2)
      else
        let hold := fun (s : State) (v : Nat) => regWrite s (SCENE_UPDATE n) (BitVec.ofNat 32 v)
        let s := hold (regWrites (hold s 1) (ps.map (fun e => (0x40100000 + 0x1000 * n + e.1, e.2)))) 0
        (s, .ok [(s.rw (HEAD_FRAME n) + 1) % 2 ^ 32])

/-- SCENE_PALETTE (R94). -/
def scenePalette (s : State) (c : HostCmd) : State × Reply :=
  withHead s c fun n => withParams s [true, c.p 2 < 128, c.p 3 < 128, true, c.p 5 < 2] <| withBuf s c 4 (1024 * (c.p 3 + 1)) fun a =>
    if (s.head n).palJob.isSome then (s, .fail 4 0)
    else
      let w := setF (setF (setF (setF 0 SCENE_PAL_LOAD_go 1) SCENE_PAL_LOAD_at_frame (c.p 5)) SCENE_PAL_LOAD_first (c.p 2)) SCENE_PAL_LOAD_count (c.p 3)
      (regWrites s [(SCENE_PAL_SRC n, a), (SCENE_PAL_LOAD n, w.toNat)], .ok [])

/-- SCENE_BLIT (R181): the list is started. -/
def sceneBlit (s : State) (c : HostCmd) : State × Reply :=
  if !s.provides 8 then (s, .fail 5 0)
  else withParams s [true, true, c.p 3 < 256] <| withBuf s c 1 32 fun list => withBuf s c 2 1024 fun surf =>
    if !s.blkOn 8 then (s, .fail 9 (s.blkState 8))
    else if s.bit BLK_STAT BLK_STAT_running then (s, .fail 4 0)
    else (regWrites s [(BLK_LIST, list), (BLK_SURF, surf), (BLK_PACE, c.p 3), (BLK_CTRL, 2 ^ 31)], .later c.params)

/-- SCENE_BLIT ends with the list. -/
def sceneBlitMore (s : State) (c : HostCmd) : State × Reply :=
  if s.bit BLK_STAT BLK_STAT_running then (s, .later c.params) else (s, .ok [s.rw BLK_STAT])

/-- SCENE_ASSIGN (R139): a head from 0 to 3, or 0xFF to park. -/
def sceneAssign (s : State) (c : HostCmd) : State × Reply :=
  withParams s [c.p 1 < 40, c.p 2 < 4 || c.p 2 == 0xFF, c.p 3 < 2] <|
    let w := setF (if c.p 2 == 0xFF then setF 0 SCENE_ASSIGN_park 1 else setF 0 SCENE_ASSIGN_head (c.p 2)) SCENE_ASSIGN_slot (c.p 3)
    regReply (regWrite s (SCENE_ASSIGN (c.p 1)) w) [SCENE_ASSIGN (c.p 1)]

/-- SCENE_BEAM (R114). -/
def sceneBeam (s : State) (c : HostCmd) : State × Reply :=
  withHead s c fun n => withParams s [true, true, c.p 3 < 2 ^ 14, true, c.p 5 < 2] <|
    withBuf s c 2 (32 * c.p 3) fun list => withBuf s c 4 4 fun ptr =>
      (regWrites s [(SCENE_BEAM_BASE n, list), (SCENE_BEAM_LEN n, c.p 3), (SCENE_BEAM_DPTR_INIT n, ptr),
                    (SCENE_BEAM_CTRL n, c.p 5 * 2 ^ 31)], .ok [])

/-- SCENE_STATUS. -/
def sceneStatus (s : State) (c : HostCmd) : State × Reply :=
  withHead s c fun n => regReply s [SCENE_SPR_STAT n, SCENE_SPR_PEAK n, SCENE_FAULT n, SCENE_COLL_STAT n, SCENE_BEAM_STAT n]

/-! ## HEAD (Tables 21-9 and 21-18, R554) -/

/-- Whether an earlier command still works on a head. -/
def State.headBusy (s : State) (c : HostCmd) (n : Nat) : Bool := s.cmdBusy c (fun d => [0x1100, 0x1101, 0x1104].contains d.op && d.p 1 == n)

/-- Whether a PKT_CTRL value holds no reserved encoding: a long packet (DSI data types 9 to 14 in their low digit; PRESUMED, assumption 46) carries at most
16 bytes. -/
def pktCtrlOk (w : Nat) : Bool :=
  let t := getF (BitVec.ofNat 32 w) HEAD_PKT_CTRL_dtype % 16
  !(9 ≤ t && t ≤ 14) || getF (BitVec.ofNat 32 w) HEAD_PKT_CTRL_wc ≤ 16

/-- The first word of a HEAD_CONFIG buffer that is out of range. -/
def configBad (ws : List Nat) : Option Nat :=
  if 64 < ws.getD 10 0 then some 10
  else (List.range (ws.getD 10 0)).findSome? (fun i =>
    if !pktCtrlOk (ws.getD (11 + 6 * i) 0) then some (11 + 6 * i)
    else if 200000 < ws.getD (16 + 6 * i) 0 then some (16 + 6 * i) else none)

/-- A firmware packet handed to a head (R143): data, then control with go. -/
def sendPacket (s : State) (n : Nat) (ctrl : Nat) (data : List Nat) : State :=
  let s := regWrites s ((data.take 4).zipIdx.map (fun e => (HEAD_PKT_DATA n e.2, e.1)))
  regWrite s (HEAD_PKT_CTRL n) (setF (BitVec.ofNat 32 ctrl) HEAD_PKT_CTRL_go 1)

/-- A head's registers set from the buffer's words 0 to 9. -/
def configRegs (s : State) (n : Nat) (ws : List Nat) : State :=
  regWrites s (([HEAD_CTRL n, HEAD_DPHY n, HEAD_SIZE n, HEAD_VTOTAL n, HEAD_VID_H n, HEAD_VID_V n, HEAD_RACE n, HEAD_TE n, HEAD_REFRESH n,
    HEAD_ACTIVE_TOL n]).zipIdx.map (fun e => (e.1, ws.getD e.2 0)))

/-- HEAD_CONFIG: the buffer is checked, the head restarted with its settings, and its packets kept, with 1 before them while one is on its way. -/
def headConfig (s : State) (c : HostCmd) : State × Reply :=
  withHead s c fun n => withBuf s c 2 44 fun a => withBuffer s a 44 fun s bs =>
    let k := (wordsLE bs).getD 10 0
    if 64 < k then (s, .fail 2 10)
    else withBuf s c 2 (4 * (11 + 6 * k)) fun a => withBuffer s a (4 * (11 + 6 * k)) fun s bs =>
      let ws := wordsLE bs
      match configBad ws with
      | some i => (s, .fail 2 i)
      | none =>
        if s.headBusy c n then (s, .fail 4 0)
        else
          let s := blockEnable s (9 + n) false
          (blockEnable (configRegs s n ws) (9 + n) true, .later ([n, 0] ++ ws.drop 11))

/-- The next packet of HEAD_CONFIG handed to its head, or its end. -/
def configNext (s : State) (n : Nat) (ws : List Nat) : State × Reply :=
  if ws.isEmpty then (s, .ok []) else (sendPacket s n (ws.getD 0 0) (ws.drop 1), .later ([n, 1] ++ ws))

/-- HEAD_CONFIG carried on: once the head is ON its packets go in order, each after the one before has gone and its delay has passed. -/
def headConfigMore (s : State) (c : HostCmd) : State × Reply :=
  let n := c.p 1
  if !s.blkOn (9 + n) then (s, .later c.params)
  else if c.p 2 == 0 then configNext s n (c.params.drop 2)
  else if s.bit (HEAD_PKT_CTRL n) HEAD_PKT_CTRL_go then (s, .later c.params)
  else configNext s n (c.params.drop 8)

/-- HEAD_ENABLE ends when the sequence that it began has ended. -/
def headEnableMore (s : State) (c : HostCmd) : State × Reply :=
  let b := 9 + c.p 1
  if s.blkState b == 0 || s.blkState b == 2 then (s, .ok [s.blkState b]) else (s, .later c.params)

/-- HEAD_ENABLE. -/
def headEnable (s : State) (c : HostCmd) : State × Reply :=
  withHead s c fun n => withParams s [true, c.p 2 < 2] <|
    if s.headBusy c n then (s, .fail 4 0) else headEnableMore (blockEnable s (9 + n) (c.p 2 == 1)) c

/-- HEAD_MARK. -/
def headMarkCmd (s : State) (c : HostCmd) : State × Reply :=
  withHead s c fun n => (regWrite s (HEAD_MARK n) (BitVec.ofNat 32 (c.p 2)), .ok [])

/-- HEAD_STATUS. -/
def headStatus (s : State) (c : HostCmd) : State × Reply :=
  withHead s c fun n => regReply s [HEAD_BEAM n, HEAD_BEAM_ERR n, HEAD_STAT n, HEAD_CNT n, HEAD_FRAME n, HEAD_SENT_LO n, HEAD_SENT_HI n,
    HEAD_SEEN_LO n, HEAD_SEEN_HI n, HEAD_FLIP_FRAME n]

/-- HEAD_PACKET (R143). -/
def headPacket (s : State) (c : HostCmd) : State × Reply :=
  withHead s c fun n => withParams s [true, pktCtrlOk (c.p 2)] <|
    if !s.blkOn (9 + n) then (s, .fail 9 (s.blkState (9 + n)))
    else if s.headBusy c n || s.bit (HEAD_PKT_CTRL n) HEAD_PKT_CTRL_go then (s, .fail 4 0)
    else (sendPacket s n (c.p 2) (c.params.drop 2), .later c.params)

/-- HEAD_PACKET ends when the packet has gone and any response is stored. -/
def headPacketMore (s : State) (c : HostCmd) : State × Reply :=
  let n := c.p 1
  if s.bit (HEAD_PKT_CTRL n) HEAD_PKT_CTRL_go then (s, .later c.params)
  else (s, .ok (s.fld (HEAD_PKT_CTRL n) HEAD_PKT_CTRL_resp_len :: (List.range 4).map (fun k => s.rw (HEAD_PKT_DATA n k))))

/-! ## WITNESS (Table 8-3) -/

/-- The greatest q of a head's ring whose entry is valid; 0 where none is. -/
def State.latestValid (s : State) (n : Nat) : Nat :=
  let top := (s.reg (HEAD_WIT_SEQ n)).toNat
  let ok (q : Nat) := let e := s.ringEntry n q; (leOf ((e.drop 56).take 4)).testBit 24 && leOf ((e.drop 36).take 4) == q
  (((List.range (min 64 top)).map (fun i => top - i)).find? ok).getD 0

/-- WITNESS_STATUS. -/
def witnessStatus (s : State) (c : HostCmd) : State × Reply :=
  withHead s c fun n =>
    let r := takeRegs s [HEAD_WIT_SEQ n, HEAD_WIT_STAT n, HEAD_WIT_CNT n]
    (r.1, .ok (r.2 ++ [s.latestValid n]))

/-- WITNESS_BIND. -/
def witnessBind (s : State) (c : HostCmd) : State × Reply :=
  withParams s [c.p 1 < 128, c.p 2 < 4 || c.p 2 == 0xFF] <|
    let rest := s.fw.bind.filter (fun e => e.1 != c.p 1)
    (s.setFw { s.fw with bind := if c.p 2 == 0xFF then rest else smInsert (c.p 1) (c.p 2) rest }, .ok [(s.fw.bind.lookup (c.p 1)).getD 0xFF])

/-- WITNESS_ENABLE (R166, R173 to R175): the log's registers are written where they change, and then WIT_CTRL. -/
def witnessEnable (s : State) (c : HostCmd) : State × Reply :=
  withHead s c fun n =>
    let base := s.buffer (c.p 4) (64 * c.p 5)
    withParams s [true, c.p 2 < 2, c.p 3 < 2, base.isSome, 1 ≤ c.p 5 && c.p 5 < 2 ^ 20] <|
      let change := fun (s : State) (a v : Nat) => if s.rw a == v then s else regWrite s a (BitVec.ofNat 32 v)
      let s := change (change s (HEAD_WIT_LOG_BASE n) (base.getD 0)) (HEAD_WIT_LOG_SIZE n) (c.p 5)
      (regWrite s (HEAD_WIT_CTRL n) (setF (setF 0 HEAD_WIT_CTRL_enable (c.p 2)) HEAD_WIT_CTRL_log_en (c.p 3)), .ok [])

/-- WITNESS_LOG_ACK (R175). -/
def witnessLogAck (s : State) (c : HostCmd) : State × Reply :=
  withHead s c fun n => (regWrite s (HEAD_WIT_LOG_RD n) (BitVec.ofNat 32 (c.p 2)), .ok [s.rw (HEAD_WIT_LOG_WR n)])

end Sys2Proof.Machine
end

