-- ==== Sys2Proof/Machine/FwMedia.lean ====
section
/-! DEFINITION. Host commands of the AUDIO and KINDLE groups (Tables 21-10 and 21-11). -/

namespace Sys2Proof.Machine

/-! ## AUDIO (Table 21-10, R194) -/

/-- The number of the block boundary that latches writes made now. -/
def State.nextLatch (s : State) : Nat := (s.rw AUD_BLOCK + 1) % 2 ^ 32

/-- The bytes that samples 0 to `last` of a format take (R197, R198). -/
def assetBytes (format last : Nat) : Nat := if format == 3 then 256 * (last / 505 + 1) else [1, 2, 4].getD format 4 * (last + 1)

/-- AUDIO_VOICE. -/
def audioVoice (s : State) (c : HostCmd) : State × Reply :=
  let v := c.p 1
  let format := getF (BitVec.ofNat 32 (c.p 2)) AUD_V_CTRL_format
  withParams s [v < 128, format < 4, true, c.p 4 < 2 ^ 24, c.p 5 < 2 ^ 24, 0x100 ≤ c.p 6 && c.p 6 ≤ 0x80000] <|
    withBuf s c 3 (assetBytes format (c.p 5)) fun a =>
      let block := s.nextLatch
      (regWrites s [(AUD_V_START v, a), (AUD_V_LOOP v, c.p 4), (AUD_V_END v, c.p 5), (AUD_V_STEP v, c.p 6), (AUD_V_GAIN v, c.p 7),
                    (AUD_V_CTRL v, c.p 2)], .ok [block])

/-- Whether a bus control value holds no reserved encoding. -/
def busCtrlOk (b w : Nat) : Bool :=
  let w := BitVec.ofNat 32 w
  getF w AUD_BUS_CTRL_nref != 0 && (!bitOf w AUD_BUS_CTRL_send_en || b < getF w AUD_BUS_CTRL_send)

/-- Whether an effect program's place lies within the store. -/
def busFxOk (w : Nat) : Bool :=
  let w := BitVec.ofNat 32 w
  !bitOf w AUD_BUS_FX_fx_en || (1 ≤ getF w AUD_BUS_FX_length && getF w AUD_BUS_FX_length ≤ 1536)

/-- AUDIO_BUS. -/
def audioBus (s : State) (c : HostCmd) : State × Reply :=
  let b := c.p 1
  withParams s [b < 16, busCtrlOk b (c.p 2), busFxOk (c.p 3), c.p 4 % 256 == 0, 32 ≤ c.p 5 && c.p 5 ≤ 65536] <|
    withBuf s c 4 (4 * c.p 5) fun a =>
      (regWrites s [(AUD_BUS_DLY b, a), (AUD_BUS_DLYLEN b, c.p 5), (AUD_BUS_FX b, c.p 3), (AUD_BUS_CTRL b, c.p 2)], .ok [])

/-- AUDIO_ROUTE. -/
def audioRoute (s : State) (c : HostCmd) : State × Reply :=
  withParams s [c.p 1 < 2, c.p 2 < (if c.p 1 == 0 then 64 else 72)]
    (regWrites s [(if c.p 1 == 0 then AUD_IN (c.p 2) else AUD_OUT (c.p 2), c.p 3)], .ok [])

/-- AUDIO_FX_LOAD. -/
def audioFxLoad (s : State) (c : HostCmd) : State × Reply :=
  withParams s [c.p 1 < 2048, 1 ≤ c.p 2 && c.p 1 + c.p 2 ≤ 2048] <| withBuf s c 3 (4 * c.p 2) fun a =>
    withBuffer s a (4 * c.p 2) fun s bs => (regWrites s ((wordsLE bs).zipIdx.map (fun e => (AUD_FX_PROG (c.p 1 + e.2), e.1))), .ok [])

/-- AUDIO_PORT. -/
def audioPort (s : State) (c : HostCmd) : State × Reply :=
  let w := BitVec.ofNat 32 (c.p 2)
  withParams s [c.p 1 < 4, getF w AUD_SP_CFG_width != 3 && getF w AUD_SP_CFG_rate != 7] <|
    regReply (regWrites s [(AUD_SP_CFG (c.p 1), c.p 2), (AUD_PDM, c.p 3)]) [AUD_SP_TRACK (c.p 1)]

/-- AUDIO_STATUS. -/
def audioStatus (s : State) (_ : HostCmd) : State × Reply :=
  regReply s [AUD_BLOCK, AUD_CNT, AUD_VEND 0, AUD_VEND 1, AUD_VEND 2, AUD_VEND 3]

/-! ## KINDLE (Table 21-11) -/

/-- The work of a command that needs the Kindling block ON (STATE, R442). -/
def withKindling (s : State) (work : State × Reply) : State × Reply := if s.blkOn 14 then work else (s, .fail 9 (s.blkState 14))

/-- KINDLE_LOAD (R271). -/
def kindleLoad (s : State) (c : HostCmd) : State × Reply :=
  withParams s [c.p 1 < 0x80000, c.p 1 + c.p 2 ≤ 0x80000] <| withBuf s c 3 (c.p 2) fun a => withBuffer s a (c.p 2) fun s bs =>
    let (s, ok) := fwWrite s (0x12000000 + c.p 1) bs
    (s, if ok then .ok [] else .fail 10 0)

/-- KINDLE_SLOTS ends once the table selected is active, or its check has failed. -/
def kindleSlotsMore (s : State) (c : HostCmd) : State × Reply :=
  if c.p 3 == 0 || s.curTable == c.p 1 || s.bit KIND_CTRL KIND_CTRL_bad_table then (s, .ok [s.rw KIND_CTRL]) else (s, .later c.params)

/-- KINDLE_SLOTS (R267, R268): the table's entries are written; to be activated, it is selected, with an old bad_table cleared. -/
def kindleSlots (s : State) (c : HostCmd) : State × Reply :=
  withParams s [c.p 1 < 2, true, c.p 3 < 2] <| withBuf s c 2 128 fun a => withKindling s <| withBuffer s a 128 fun s bs =>
    let s := regWrites s ((wordsLE bs).zipIdx.map (fun e => (KIND_SLOT (c.p 1) e.2, e.1)))
    let pick := setF (setF (s.readCodes KIND_CTRL) KIND_CTRL_next (c.p 1)) KIND_CTRL_bad_table 1
    kindleSlotsMore (if c.p 3 == 1 then regWrite s KIND_CTRL pick else s) c

/-- A thread started with a pc and sp, which Falornyr keeps for a restart (R276, R505). -/
def startThread (s : State) (t pc sp : Nat) : State :=
  regWrites s [(KIND_T_PC t, pc), (KIND_T_SP t, sp), (KIND_T_CTRL t, (setF 0 KIND_T_CTRL_start 1).toNat)]

/-- KINDLE_START (R276). -/
def kindleStart (s : State) (c : HostCmd) : State × Reply :=
  let t := c.p 1
  withParams s [t < 64] <| withKindling s <|
    if (s.thr t).state != .free then (s, .fail 9 (s.thr t).state.code)
    else
      let s := startThread s t (c.p 2) (c.p 3)
      (s.setFw { s.fw with starts := smInsert t (BitVec.ofNat 32 (c.p 2), BitVec.ofNat 32 (c.p 3)) (smErase s.fw.starts t) }, .ok [])

/-- KINDLE_STOP ends once the thread has halted and been freed. -/
def kindleStopMore (s : State) (c : HostCmd) : State × Reply :=
  let t := c.p 1
  match (s.thr t).state with
  | .free => (s, .ok [])
  | .halted | .faulted => (regWrites s [(KIND_T_CTRL t, (setF 0 KIND_T_CTRL_free 1).toNat)], .ok [])
  | _ => (s, .later c.params)

/-- KINDLE_STOP (R276, R289). -/
def kindleStop (s : State) (c : HostCmd) : State × Reply :=
  withParams s [c.p 1 < 64] <| withKindling s <| kindleStopMore (threadHalt s (c.p 1)) c

/-- KINDLE_PORTS (R292). -/
def kindlePorts (s : State) (c : HostCmd) : State × Reply :=
  withParams s [c.p 1 < 6] (regWrites s [(KPORT_EN (c.p 1), c.p 2)], .ok [])

/-- KINDLE_POLICY (R505). -/
def kindlePolicy (s : State) (c : HostCmd) : State × Reply :=
  withParams s [c.p 1 < 64] (s.setFw { s.fw with policy := smSet (fun _ => 0) s.fw.policy (c.p 1) (c.p 2) }, .ok [])

/-- KINDLE_STATUS. -/
def kindleStatus (s : State) (c : HostCmd) : State × Reply :=
  withParams s [c.p 1 < 64] <| regReply s [KIND_T_STAT (c.p 1), KIND_T_FAULT (c.p 1), KIND_T_FPC (c.p 1), KIND_STALL]

end Sys2Proof.Machine
end

