-- ==== Sys2Proof/Machine/FwLedger.lean ====
section
/-! DEFINITION. Host commands of the LEDGER and FLOOR groups (Tables 21-12, 21-13 and 21-19). -/

namespace Sys2Proof.Machine

/-! ## LEDGER (Table 21-12) -/

/-- A failure of a ledger command: status LEDGER with the status of Table 18-3 (R442). -/
def ledgerFail (status : Nat) : Reply := .fail 12 status

/-- LEDGER_STATUS. -/
def ledgerStatus (s : State) (_ : HostCmd) : State × Reply :=
  let r := takeRegs s [LEDGER_CORD_CAP, LEDGER_SEEN_STAT]
  (r.1, .ok (twoWords s.led.seq ++ twoWords s.led.tail ++ r.2 ++ [s.fw.epoch]))

/-- LEDGER_PERSISTED (R395, R504): the tail advances past the entry named, and a record that a full Cord held back is submitted again. -/
def ledgerPersisted (s : State) (c : HostCmd) : State × Reply :=
  let seq := c.p 1 + c.p 2 * 2 ^ 32
  withParams s [seq ≤ s.led.seq] <|
    let s := cordTailSet s (seq + 1)
    let tail := s.led.tail
    (resumeFor s stCordFull, .ok (twoWords tail))

/-- LEDGER_EXPORT: read windows onto the three primary regions through their channels' aliases. -/
def ledgerExport (s : State) (c : HostCmd) : State × Reply :=
  withParams s [c.p 1 < 2] <|
    if (List.range 3).any (fun i => !s.bit (MEM_MIRROR i) MEM_MIRROR_valid || s.fld (MEM_MIRROR i) MEM_MIRROR_size == 0) then (s, .fail 9 0)
    else
      let one := fun (s : State) (i : Nat) =>
        let base := aliasAddr (s.fld (MEM_MIRROR i) MEM_MIRROR_primary) (s.fld (MEM_MIRROR i) MEM_MIRROR_base * 0x40000)
        openWindow s (c.p 1 + i) base (4 * s.fld (MEM_MIRROR i) MEM_MIRROR_size) false
      ((List.range 3).foldl one s, .ok ((List.range 3).map (fun i => (c.p 1 + i) * 2 ^ 26)))

/-- LEDGER_PROGRAM. -/
def ledgerProgram (s : State) (c : HostCmd) : State × Reply :=
  withParams s [c.p 1 < 4096, 1 ≤ c.p 2 && c.p 1 + c.p 2 ≤ 4096] <| withBuf s c 3 (4 * c.p 2) fun a =>
    withBuffer s a (4 * c.p 2) fun s bs => (regWrites s ((wordsLE bs).zipIdx.map (fun e => (LEDGER_XL_PROG (c.p 1 + e.2), e.1))), .ok [])

/-- An upstream record (R389, R403) from the 128 bytes that a translation program wrote: Falornyr sets the TXID, the type, the flags but for reversal,
the time and what the record of an unwitnessed event leaves 0. -/
def State.upstreamRecord (s : State) (type : Nat) (out : List Byte) : List Byte :=
  let flags := recFlags out % 64 / 32 * 32 + 0x11 + cond s.isBench 8 0
  leBytes 8 s.nextTxid ++ leBytes 2 type ++ leBytes 4 flags ++ (out.drop 14).take 10 ++ leBytes 8 s.tb ++ List.replicate 32 0 ++
    (out.drop 64).take 32 ++ List.replicate 32 0

/-- Whether a translation engine that is ON is idle. -/
def State.xlIdle (s : State) : Bool := (enginesOf 0xD).any (fun e => s.blkOn (engineBlock e) && !s.engines.contains e)

/-- The external message translated and its record submitted (R374, R403); while every translation engine is busy it waits (R355). -/
def submitMessage (s : State) (c : HostCmd) (start type : Nat) (m : List Byte) : State × Reply :=
  if !s.engineOn 0xD then (ledgerNote s stNoEngine, ledgerFail stNoEngine)
  else if !s.xlIdle then (s, .later c.params)
  else
    let (w, s) := s.draw
    let (w', s) := s.draw
    let x := xlRun s.xlWord (w.toNat + w'.toNat * 2 ^ 32) 4097 (xlInit m 128 start)
    match x.stop with
    | some (0, _) =>
      let r := s.upstreamRecord type x.out
      (submitSeal (takeSeq s) r m .event, .ok (twoWords (recTxid r)))
    | some (st, _) => (ledgerNote s st, ledgerFail st)
    | none => (ledgerNote s stXlFail, ledgerFail stXlFail)

/-- LEDGER_SUBMIT (R386, R403): the message's TXID; its seal goes on as any record's. -/
def ledgerSubmit (s : State) (c : HostCmd) : State × Reply :=
  withParams s [true, 1 ≤ c.p 2 && c.p 2 ≤ 4096, c.p 3 < 4096, 0x0201 ≤ c.p 4 && c.p 4 ≤ 0x0203] <| withBuf s c 1 (c.p 2) fun a =>
    if s.fw.stop.contains whySeq then (s, ledgerFail stBadCmd)
    else if !s.fw.epochOpen then
      if s.fw.epoch == 1048575 then (healthEvent (healthCount s 5 5) 5 5, ledgerFail stBadCmd) else (s, .fail 9 0)
    else withBuffer s a (c.p 2) fun s m => submitMessage s c (c.p 3) (c.p 4) m

/-! ## LEDGER_RECOVER (R555) -/

/-- What Table 21-19 holds. -/
structure Recovery where
  journal : Bool
  last : Nat
  h : List Byte
  lastEntry : List Byte
  opened : List Byte
  txids : List Nat

/-- The buffer read by Table 21-19; none where its length or contents break it. -/
def recoveryOf (bs : List Byte) : Option Recovery :=
  let word (i : Nat) := leOf ((bs.drop (4 * i)).take 4)
  let n := word 107
  let quiet := ((bs.drop 4).take 424).all (· == 0) && n == 0
  let opened := (bs.drop 236).take 192
  if bs.length != 4 * (108 + 2 * n) || 65536 < n || 2 ≤ word 0 then none
  else if word 0 == 0 && !quiet then none
  else if word 0 == 1 && recType opened != 0x0301 then none
  else some ⟨word 0 == 1, word 1 + word 2 * 2 ^ 32, (bs.drop 12).take 32, (bs.drop 44).take 192, opened,
    (List.range n).map (fun i => leOf ((bs.drop (432 + 8 * i)).take 8))⟩

/-- Whether an entry is this node's own: self-sealed, or a batch (R391). -/
def ownEntry (node : Nat) (e : List Byte) : Bool := recTxid e == 0 || recTxid e / 2 ^ 54 == node

/-- Whether the seal of an entry verifies (R396): this device's, or that of the peer that it names. -/
def State.entryOk (s : State) (node : Nat) (e : List Byte) : Bool :=
  if ownEntry node e then peerSealOk (s.deviceQ ++ List.replicate 64 0) (e.take 128) (e.drop 128)
  else match s.peer (recTxid e / 2 ^ 54) with
    | some p => peerSealOk p (e.take 128) (e.drop 128)
    | none => false

/-- The entries that QDR keeps after the last persisted one (R396): from journal sequence j with chain value h, `run` those accepted since the last own
entry, `kept` those kept with the chain value after them; `k` bounds the slots. -/
def recoverFrom (s : State) (node : Nat) : Nat → Nat → List Byte → List (List Byte) → List (List Byte) × List Byte →
    State × List (List Byte) × List Byte
  | 0, _, _, _, kept => (s, kept)
  | k + 1, j, h, run, kept =>
    match if s.cordCap == 0 then none else s.cordSlot (j % s.cordCap) with
    | none => (s, kept)
    | some a =>
      match fwRead s a 192 with
      | (s, none) => (s, kept)
      | (s, some e) =>
        let h' := sha256 (h ++ e)
        if !s.entryOk node e then (s, kept)
        else if !ownEntry node e then recoverFrom s node k (j + 1) h' (run ++ [e]) kept
        else if (e.drop 32).take 32 != h then (s, kept)
        else recoverFrom s node k (j + 1) h' [] (kept.1 ++ run ++ [e], h')

/-- Whether a home address of memory lies in the Seen table of a context. -/
def State.seenCell (s : State) (ctx a : Nat) : Bool :=
  let k := (a - 0x30000000) / 0x2000000
  let base := if ctx == 1 then s.fld LEDGER_SEEN_ALT_BASE LEDGER_SEEN_ALT_BASE_base * 64 else s.fld LEDGER_SEEN_BASE LEDGER_SEEN_BASE_base * 64
  let bits := if ctx == 1 then s.fld LEDGER_SEEN_ALT_CFG LEDGER_SEEN_ALT_CFG_bits else s.fld LEDGER_SEEN_CFG LEDGER_SEEN_CFG_bits
  let within (x : Nat) := base ≤ x && x < base + 64 * 2 ^ bits
  0x30000000 ≤ a && (within a || (s.interleaveOf k (a % 0x2000000)).any within)

/-- A floor restored from a floor-raised record with its payload (R404). -/
def restoreFloor (s : State) (ctx : Nat) (e : List Byte) : State :=
  let v := e.drop 196
  if recType e == 0x0302 then
    floorRaise s ctx (leOf (v.take 2) % 1024) (max (s.floorOf ctx (leOf (v.take 2) % 1024)) (leOf ((v.drop 2).take 4) % 2 ^ 20 * 2 ^ 34 + leOf ((v.drop 6).take 8) % 2 ^ 34))
  else s

/-- A TXID that was admitted, inserted by SEEN_INSERT where it lies at or above its floor (R404). -/
def restoreTxid (s : State) (ctx : Nat) (e : List Byte) : State :=
  if recTxid e == 0 || s.belowFloor ctx (recTxid e) then s
  else
    let r := seenInsert s ctx (s.salt ctx) (recTxid e)
    ledgerNote r.s r.status

/-- Whether the Seen unit can take the insertions of a context: it is ON, and the context enabled (R355, R378). -/
def State.seenReady (s : State) (ctx : Nat) : Bool := s.engineOn 6 && (ctx == 0 || s.bit LEDGER_SEEN_ALT_CFG LEDGER_SEEN_ALT_CFG_enable)

/-- A Keeper's Seen table rebuilt after a reset (R404): a new salt and empty buckets, the floors of floor-raised records, and the TXIDs admitted at or
above them. The entries, each with its payload, are in journal order. -/
def rebuildSeen (s : State) (entries : List (List Byte)) : State :=
  let ctx := s.keeperCtx
  if !s.seenReady ctx then s
  else
    let s := { s with mem := s.mem.filter (fun e => !s.seenCell ctx e.1), ecc := s.ecc.filter (fun e => !s.seenCell ctx e.1) }
    let s := s.setLed { s.led with victims := s.led.victims.filter (fun e => e.1 != ctx) }
    let salted := fun (s : State) (k : Nat) =>
      let (w, s) := s.draw
      s.setReg (if ctx == 1 then LEDGER_SEEN_ALT_SALT k else LEDGER_SEEN_SALT k) w
    let s := (List.range 4).foldl salted s
    let s := entries.foldl (fun s e => restoreTxid s ctx e) (entries.foldl (fun s e => restoreFloor s ctx e) s)
    s.setFw { s.fw with rebuilt := true }

/-- The record of a TXID to be resent (R21, R399): as the Cord gave it back where recovery has read it there, else as the host has persisted it; the payload,
which the Cord does not hold, is the host's. -/
def oldRecord (kept : List (List Byte)) (txid : Nat) : List Byte × List Byte :=
  let copy := Config.persistedCopy txid
  ((kept.find? (fun e => recTxid e == txid)).getD (copy.take 192), copy.drop 192)

/-- Whether the job that is to open the epoch waits for something, and for what (R504). -/
def State.epochWaits (s : State) : Option Nat := (s.fw.jobs.find? (fun j => match j.why with | .epoch _ => true | _ => false)).bind (·.wait)

/-- The epoch opened (R385, R389, R394, R399, R419) after an epoch `prev`, with the last journal sequence recovered and the anchor. -/
def openEpoch (s : State) (prev last : Nat) (anchor : List Byte) (olds : List (List Byte × List Byte)) (count : Nat) : State × Reply :=
  let s := s.setFw { s.fw with epoch := prev + 1, nextSeq := 0, jobs := [] }
  let s := sealOwn s 0x0301 anchor (item 3 (leBytes 4 prev ++ leBytes 8 last ++ anchor)) (.epoch olds)
  if s.fw.epochOpen then (s, .ok [prev + 1, count])
  else match s.epochWaits with
    | some st => (s, ledgerFail st)
    | none => (s, .later [1, prev + 1, count])

/-- The durable journal and the entries recovered, each entry with its payload (R404). -/
def Recovery.entries (r : Recovery) (prev : Nat) (kept : List (List Byte)) : List (List Byte) :=
  (if r.journal then Config.durable prev r.last else []) ++ kept.map (fun e => e ++ (Config.persistedCopy (recTxid e)).drop 192)

/-- The recovery itself, from a buffer that passes its checks: the entries kept are handed to host software (R396; assumption 124). -/
def recoverWith (s : State) (r : Recovery) : State × Reply :=
  let node := if r.journal then recTxid r.opened / 2 ^ 54 else s.fw.node
  if r.journal && !peerSealOk (s.deviceQ ++ List.replicate 64 0) (r.opened.take 128) (r.opened.drop 128) then (s, .fail 11 0)
  else
    let s := s.setFw { s.fw with node := node }
    let first := if r.journal then r.last + 1 else 0
    let h := if r.journal then r.h else List.replicate 32 0
    let (s, kept, anchor) := recoverFrom s node s.cordCap first h [] ([], h)
    let epochs := ((if r.journal then [r.opened] else []) ++ kept.filter (fun e => recTxid e != 0 && ownEntry node e)).map (fun e => recTxid e / 2 ^ 34 % 2 ^ 20)
    let prev := epochs.foldl max 0
    if 1048575 ≤ prev then
      (healthEvent (healthCount (s.setFw { s.fw with epoch := prev }) 5 5) 5 5, ledgerFail stBadCmd)
    else
      let s := s.setFw { s.fw with handed := s.fw.handed ++ kept }
      let s := if s.mayKeep && !s.fw.rebuilt then rebuildSeen s (r.entries prev kept) else s
      openEpoch s prev (first + kept.length - 1) anchor (r.txids.map (oldRecord kept)) kept.length

/-- LEDGER_RECOVER whose epoch-open record waited for commands before it. -/
def ledgerRecoverMore (s : State) (c : HostCmd) : State × Reply :=
  if s.fw.epochOpen then (s, .ok (c.params.drop 1))
  else match s.fw.jobs.find? (fun j => j.dead) with
    | some j => (s, ledgerFail (j.wait.getD 0))
    | none => (s, .later c.params)

/-- LEDGER_RECOVER. -/
def ledgerRecover (s : State) (c : HostCmd) : State × Reply :=
  if s.fw.epochOpen then (s, .fail 9 0)
  else withParams s [true, 432 ≤ c.p 2 && c.p 2 ≤ 4 * (108 + 2 * 65536)] <| withBuf s c 1 (c.p 2) fun a =>
    withBuffer s a (c.p 2) fun s bs =>
      match recoveryOf bs with
      | none => (s, .fail 2 1)
      | some r => recoverWith s r

/-! ## FLOOR (Table 21-13) -/

/-- The value that FLOOR_p_CTRL gets from the port modes: bits [31:28] of port 0 in [3:0], of port 1 in [7:4]. -/
def portModeOf (modes p : Nat) : Nat := modes / 16 ^ p % 16 * 2 ^ 28

/-- Whether an EtherType value is not reserved. -/
def etypeOk (w : Nat) : Bool := 0x600 ≤ w % 65536 && w % 65536 != 0x88F7

/-- FLOOR_CONFIG. -/
def floorConfig (s : State) (c : HostCmd) : State × Reply :=
  withParams s [c.p 1 < 1024, c.p 2 = 0 || (c.p 2 = 1 && s.mayKeep), c.p 3 < 256, c.p 4 < 256 && c.p 4 % 4 != 3 && c.p 4 / 16 % 4 != 3, true, true, true, true, etypeOk (c.p 9)] <|
    let s := s.setFw { s.fw with node := c.p 1, role := c.p 2, rank := c.p 3 }
    (regWrites s [(FLOOR_MAC_LO 0, c.p 5), (FLOOR_MAC_HI 0, c.p 6), (FLOOR_MAC_LO 1, c.p 7), (FLOOR_MAC_HI 1, c.p 8), (FLOOR_ETYPE, c.p 9),
                  (FLOOR_CTRL 0, portModeOf (c.p 4) 0), (FLOOR_CTRL 1, portModeOf (c.p 4) 1)], .ok [])

/-- The Keeper of highest rank in a table (R415). -/
def topKeeper (ps : List (Nat × Nat)) : Option (Nat × Nat) :=
  ps.foldl (fun b e => match b with | some x => if x.2 < e.2 then some e else b | none => some e) none

/-- FLOOR_TABLE (R415, R403, R416): a Keeper that is new in the table is in sync, one that was out of sync stays so until FLOOR_RESYNC; a node that becomes the
active Keeper passes its own records to its Keeper side. -/
def floorTable (s : State) (c : HostCmd) : State × Reply :=
  withParams s [true, 1 ≤ c.p 2 && c.p 2 ≤ 16] <| withBuf s c 1 (8 * c.p 2) fun a => withBuffer s a (8 * c.p 2) fun s bs =>
    let ps := pairsOf (wordsLE bs)
    let bad := ps.any (fun e => 1024 ≤ e.1 || e.2 == 0 || 256 ≤ e.2) || (ps.map (·.2)).eraseDups.length != ps.length ||
      (ps.map (·.1)).eraseDups.length != ps.length
    match if bad then none else topKeeper ps with
    | none => (s, .fail 2 1)
    | some (k, _) =>
      let fresh := fun (n : Nat) => !s.fw.keepers.any (fun e => e.1 == n)
      let was := s.isActive
      let s := s.setFw { s.fw with
        keepers := ps, active := some k, inSync := ((ps.map (·.1)).filter (· != k)).filter (fun n => fresh n || s.fw.inSync.contains n)
        synced := fresh s.fw.node || s.fw.synced }
      (if s.isActive && !was then passOwn s else s, .ok [k, s.fw.term])

/-- Whether a certificate verifies (R458, R459). -/
def certVerifies (cert : List Byte) : Bool :=
  cert.take 4 == [0x58, 0x44, 0x43, 0x31] && ((cert.drop 116).take 12).all (· == 0) &&
    ecdsaVerify (Config.issuerKey (leOf ((cert.drop 112).take 4))) (sha256 (cert.take 128)) (cert.drop 128)

/-- FLOOR_PEER_ADD (R408, R421): the certificate is checked, the peer entry put, and a session opened where none is. -/
def floorPeerAdd (s : State) (c : HostCmd) : State × Reply :=
  let n := c.p 1
  withParams s [n < 1024 && n != s.fw.node, true, c.p 3 == 192] <| withBuf s c 2 192 fun a => withBuffer s a 192 fun s cert =>
    if !certVerifies cert then (s, .fail 11 0)
    else
      let s := s.setPeer n ((cert.drop 16).take 96 ++ List.replicate 32 0)
      (if (s.fsess n).est then s else openSession s n, .ok [])

/-- FLOOR_PEER_REMOVE (R421). -/
def floorPeerRemove (s : State) (c : HostCmd) : State × Reply :=
  withParams s [c.p 1 < 1024] ((s.setSess (c.p 1) none).setFsess (c.p 1) FwSess.init, .ok [])

/-- FLOOR_RESYNC at the active Keeper ends once a session joins it to the standby and every frame for it is covered. -/
def floorResyncMore (s : State) (c : HostCmd) : State × Reply :=
  let n := c.p 1
  let x := s.fsess n
  if !s.isActive then (s, .fail 9 0)
  else if x.est && x.held.isEmpty && x.wait.isEmpty then
    (s.setFw { s.fw with inSync := n :: s.fw.inSync.filter (· != n) }, .ok [1])
  else (s, .later c.params)

/-- FLOOR_RESYNC (R416): of a standby at the active Keeper, or of this node where it is the standby. -/
def floorResync (s : State) (c : HostCmd) : State × Reply :=
  withParams s [s.fw.keepers.any (fun e => e.1 == c.p 1) && s.fw.active != some (c.p 1)] <|
    if c.p 1 == s.fw.node then (s.setFw { s.fw with synced := true }, .ok [1]) else floorResyncMore s c

/-- FLOOR_PTP (R422). -/
def floorPtp (s : State) (c : HostCmd) : State × Reply :=
  withParams s [c.p 1 < 256, c.p 2 < 256, c.p 3 < 2] (s.setFw { s.fw with ptp := (c.p 1, c.p 2, c.p 3 == 1) }, .ok [])

/-- FLOOR_STATUS: path k in bit k; 0xFFFF while no Keeper is active. -/
def floorStatus (s : State) (c : HostCmd) : State × Reply :=
  withParams s [c.p 1 < 1024] <|
    let x := s.fsess (c.p 1)
    let r := takeRegs s [FLOOR_STAT 0, FLOOR_STAT 1]
    (r.1, .ok (r.2 ++ [cond x.up0 1 0 + cond x.up1 2 0, s.fw.active.getD 0xFFFF, s.fw.term]))

end Sys2Proof.Machine
end

