-- ==== Sys2Proof/Machine/Policies.lean ====
section
/-! DEFINITION. Falornyr's policies (R505 to R508), its polling of the hardware counters (R511, R512) and its heartbeat (R513). -/

namespace Sys2Proof.Machine

/-- The restarts of a thread (or, from 64, of a head) within the last `span` ticks of the timebase. -/
def State.recent (s : State) (key span : Nat) : List Nat :=
  ((s.fw.restarts.lookup key).getD []).filter (fun t => s.tb < t + span)

/-- A restart noted. -/
def noteRestart (s : State) (key span : Nat) : State :=
  s.setFw { s.fw with restarts := smInsert key (s.tb :: s.recent key span) (smErase s.fw.restarts key) }

/-- 60 seconds and 10 minutes of the timebase (R327). -/
def minute : Nat := 15000000000
def tenMinutes : Nat := 150000000000

/-! ## Threads (R505, R506) -/

/-- A partial message that a thread left at Kiln end `k` discarded: the tokens after its last complete message. -/
def dropPartial (s : State) (t k : Nat) : State :=
  let mine := match s.routeInto (256 + k) with | some e => e < 128 && (s.chEnd e).alloc && (s.chEnd e).owner == t | none => false
  if mine && !s.agentOn k then
    let x := s.kEnd k
    s.setKEnd k { x with rx := (x.rx.reverse.dropWhile (fun w => !isMarker w)).reverse }
  else s

/-- A thread freed and restarted from its KINDLE_START values where its allowance permits (R505); otherwise it stays as it is, with an alert for a counter. -/
def restartThread (s : State) (t counter : Nat) : State :=
  match s.fw.starts.lookup t with
  | some (pc, sp) =>
    if (s.recent t minute).length < smGet (fun _ => 0) s.fw.policy t then
      let s := (List.range 16).foldl (fun s k => dropPartial s t k) s
      let s := regWrites s [(KIND_T_CTRL t, (setF 0 KIND_T_CTRL_free 1).toNat)]
      healthCount (noteRestart (startThread s t pc.toNat sp.toNat) t minute) 2 1
    else healthAlert s 2 counter
  | none => healthAlert s 2 counter

/-- A thread exception (R505). -/
def threadFaultPolicy (s : State) (t : Nat) : State :=
  if !s.fwServes || 64 ≤ t || (s.thr t).state != .faulted then s else restartThread (healthCount s 2 0) t 0

/-- The thread that a thread waits for in the snapshot, when it was BLOCKED in CIN, COUT, LOCK or JOIN (R288, R506). -/
def State.snapNext (s : State) (t : Nat) : Option Nat :=
  let w := (s.reg (KIND_SNAP t)).toNat
  if bitsN w 31 29 == 2 && 1 ≤ bitsN w 28 26 && bitsN w 28 26 ≤ 4 && w.testBit 7 then some (w % 64) else none

/-- Whether following the snapshot from thread `u` comes to thread `t` within `k` edges. -/
def State.snapReaches (s : State) (t : Nat) : Nat → Nat → Bool
  | 0, _ => false
  | k + 1, u =>
    match s.snapNext u with
    | none => false
    | some v => v == t || s.snapReaches t k v

/-- A blocked thread on a cycle halted, freed and restarted. -/
def recoverThread (s : State) (t : Nat) : State :=
  let x := s.thr t
  if x.state == .blocked then
    let r := restartThread (s.setThr t { x with state := .halted, before := x.state, halt := false }) t 2
    if (r.thr t).state == .halted then r.setThr t x else r
  else s

/-- KINDLING_STALL (R506). -/
def stallRecovery (s : State) : State :=
  if !s.fwServes || !s.bit KIND_STALL KIND_STALL_fired || (List.range 64).any (fun t => (s.thr t).state == .halted) then s
  else
    let s := healthAlert (s.setBit KIND_STALL KIND_STALL_fired false) 2 2
    ((List.range 64).filter (fun t => s.snapReaches t 64 t)).foldl recoverThread s

/-! ## Heads (R507) -/

/-- A head whose witness is stuck, or whose beam has been lost for 1 s. -/
def headRestart (s : State) (n : Nat) : State :=
  if !s.fwServes || 4 ≤ n || !s.blkOn (9 + n) || !(s.bit (HEAD_WIT_STAT n) HEAD_WIT_STAT_stuck || s.bit (HEAD_BEAM n) HEAD_BEAM_lost) then s
  else if 3 ≤ (s.recent (64 + n) tenMinutes).length then healthAlert s 1 3
  else
    let s := s.setBit (HEAD_WIT_STAT n) HEAD_WIT_STAT_stuck false
    healthCount (noteRestart (restartBlock s (9 + n)) (64 + n) tenMinutes) 1 3

/-! ## The reference clock (R508) -/

/-- Source 104 is asserted, for either crystal, or XTAL_A is still not stable after 50 ms, which `persisted` says. The loss of XTAL_A is counted. -/
def xtalLossPolicy (s : State) (persisted : Bool) : State :=
  let xa := s.bit CLK_OSC_STAT CLK_OSC_STAT_xa_lost
  if !s.fwServes then s
  else if persisted then
    if s.bit CLK_OSC_STAT CLK_OSC_STAT_xa_stable then s else stopMoney ((safeRelease s false).setBit SYS_ALERT SYS_ALERT_fw true) whyClock
  else if !xa && !s.bit CLK_OSC_STAT CLK_OSC_STAT_xb_lost then s
  else healthAlert (if xa then healthCount s 7 2 else s) 7 2

/-! ## Health (R511 to R513) -/

/-- The counters of Table 25-3 that no hardware counter feeds and no other command counts: eye_low, spr_ovf, pll_unlock, throttle, pg_fault, lockups,
wdog and the ledger group's late. -/
def softCounters : List (Nat × Nat) := [(0, 4), (1, 5), (7, 3), (7, 4), (7, 5), (7, 0), (7, 1), (3, 7)]

/-- The 8-byte word of Falornyr's code that faulted is written anew from the signed image (R509). -/
def mendCode (s : State) : State :=
  match s.fw.mend with
  | none => s
  | some a =>
    let off := (a - 0x10000000) / 8 * 8
    let code := (s.fw.image.map (·.code)).getD []
    (busWrite (s.setFw { s.fw with mend := none }) iniKiln (0x10000000 + off) ((code.drop off).take 8) []).s

/-- Falornyr polls, repairs its code where that has faulted (R509; assumption 100), and submits again the SEALs that are due after 10 ms (R504; assumption 96): `noted` gives what it adds to the counters of `softCounters`, in their order. -/
def healthPoll (s : State) (noted : List Nat) : State :=
  if !s.fwServes then s
  else thresholdCheck ((softCounters.zip noted).foldl (fun s e => healthAdd s e.1.1 e.1.2 e.2) (gather (resumeDue (mendCode s))))

/-- The heartbeat. -/
def heartbeatPost (s : State) : State := if s.fwServes && s.fw.beat != 0 then notify s opHealthEvent 0xFF else s

end Sys2Proof.Machine
end

