-- ==== Sys2Proof/Machine/ExecBase.lean ====
section
/-! DEFINITION. What the meanings of the commands share: every command answers a next state whose wires are settled and whose queue is untouched; and the
rows that one shape covers. -/

namespace Sys2Proof.Machine

/-- A command that does `f` to everything but the queue; the wires then follow the state (R324, R516). -/
def run (f : State → State) (s : State) : Host.Outcome State Fault Refusal := .next (settle (keepQueue s (f s)))

/-- One cycle of the 250 MHz timebase clock with no command waiting: the timebase advances once PLL_FABRIC has locked (R327, R474), the
pin-control clock runs, and the trace unit while it is ON sends a record that waits (R32; assumption 41). -/
def idle (s : State) : State :=
  let u := if s.fwServes then catchUp s s.fw.ended.length else s
  let u := pinTick (if u.ember.tbOn then tbTick u else u)
  settle (keepQueue s (if u.blkOn 39 then traceDrain u 1 else u))

/-! ## Accesses -/

/-- A register read: the response holds the word. -/
def seeWord (r : State × Word) : State := hostSees r.1 r.2.toNat false false

/-- A write of a register, or a read of it when no word is given. -/
def readOrWrite (s : State) (wr : Option Word) (write : State → Word → State) (read : State → State × Word) : State :=
  match wr with
  | some w => write s w
  | none => seeWord (read s)

/-- An access of QDR memory, in its two windows of the map; an address elsewhere is none. One that maps to no installed memory is an access too, and gets
its error response (R48, R49). -/
def onlyQdr (s : State) (a : Nat) (f : State → State) : State :=
  match s.target a with
  | .qdr _ _ | .beyond => f s
  | _ => s

/-- An access of CSRAM; an address elsewhere is none. -/
def onlyCsram (s : State) (a : Nat) (f : State → State) : State :=
  match s.target a with
  | .csram _ => f s
  | _ => s

/-- An access of a register of the MBX block by the host, through BAR0, or by Kiln. -/
def mbxAccess (s : State) (host : Bool) (a : Nat) (wr : Option Word) : State :=
  if host then bar0Access s (a - 0x400A0000) 4 wr.isSome (wr.getD 0)
  else match wr with
    | some w => mbxWrite s idKiln a w
    | none => seeWord (mbxRead s idKiln a)

/-! ## Processors -/

/-- An instruction that writes registers and flags or moves the pc: `e` gives its effect from the registers, the flags and the pc. -/
def aluRow (s : State) (a : Agent) (i : Ins) (e : Ins → Regs → Flags → Word → Eff) : State :=
  match a with
  | .kiln => kilnIssue s i (fun s => kEff s i (e i s.kreg s.kflags s.kiln.pc))
  | .thread t => threadIssue s t i (fun s => tEff s t i (e i (s.tregs t) (s.thr t).flags (s.thr t).pc))

/-- A load or store: `m` gives the access from the registers. -/
def memRow (s : State) (a : Agent) (i : Ins) (m : Ins → Regs → MemOp) : State :=
  match a with
  | .kiln => kilnIssue s i (fun s => kMem s i (m i s.kreg))
  | .thread t => threadIssue s t i (fun s => tMem s t (m i (s.tregs t)))

/-- An instruction that Kiln has and threads lack (Table 11-1): on a thread it is undefined. -/
def kilnRow (s : State) (a : Agent) (i : Ins) (body : State → Ins → State) : State :=
  match a with
  | .kiln => kilnIssue s i (fun s => body s i)
  | .thread t => threadIssue s t i (fun _ => .fault 1)

/-- An instruction that threads have and Kiln lacks (Table 11-1): on Kiln it is undefined. -/
def threadRow (s : State) (a : Agent) (i : Ins) (body : State → Nat → Ins → TRes) : State :=
  match a with
  | .kiln => kilnIssue s i (fun s => kfault s 1 (BitVec.ofNat 32 i.word))
  | .thread t => threadIssue s t i (fun s => body s t i)

/-- NOP. -/
def nopRow (s : State) (a : Agent) (i : Ins) : State :=
  match a with
  | .kiln => kilnIssue s i (fun s => kdone s i.len)
  | .thread t => threadIssue s t i (fun s => .done s)

/-! ## Others -/

/-- The register values of the render at hand: those latched for the oldest outstanding, else for the block rendered last. -/
def State.fxVals (s : State) : List (Nat × Word) :=
  match s.aud.jobs.head? with
  | some j => j.vals
  | none => s.aud.prev

/-- What Falornyr does: nothing while it does not run. -/
def whileServing (s : State) (f : State → State) : State := if s.fwServes then f s else s

end Sys2Proof.Machine
end

