-- ==== Sys2Proof/Machine/ExecMem.lean ====
section
/-! DEFINITION. The meanings of the commands of registers, blocks, QDR memory and CSRAM (chapters 2 and 3), one definition per row. -/

namespace Sys2Proof.Machine

/-- REGISTER_WRITE (R7): A write to a register field that has no row of its own takes effect by its access code, and a reserved encoding leaves the
field unchanged. -/
def execRegisterWrite (port : Fin 12) (sup : Bool) (a w : Word) (size : Fin 3) (s : State) : Host.Outcome State Fault Refusal :=
  run (fun s => (busWrite s ⟨port, sup⟩ a.toNat (leBytes (2 ^ size.val) w.toNat) []).respond) s

/-- READ_CLEAR (R7): A read of an RC field returns the field and then clears it. -/
def execReadClear (port : Fin 12) (sup : Bool) (a : Word) (size : Fin 3) (s : State) : Host.Outcome State Fault Refusal :=
  run (fun s => (busRead s ⟨port, sup⟩ a.toNat (2 ^ size.val) []).respond) s

/-- BLOCK_ENABLE_WRITE (R33): A write of FAB_BLK_CTRL_n.enable starts a start or stop sequence, or sets or clears pending_start or pending_stop. -/
def execBlockEnableWrite (n : Fin 40) (on : Bool) (s : State) : Host.Outcome State Fault Refusal :=
  run (fun s => blockEnable s n on) s

/-- START_SEQUENCE_DONE (R35): A block's start sequence completes and the block moves to ON, or to STOPPING when pending_stop is set. -/
def execStartSequenceDone (n : Fin 40) (s : State) : Host.Outcome State Fault Refusal :=
  run (fun s => startDone s n) s

/-- STOP_SEQUENCE_DONE (R36): A block's outstanding transfers drain and the block moves to OFF, or to STARTING when pending_start is set. -/
def execStopSequenceDone (n : Fin 40) (s : State) : Host.Outcome State Fault Refusal :=
  run (fun s => stopDone s n) s

/-- DRAIN_TIMEOUT (R36): After 4,096 island cycles of draining, the wrapper completes the outstanding transfers with an error response and sets
drain_timeout. -/
def execDrainTimeout (n : Fin 40) (s : State) : Host.Outcome State Fault Refusal :=
  run (fun s => drainTimeout s n) s

/-- BLOCK_RESET (R37): A write of FAB_BLK_CTRL_n.reset resets the block in Wrap mode, or in Idle mode when the block is idle, or is refused. -/
def execBlockReset (n : Fin 40) (s : State) : Host.Outcome State Fault Refusal :=
  run (fun s => blockReset s n) s

/-- BLOCK_RESET_RELEASE (R39): After 16 island cycles the block leaves reset in state ON with its registers at their reset values. -/
def execBlockResetRelease (n : Fin 40) (s : State) : Host.Outcome State Fault Refusal :=
  run (fun s => blockRelease s n) s

/-- QDR_READ (R55): A QDR read reaches its channel and is returned clean or corrected, rescued by re-read or mirror, or poisoned. -/
def execQdrRead (port : Fin 12) (a : Word) (len : Nat) (seen : List Nat) (s : State) : Host.Outcome State Fault Refusal :=
  run (fun s => onlyQdr s a.toNat fun s => (memRead s port a.toNat len seen).respond) s

/-- QDR_WRITE (R53): A QDR write takes effect in arrival order, as a read-modify-write when partial and on both channels when mirrored. -/
def execQdrWrite (port : Fin 12) (a : Word) (bytes : List Byte) (seen : List Nat) (s : State) : Host.Outcome State Fault Refusal :=
  run (fun s => onlyQdr s a.toNat fun s => (memWrite s port a.toNat bytes seen).respond) s

/-- CORRECTIVE_WRITE_BACK (R56): The corrected word is written back unless a newer write to the same word reached the controller first. -/
def execCorrectiveWriteBack (home : Nat) (s : State) : Host.Outcome State Fault Refusal :=
  run (fun s => writeBack s home) s

/-- ADDRESS_PARITY_ERROR (R57): A device address-parity report makes the controller reissue the commands of the last 16 controller cycles. -/
def execAddressParityError (k : Fin 6) (s : State) : Host.Outcome State Fault Refusal :=
  run (fun s => parityError s k) s

/-- SCRUB_GRANULE (R59): Every interval microseconds the patrol reads and corrects one 256-byte granule. -/
def execScrubGranule (k : Fin 6) (seen : List Nat) (s : State) : Host.Outcome State Fault Refusal :=
  run (fun s => scrubGranule s k seen) s

/-- TRAIN_CHANNEL (R63): A write to MEM_TRAIN_CTRL starts training of a channel. -/
def execTrainChannel (k : Fin 6) (s : State) : Host.Outcome State Fault Refusal :=
  run (fun s => trainStart s k) s

/-- TRAIN_DONE (R63): Training ends, sets trained or fail, and raises MEM_EVT.train. -/
def execTrainDone (k : Fin 6) (fail : Fin 8) (eye : Byte) (s : State) : Host.Outcome State Fault Refusal :=
  run (fun s => trainDone s k fail eye.toNat) s

/-- ZQ_RECALIBRATE (R64): Every 64 ms the PHY recalibrates its impedance and re-verifies write deskew on the tracking line. -/
def execZqRecalibrate (k : Fin 6) (failed : Bool) (s : State) : Host.Outcome State Fault Refusal :=
  run (fun s => zqRecal s k failed) s

/-- EYE_TRACK_WINDOW (R65): At the end of a 4,096-transition window, the capture point moves one step toward the edge that counted more. -/
def execEyeTrackWindow (k : Fin 6) (group : Fin 64) (early late : Nat) (s : State) : Host.Outcome State Fault Refusal :=
  run (fun s => eyeWindow s k group early late) s

/-- TRACKING_INJECT (R65): Every 10 µs in a slow window, the controller injects a read of the tracking line. -/
def execTrackingInject (k : Fin 6) (s : State) : Host.Outcome State Fault Refusal :=
  run (fun s => trackInject s k) s

/-- DOZE_ENTER (R66): After the idle time, with every tolerance above 250 ns plus the margin, the memory island enters doze. -/
def execDozeEnter (s : State) : Host.Outcome State Fault Refusal :=
  run (fun s => dozeEnter s) s

/-- DOZE_EXIT (R67): A request, or a tolerance falling to the limit, wakes the memory island within 250 ns. -/
def execDozeExit (s : State) : Host.Outcome State Fault Refusal :=
  run (fun s => dozeExit s) s

/-- MIRROR_CONFIG_WRITE (R62): A write of MEM_MIRROR_i takes effect only if its pair and region are consistent. -/
def execMirrorConfigWrite (j : Fin 3) (w : Word) (s : State) : Host.Outcome State Fault Refusal :=
  run (fun s => mirrorWrite s j w) s

/-- INTLV_WRITE (R49): A write of MEM_INTLV with enable at 1 is ignored while a channel in the set is untrained. -/
def execIntlvWrite (w : Word) (s : State) : Host.Outcome State Fault Refusal :=
  run (fun s => intlvWrite s w) s

/-- CSRAM_ACCESS (R69): A CSRAM access is served in order per bank, with correction or a poison response on reads. -/
def execCsramAccess (port : Fin 12) (a : Word) (wr : Option (List Byte)) (len : Nat) (seen : List Nat) (s : State) : Host.Outcome State Fault Refusal :=
  run (fun s => onlyCsram s a.toNat fun s => (match wr with | some bs => memWrite s port a.toNat bs seen | none => memRead s port a.toNat len seen).respond) s

end Sys2Proof.Machine
end

