-- ==== Sys2Proof/Machine/ExecScene.lean ====
section
/-! DEFINITION. The meanings of the commands of the scene engines and beam lists (chapters 4 to 6), one definition per row. -/

namespace Sys2Proof.Machine

/-- FRAME_BOUNDARY (R100): A head's frame boundary applies held values, restarts the beam list, takes the frame set and moves pipes. -/
def execFrameBoundary (n : Fin 4) (s : State) : Host.Outcome State Fault Refusal :=
  run (fun s => frameBoundary s n) s

/-- COMPOSE_LINE (R154): The composer composes one line of the frame set, or fast-forwards a line outside it. -/
def execComposeLine (n : Fin 4) (s : State) : Host.Outcome State Fault Refusal :=
  run (fun s => composeLine s n) s

/-- SPRITE_LINE_EVAL (R83): During the preceding line period the engine selects and accepts the sprites of line L within its limits. -/
def execSpriteLineEval (n : Fin 4) (s : State) : Host.Outcome State Fault Refusal :=
  run (fun s => spriteEval s n) s

/-- LAST_LINE_COMPOSED (R90): At the end of the last line, the collision rows are copied and the collision event is raised. -/
def execLastLineComposed (n : Fin 4) (s : State) : Host.Outcome State Fault Refusal :=
  run (fun s => lastLineComposed s n) s

/-- PAL_DATA_ACCESS (R93): An access to PAL_DATA reads or stores the selected palette entry, and advances the index when autoinc is 1. -/
def execPalDataAccess (n : Fin 4) (wr : Option Word) (s : State) : Host.Outcome State Fault Refusal :=
  run (fun s => readOrWrite s wr (palDataWrite · n) (palDataRead · n)) s

/-- PALETTE_LOAD (R94): A write of PAL_LOAD.go starts a copy of whole palettes, at once or after the last line of the frame. -/
def execPaletteLoad (n : Fin 4) (w : Word) (s : State) : Host.Outcome State Fault Refusal :=
  run (fun s => palLoadWrite s n w) s

/-- PALETTE_LOAD_DONE (R94): The palette copy ends and go clears, with late set if it ran past a frame boundary. -/
def execPaletteLoadDone (n : Fin 4) (s : State) : Host.Outcome State Fault Refusal :=
  run (fun s => palLoadDone s n) s

/-- SPR_RELOAD_REQUEST (R88): A write of SPR_CTRL.reload asks for a key reload at the next frame boundary. -/
def execSprReloadRequest (n : Fin 4) (s : State) : Host.Outcome State Fault Refusal :=
  run (fun s => sprReload s n) s

/-- UPDATE_HOLD_WRITE (R98): A write of UPDATE.hold starts holding writes, or schedules the held values for the next frame boundary. -/
def execUpdateHoldWrite (n : Fin 4) (hold : Bool) (s : State) : Host.Outcome State Fault Refusal :=
  run (fun s => updateHold s n hold) s

/-- BEAM_PREFETCH_FILL (R102): A 32-byte beat of the beam list enters the prefetch buffer. -/
def execBeamPrefetchFill (n : Fin 4) (waited : Nat) (s : State) : Host.Outcome State Fault Refusal :=
  run (fun s => beamFill s n waited) s

/-- BEAM_END (R104): END stops the sequencer until the next frame boundary. -/
def execBeamEnd (n : Fin 4) (s : State) : Host.Outcome State Fault Refusal :=
  run (fun s => beamEndCmd s n) s

/-- BEAM_WAITL (R104): WAITL sets the line target and waits for its setup window. -/
def execBeamWaitl (n : Fin 4) (s : State) : Host.Outcome State Fault Refusal :=
  run (fun s => beamWaitL s n) s

/-- BEAM_WAITL_RELEASE (R112): The setup window of the target line opens and the WAITL releases. -/
def execBeamWaitlRelease (n : Fin 4) (s : State) : Host.Outcome State Fault Refusal :=
  run (fun s => beamLineRelease s n) s

/-- BEAM_WAITX (R104): WAITX waits for the cycle that produces the named column pair. -/
def execBeamWaitx (n : Fin 4) (s : State) : Host.Outcome State Fault Refusal :=
  run (fun s => beamWaitX s n) s

/-- BEAM_WAITX_RELEASE (R111): The named pair is produced and the WAITX releases. -/
def execBeamWaitxRelease (n : Fin 4) (s : State) : Host.Outcome State Fault Refusal :=
  run (fun s => beamColRelease s n) s

/-- BEAM_WR (R109): WR writes one register or palette target, or is refused. -/
def execBeamWr (n : Fin 4) (s : State) : Host.Outcome State Fault Refusal :=
  run (fun s => beamWr s n) s

/-- BEAM_BWR (R104): BWR writes consecutive targets from inline data, or indirectly from memory through BEAM_DPTR. -/
def execBeamBwr (n : Fin 4) (s : State) : Host.Outcome State Fault Refusal :=
  run (fun s => beamBwr s n) s

/-- BEAM_SKIP (R106): SKIP passes over the next n commands when its condition holds. -/
def execBeamSkip (n : Fin 4) (s : State) : Host.Outcome State Fault Refusal :=
  run (fun s => beamSkipCmd s n) s

/-- BEAM_LOOP (R105): LOOP counts on its counter and branches back. -/
def execBeamLoop (n : Fin 4) (s : State) : Host.Outcome State Fault Refusal :=
  run (fun s => beamLoop s n) s

/-- BEAM_SIG (R118): SIG sets a bit of BEAM_SIG and raises the head's beam event and trigger. -/
def execBeamSig (n : Fin 4) (s : State) : Host.Outcome State Fault Refusal :=
  run (fun s => beamSig s n) s

/-- BEAM_TOUCH (R104): TOUCH marks a run of bands dirty. -/
def execBeamTouch (n : Fin 4) (s : State) : Host.Outcome State Fault Refusal :=
  run (fun s => beamTouch s n) s

/-- PIPE_ASSIGN (R139): A write of SCENE_ASSIGN_p starts the move of a pipe to another head. -/
def execPipeAssign (p : Fin 40) (w : Word) (s : State) : Host.Outcome State Fault Refusal :=
  run (fun s => pipeAssign s p w) s

/-- VIDEO_BASE_WRITE (R136): A write of Y_BASE or C_BASE is held until the next frame boundary and sets flip_pending. -/
def execVideoBaseWrite (n : Fin 4) (v : Fin 2) (chroma : Bool) (w : Word) (s : State) : Host.Outcome State Fault Refusal :=
  run (fun s => videoBaseWrite s n v chroma w) s

/-- VID_COEF_DATA_ACCESS (R131): An access to VID_COEF_DATA reads or stores the selected tap pair, and advances the index when autoinc is 1. -/
def execVidCoefDataAccess (n : Fin 4) (wr : Option Word) (s : State) : Host.Outcome State Fault Refusal :=
  run (fun s => readOrWrite s wr (coefWrite · n) (coefRead · n)) s

/-- GAMMA_DATA_ACCESS (R133): An access to GAMMA_DATA reads or stores the selected entry, and advances the index when autoinc is 1. -/
def execGammaDataAccess (n : Fin 4) (wr : Option Word) (s : State) : Host.Outcome State Fault Refusal :=
  run (fun s => readOrWrite s wr (gammaWrite · n) (gammaRead · n)) s

end Sys2Proof.Machine
end

