-- ==== Sys2Proof/Machine/ExecHead.lean ====
section
/-! DEFINITION. The meanings of the commands of the display heads and the display witness (chapters 7 and 8), one definition per row. -/

namespace Sys2Proof.Machine

/-- TE_SAMPLE (R146): A TE sample seeds or updates the beam model, or is rejected. -/
def execTeSample (te : TeSample) (s : State) : Host.Outcome State Fault Refusal :=
  run (fun s => teEvent s te.n te.te) s

/-- TE_MISSING (R147): With no TE by t_TE + P + P / 8, the model advances by a synthetic edge, and after 16 periods it is lost. -/
def execTeMissing (n : Fin 4) (s : State) : Host.Outcome State Fault Refusal :=
  run (fun s => teMissing s n) s

/-- BTA_TE_REQUEST (R145): The head hands the bus to the panel for a TE trigger when the modelled scan reaches te_line − 4. -/
def execBtaTeRequest (n : Fin 4) (due : Bool) (s : State) : Host.Outcome State Fault Refusal :=
  run (fun s => btaRequest s n due) s

/-- BTA_TIMEOUT (R145): The panel has not returned the bus within 2P, so bta_stuck is set and the head fault event raised. -/
def execBtaTimeout (n : Fin 4) (s : State) : Host.Outcome State Fault Refusal :=
  run (fun s => btaTimeout s n) s

/-- LINE_PACKET_START (R150): A line packet starts at its gate and is sent, with underrun fill when the line is not wholly composed. -/
def execLinePacketStart (n : Fin 4) (k : Nat) (s : State) : Host.Outcome State Fault Refusal :=
  run (fun s => linePacketStart s n k) s

/-- LINE_PACKET_END (R154): A line packet ends and frees its line-store slot. -/
def execLinePacketEnd (n : Fin 4) (s : State) : Host.Outcome State Fault Refusal :=
  run (fun s => packetEnd s n) s

/-- VIDEO_LINE_START (R157): In video mode a line period starts with its sync packets and pixel packet. -/
def execVideoLineStart (n : Fin 4) (k : Nat) (s : State) : Host.Outcome State Fault Refusal :=
  run (fun s => videoLineStart s n k) s

/-- HEAD_PACKET_SEND (R143): A write of PKT_CTRL.go sends a firmware packet in the next suitable idle time. -/
def execHeadPacketSend (n : Fin 4) (w : Word) (s : State) : Host.Outcome State Fault Refusal :=
  run (fun s => packetSend s n w) s

/-- HEAD_PACKET_DONE (R143): A firmware packet has been sent and any response stored, and go clears. -/
def execHeadPacketDone (n : Fin 4) (resp : List Byte) (err : Bool) (s : State) : Host.Outcome State Fault Refusal :=
  run (fun s => packetDone s n resp err) s

/-- HEAD_MARK_WRITE (R152): A write of HEAD_n_MARK marks bands, or all bands, pending. -/
def execHeadMarkWrite (n : Fin 4) (w : Word) (s : State) : Host.Outcome State Fault Refusal :=
  run (fun s => headMark s n w) s

/-- FLIP_RECORD_READ (R159): A read of SENT_LO latches the rest of the flip record. -/
def execFlipRecordRead (n : Fin 4) (s : State) : Host.Outcome State Fault Refusal :=
  run (fun s => seeWord (flipRead s n)) s

/-- HEAD_CTRL_WRITE (R161): The first write of HEAD_n_CTRL after HOLD sets HEAD_n_RESET_N from panel_reset and clears held. -/
def execHeadCtrlWrite (n : Fin 4) (w : Word) (s : State) : Host.Outcome State Fault Refusal :=
  run (fun s => headCtrlWrite s n w) s

/-- DESKEW_DONE (R160): After the deskew burst or start, the head sends its start DCS commands and waits for the model to seed. -/
def execDeskewDone (n : Fin 4) (s : State) : Host.Outcome State Fault Refusal :=
  run (fun s => deskewDone s n) s

/-- ROW_CHECK_DONE (R165): The loopback comparison of a row ends, and the row table entry is validated or invalidated. -/
def execRowCheckDone (n : Fin 4) (burst : List Byte) (s : State) : Host.Outcome State Fault Refusal :=
  run (fun s => rowChecked s n burst) s

/-- DIGEST_COMPLETE (R171): The frame digest completes and its ring entry, and log block, are written. -/
def execDigestComplete (n : Fin 4) (s : State) : Host.Outcome State Fault Refusal :=
  run (fun s => digestComplete s n) s

/-- WITNESS_CTRL_WRITE (R166): A change of WIT_CTRL.enable from 0 to 1 invalidates every row table entry. -/
def execWitnessCtrlWrite (n : Fin 4) (w : Word) (s : State) : Host.Outcome State Fault Refusal :=
  run (fun s => witCtrlWrite s n w) s

/-- WITNESS_LOG_CONFIG_WRITE (R175): A write of WIT_LOG_BASE or WIT_LOG_SIZE sets the write and read offsets to 0. -/
def execWitnessLogConfigWrite (n : Fin 4) (size : Bool) (w : Word) (s : State) : Host.Outcome State Fault Refusal :=
  run (fun s => witLogConfig s n (cond size (HEAD_WIT_LOG_SIZE n) (HEAD_WIT_LOG_BASE n)) w) s

/-- WITNESS_STATUS (R176): Command returning a head's witness sequence, status, counters and latest valid q. -/
def execWitnessStatus (mbx : Fin 4) (s : State) : Host.Outcome State Fault Refusal :=
  run (fun s => hostNow s mbx 0x1200 1 witnessStatus) s

/-- WITNESS_BIND (R176): Command binding a channel end to a head's witness, or unbinding it. -/
def execWitnessBind (mbx : Fin 4) (s : State) : Host.Outcome State Fault Refusal :=
  run (fun s => hostNow s mbx 0x1201 2 witnessBind) s

/-- WITNESS_ENABLE (R173): Command enabling a head's witness and log, and recording the sequence below which no entry is cited. -/
def execWitnessEnable (mbx : Fin 4) (s : State) : Host.Outcome State Fault Refusal :=
  run (fun s => hostNow s mbx 0x1202 5 witnessEnable) s

/-- WITNESS_LOG_ACK (R176): Command advancing a head's log read offset. -/
def execWitnessLogAck (mbx : Fin 4) (s : State) : Host.Outcome State Fault Refusal :=
  run (fun s => hostNow s mbx 0x1203 2 witnessLogAck) s

end Sys2Proof.Machine
end

