-- ==== Sys2Proof/Machine/ExecBlk.lean ====
section
/-! DEFINITION. The meanings of the commands of the block engine and DMA (chapter 9), one definition per row. -/

namespace Sys2Proof.Machine

/-- BLIT_GO (R181): A write of BLK_CTRL.go runs the command list from BLK_LIST. -/
def execBlitGo (s : State) : Host.Outcome State Fault Refusal :=
  run (fun s => blkGo s) s

/-- BLIT_ABORT (R181): A write of BLK_CTRL.abort stops the list after the bursts already issued. -/
def execBlitAbort (s : State) : Host.Outcome State Fault Refusal :=
  run (fun s => blkAbort s) s

/-- BLK_END (R178): END stops the list and sets done. -/
def execBlkEnd (s : State) : Host.Outcome State Fault Refusal :=
  run (fun s => blkEnd s) s

/-- BLK_COPY (R182): COPY copies pixel bits, in the traversal that the overlap requires. -/
def execBlkCopy (s : State) : Host.Outcome State Fault Refusal :=
  run (fun s => blkRun s 1) s

/-- BLK_FILL (R178): FILL sets each pixel of a rectangle to the colour. -/
def execBlkFill (s : State) : Host.Outcome State Fault Refusal :=
  run (fun s => blkRun s 2) s

/-- BLK_BLEND (R179): BLEND blends the source into the destination by a blend mode. -/
def execBlkBlend (s : State) : Host.Outcome State Fault Refusal :=
  run (fun s => blkRun s 3) s

/-- BLK_CONVERT (R178): CONVERT converts pixels between formats through the clut or by bit selection. -/
def execBlkConvert (s : State) : Host.Outcome State Fault Refusal :=
  run (fun s => blkRun s 4) s

/-- BLK_EXPAND (R178): EXPAND writes colour or background from A1 bits. -/
def execBlkExpand (s : State) : Host.Outcome State Fault Refusal :=
  run (fun s => blkRun s 5) s

/-- BLK_WAIT (R178): WAIT waits for the next occurrence of a trigger. -/
def execBlkWait (s : State) : Host.Outcome State Fault Refusal :=
  run (fun s => blkWait s) s

/-- BLK_WAITLINE (R185): WAITLINE waits until a head's current line reaches a line, or its next frame boundary. -/
def execBlkWaitline (s : State) : Host.Outcome State Fault Refusal :=
  run (fun s => blkWaitLine s) s

/-- BLK_WAIT_RELEASE (R185): The awaited trigger or line arrives and the block engine's wait releases. -/
def execBlkWaitRelease (s : State) : Host.Outcome State Fault Refusal :=
  run (fun s => blkRelease s) s

/-- BLK_SIG (R178): SIG sets a bit of BLK_STAT.sig and raises the block-engine event. -/
def execBlkSig (s : State) : Host.Outcome State Fault Refusal :=
  run (fun s => blkSig s) s

/-- BLK_BURST (R183): The block engine moves one burst of at most 256 bytes after its dead time. -/
def execBlkBurst (s : State) : Host.Outcome State Fault Refusal :=
  run (fun s => blkBurst s) s

/-- DMA_GO (R191): A write of DMA_CH_k_CTRL.go starts an IDLE channel at its descriptor. -/
def execDmaGo (k : Fin 16) (s : State) : Host.Outcome State Fault Refusal :=
  run (fun s => dmaGo s k) s

/-- DMA_ABORT (R192): A write of abort ends the chain after the bursts already issued. -/
def execDmaAbort (k : Fin 16) (s : State) : Host.Outcome State Fault Refusal :=
  run (fun s => dmaAbort s k) s

/-- DMA_PAUSE (R191): A write of pause = 1 stops new bursts and leaves the channel PAUSED at POS. -/
def execDmaPause (k : Fin 16) (s : State) : Host.Outcome State Fault Refusal :=
  run (fun s => dmaPause s k) s

/-- DMA_RESUME (R191): A write of pause = 0 resumes the channel from POS or resumes its wait. -/
def execDmaResume (k : Fin 16) (s : State) : Host.Outcome State Fault Refusal :=
  run (fun s => dmaResume s k) s

/-- DMA_TRIG_SW (R190): A write of trig_sw is an occurrence of trigger 63 for that channel. -/
def execDmaTrigSw (k : Fin 16) (s : State) : Host.Outcome State Fault Refusal :=
  run (fun s => dmaOccurrence s k 63) s

/-- DMA_TRIGGER (R190): A trigger occurrence releases a waiting channel, or sets trig_pend or trig_ovr. -/
def execDmaTrigger (trigger : Fin 64) (s : State) : Host.Outcome State Fault Refusal :=
  run (fun s => dmaTrigger s trigger) s

/-- DMA_DESC_LOAD (R187): A channel fetches and loads a descriptor, checks it and checks overlap. -/
def execDmaDescLoad (k : Fin 16) (seen : List Nat) (s : State) : Host.Outcome State Fault Refusal :=
  run (fun s => dmaDescLoad s k seen) s

/-- DMA_BURST (R189): The arbiter gives the next burst to the ready channel of highest priority or greatest age. -/
def execDmaBurst (s : State) : Host.Outcome State Fault Refusal :=
  run (fun s => dmaBurst s) s

/-- DMA_BURST_DONE (R192): A DMA burst completes, or stops the channel with an error code. -/
def execDmaBurstDone (k : Fin 16) (seen : List Nat) (s : State) : Host.Outcome State Fault Refusal :=
  run (fun s => dmaBurstDone s k seen) s

/-- DMA_DESC_END (R187): A descriptor's writes have completed, done sets when irq is 1, and the next descriptor loads. -/
def execDmaDescEnd (k : Fin 16) (s : State) : Host.Outcome State Fault Refusal :=
  run (fun s => dmaDescEnd s k) s

end Sys2Proof.Machine
end

