-- ==== Sys2Proof/Machine/ExecAudio.lean ====
section
/-! DEFINITION. The meanings of the commands of sound (chapter 10), one definition per row. -/

namespace Sys2Proof.Machine

/-- AUDIO_BLOCK_BOUNDARY (R194): At a block boundary the island latches register writes and starts rendering block k + 2. -/
def execAudioBlockBoundary (m : Nat) (s : State) : Host.Outcome State Fault Refusal :=
  run (fun s => audBoundary s m) s

/-- AUDIO_RENDER_DONE (R195): The render of a block completes. -/
def execAudioRenderDone (s : State) : Host.Outcome State Fault Refusal :=
  run (fun s => audRenderDone s) s

/-- VOICE_KEY_ON (R200): A write of key_on starts or restarts a voice at the next latch. -/
def execVoiceKeyOn (v : Fin 128) (s : State) : Host.Outcome State Fault Refusal :=
  run (fun s => s.setBit (AUD_V_CTRL v) AUD_V_CTRL_key_on true) s

/-- VOICE_KEY_OFF (R200): A write of key_off releases a voice at the next latch. -/
def execVoiceKeyOff (v : Fin 128) (s : State) : Host.Outcome State Fault Refusal :=
  run (fun s => s.setBit (AUD_V_CTRL v) AUD_V_CTRL_key_off true) s

/-- FX_END (R207): Effect END ends the program for this sample. -/
def execFxEnd (b : Fin 16) (s : State) : Host.Outcome State Fault Refusal :=
  run (fun s => fxEnd s.fxVals s b) s

/-- FX_MULK (R207): MULK multiplies by an immediate. -/
def execFxMulk (b : Fin 16) (d a : Fin 32) (imm : BitVec 16) (s : State) : Host.Outcome State Fault Refusal :=
  run (fun s => fxMulK s b d a (imm.setWidth 32)) s

/-- FX_MACK (R207): MACK accumulates a product with an immediate. -/
def execFxMack (b : Fin 16) (d a : Fin 32) (imm : BitVec 16) (s : State) : Host.Outcome State Fault Refusal :=
  run (fun s => fxMacK s b d a (imm.setWidth 32)) s

/-- FX_MUL (R207): MUL multiplies two registers. -/
def execFxMul (b : Fin 16) (d a c : Fin 32) (s : State) : Host.Outcome State Fault Refusal :=
  run (fun s => fxMul s b d a c) s

/-- FX_ADD (R207): ADD adds two registers with saturation. -/
def execFxAdd (b : Fin 16) (d a c : Fin 32) (s : State) : Host.Outcome State Fault Refusal :=
  run (fun s => fxAdd s b d a c) s

/-- FX_SUB (R207): SUB subtracts two registers with saturation. -/
def execFxSub (b : Fin 16) (d a c : Fin 32) (s : State) : Host.Outcome State Fault Refusal :=
  run (fun s => fxSub s b d a c) s

/-- FX_DRD (R208): DRD reads a tap of the delay ring. -/
def execFxDrd (b : Fin 16) (d : Fin 32) (imm : BitVec 16) (s : State) : Host.Outcome State Fault Refusal :=
  run (fun s => fxDrd s.fxVals s b d (imm.setWidth 32)) s

/-- FX_DWR (R208): DWR writes the delay ring at the write pointer. -/
def execFxDwr (b : Fin 16) (a : Fin 32) (s : State) : Host.Outcome State Fault Refusal :=
  run (fun s => fxDwr s b a) s

/-- FX_SAT (R207): SAT clamps a value to 24 bits. -/
def execFxSat (b : Fin 16) (d a : Fin 32) (s : State) : Host.Outcome State Fault Refusal :=
  run (fun s => fxSat s b d a) s

/-- FX_LDK (R207): LDK loads a shifted immediate. -/
def execFxLdk (b : Fin 16) (d : Fin 32) (imm : BitVec 16) (s : State) : Host.Outcome State Fault Refusal :=
  run (fun s => fxLdk s b d (imm.setWidth 32)) s

/-- AUDIO_PORT_LOCK (R210): A slave port locks to its measured frame rate. -/
def execAudioPortLock (k : Fin 4) (ppm : Word) (s : State) : Host.Outcome State Fault Refusal :=
  run (fun s => portLock s k ppm) s

/-- AUDIO_PORT_LOCK_LOSS (R210): A slave port loses lock on rate error or missing FS edges, and its inputs fade. -/
def execAudioPortLockLoss (k : Fin 4) (s : State) : Host.Outcome State Fault Refusal :=
  run (fun s => portLockLoss s k) s

/-- AUDIO_FIFO_ACCESS (R211): A raw-mode access to AUD_SP_k_FIFO takes a received word or queues a word to send. -/
def execAudioFifoAccess (k : Fin 4) (wr : Option Word) (s : State) : Host.Outcome State Fault Refusal :=
  run (fun s => readOrWrite s wr (fifoWrite · k) (fifoRead · k)) s

end Sys2Proof.Machine
end

