-- ==== Sys2Proof/Machine/ExecIsa.lean ====
section
/-! DEFINITION. The meanings of the commands of the instruction set (chapters 11 and 12), one definition per row. -/

namespace Sys2Proof.Machine

/-- MOV (R220): MOV copies a shifted register, in 16- or 32-bit form. -/
def execMov (a : Agent) (f : Form) (s : State) : Host.Outcome State Fault Refusal :=
  run (fun s => aluRow s a (Form.ins f 0x00 0x09) fun i g fl _ => effMov i g fl) s

/-- ADD (R222): ADD adds registers, in 16- or 32-bit form. -/
def execAdd (a : Agent) (f : Form) (s : State) : Host.Outcome State Fault Refusal :=
  run (fun s => aluRow s a (Form.ins f 0x01 0x00) fun i g _ _ => effAdd i g) s

/-- SUB (R222): SUB subtracts registers, in 16- or 32-bit form. -/
def execSub (a : Agent) (f : Form) (s : State) : Host.Outcome State Fault Refusal :=
  run (fun s => aluRow s a (Form.ins f 0x02 0x02) fun i g _ _ => effSub i g) s

/-- AND (R222): AND combines registers bitwise. -/
def execAnd (a : Agent) (f : Form) (s : State) : Host.Outcome State Fault Refusal :=
  run (fun s => aluRow s a (Form.ins f 0x03 0x05) fun i g fl _ => effAnd i g fl) s

/-- OR (R222): OR combines registers bitwise. -/
def execOr (a : Agent) (f : Form) (s : State) : Host.Outcome State Fault Refusal :=
  run (fun s => aluRow s a (Form.ins f 0x04 0x06) fun i g fl _ => effOr i g fl) s

/-- XOR (R222): XOR combines registers bitwise. -/
def execXor (a : Agent) (f : Form) (s : State) : Host.Outcome State Fault Refusal :=
  run (fun s => aluRow s a (Form.ins f 0x05 0x07) fun i g fl _ => effXor i g fl) s

/-- CMP (R223): CMP sets the flags of a subtraction. -/
def execCmp (a : Agent) (f : Form) (s : State) : Host.Outcome State Fault Refusal :=
  run (fun s => aluRow s a (Form.ins f 0x06 0x0B) fun i g _ _ => effCmp i g) s

/-- TST (R223): TST sets the flags of an AND. -/
def execTst (a : Agent) (f : Form) (s : State) : Host.Outcome State Fault Refusal :=
  run (fun s => aluRow s a (Form.ins f 0x15 0x0C) fun i g fl _ => effTst i g fl) s

/-- MOVI (R220): MOVI loads a zero-extended 5-bit immediate. -/
def execMovi (a : Agent) (cc : BitVec 2) (arg : BitVec 9) (s : State) : Host.Outcome State Fault Refusal :=
  run (fun s => aluRow s a (Form.ins (.short cc arg) 0x07 0) fun i _ _ _ => effMovi i) s

/-- ADDI (R222): ADDI adds a sign-extended immediate. -/
def execAddi (a : Agent) (f : Form) (s : State) : Host.Outcome State Fault Refusal :=
  run (fun s => aluRow s a (Form.ins f 0x08 0x10) fun i g _ _ => effAddi i g) s

/-- CMPI (R222): CMPI sets the flags of a subtraction of an immediate. -/
def execCmpi (a : Agent) (f : Form) (s : State) : Host.Outcome State Fault Refusal :=
  run (fun s => aluRow s a (Form.ins f 0x09 0x15) fun i g _ _ => effCmpi i g) s

/-- LSL (R220): LSL shifts left by an immediate. -/
def execLsl (a : Agent) (cc : BitVec 2) (arg : BitVec 9) (s : State) : Host.Outcome State Fault Refusal :=
  run (fun s => aluRow s a (Form.ins (.short cc arg) 0x0A 0) fun i g fl _ => effShift i g fl 0) s

/-- LSR (R220): LSR shifts right logically by an immediate. -/
def execLsr (a : Agent) (cc : BitVec 2) (arg : BitVec 9) (s : State) : Host.Outcome State Fault Refusal :=
  run (fun s => aluRow s a (Form.ins (.short cc arg) 0x0B 0) fun i g fl _ => effShift i g fl 1) s

/-- ASR (R220): ASR shifts right arithmetically by an immediate. -/
def execAsr (a : Agent) (cc : BitVec 2) (arg : BitVec 9) (s : State) : Host.Outcome State Fault Refusal :=
  run (fun s => aluRow s a (Form.ins (.short cc arg) 0x0C 0) fun i g fl _ => effShift i g fl 2) s

/-- LD (R220): The 16-bit LD loads a word, optionally advancing the base. -/
def execLd (a : Agent) (cc : BitVec 2) (arg : BitVec 9) (s : State) : Host.Outcome State Fault Refusal :=
  run (fun s => memRow s a (Form.ins (.short cc arg) 0x0D 0) fun i g => i.memA g true) s

/-- ST (R220): The 16-bit ST stores a word, optionally advancing the base. -/
def execSt (a : Agent) (cc : BitVec 2) (arg : BitVec 9) (s : State) : Host.Outcome State Fault Refusal :=
  run (fun s => memRow s a (Form.ins (.short cc arg) 0x0E 0) fun i g => i.memA g false) s

/-- LDSP (R220): LDSP loads a word at a stack offset. -/
def execLdsp (a : Agent) (cc : BitVec 2) (arg : BitVec 9) (s : State) : Host.Outcome State Fault Refusal :=
  run (fun s => memRow s a (Form.ins (.short cc arg) 0x0F 0) fun i g => i.memSp g true) s

/-- STSP (R220): STSP stores a word at a stack offset. -/
def execStsp (a : Agent) (cc : BitVec 2) (arg : BitVec 9) (s : State) : Host.Outcome State Fault Refusal :=
  run (fun s => memRow s a (Form.ins (.short cc arg) 0x10 0) fun i g => i.memSp g false) s

/-- B (R222): B branches relative to pc. -/
def execBranch (a : Agent) (f : Form) (s : State) : Host.Outcome State Fault Refusal :=
  run (fun s => aluRow s a (Form.ins f 0x11 0x2A) fun i _ _ pc => effB i pc) s

/-- CALL (R227): CALL writes lk and branches relative to pc. -/
def execCall (a : Agent) (f : Form) (s : State) : Host.Outcome State Fault Refusal :=
  run (fun s => aluRow s a (Form.ins f 0x12 0x2B) fun i _ _ pc => effCall i pc) s

/-- JR (R227): JR jumps to a register, optionally writing lk. -/
def execJr (a : Agent) (f : Form) (s : State) : Host.Outcome State Fault Refusal :=
  run (fun s => aluRow s a (Form.ins f 0x13 0x2C) fun i g _ _ => effJr i g) s

/-- NOT (R220): NOT writes the complement of a register. -/
def execNot (a : Agent) (cc : BitVec 2) (regs : BitVec 8) (s : State) : Host.Outcome State Fault Refusal :=
  run (fun s => aluRow s a (Form.ins (.short cc (0#1 ++ regs)) 0x14 0) fun i g fl _ => effNot i g fl) s

/-- NEG (R220): NEG writes the negation of a register. -/
def execNeg (a : Agent) (cc : BitVec 2) (regs : BitVec 8) (s : State) : Host.Outcome State Fault Refusal :=
  run (fun s => aluRow s a (Form.ins (.short cc (1#1 ++ regs)) 0x14 0) fun i g _ _ => effNeg i g) s

/-- ADC (R222): ADC adds with carry. -/
def execAdc (a : Agent) (cc : BitVec 4) (arg : BitVec 20) (s : State) : Host.Outcome State Fault Refusal :=
  run (fun s => aluRow s a (Form.ins (.long cc arg) 0 0x01) fun i g fl _ => effAdc i g fl) s

/-- SBC (R222): SBC subtracts with borrow. -/
def execSbc (a : Agent) (cc : BitVec 4) (arg : BitVec 20) (s : State) : Host.Outcome State Fault Refusal :=
  run (fun s => aluRow s a (Form.ins (.long cc arg) 0 0x03) fun i g fl _ => effSbc i g fl) s

/-- RSB (R222): RSB subtracts in reverse order. -/
def execRsb (a : Agent) (cc : BitVec 4) (arg : BitVec 20) (s : State) : Host.Outcome State Fault Refusal :=
  run (fun s => aluRow s a (Form.ins (.long cc arg) 0 0x04) fun i g _ _ => effRsb i g) s

/-- BIC (R222): BIC clears the bits of a shifted register. -/
def execBic (a : Agent) (cc : BitVec 4) (arg : BitVec 20) (s : State) : Host.Outcome State Fault Refusal :=
  run (fun s => aluRow s a (Form.ins (.long cc arg) 0 0x08) fun i g fl _ => effBic i g fl) s

/-- MVN (R222): MVN writes the complement of a shifted register. -/
def execMvn (a : Agent) (cc : BitVec 4) (arg : BitVec 20) (s : State) : Host.Outcome State Fault Refusal :=
  run (fun s => aluRow s a (Form.ins (.long cc arg) 0 0x0A) fun i g fl _ => effMvn i g fl) s

/-- MUL (R222): MUL writes the low word of a product. -/
def execMul (a : Agent) (cc : BitVec 4) (arg : BitVec 20) (s : State) : Host.Outcome State Fault Refusal :=
  run (fun s => aluRow s a (Form.ins (.long cc arg) 0 0x0D) fun i g fl _ => effMul i g fl) s

/-- SHV (R222): SHV shifts by a register amount. -/
def execShv (a : Agent) (cc : BitVec 4) (arg : BitVec 20) (s : State) : Host.Outcome State Fault Refusal :=
  run (fun s => aluRow s a (Form.ins (.long cc arg) 0 0x0E) fun i g fl _ => effShv i g fl) s

/-- CLZ (R222): CLZ counts leading zeros. -/
def execClz (a : Agent) (cc : BitVec 4) (arg : BitVec 20) (s : State) : Host.Outcome State Fault Refusal :=
  run (fun s => aluRow s a (Form.ins (.long cc arg) 0 0x0F) fun i g fl _ => effClz i g fl) s

/-- SUBI (R222): SUBI subtracts an immediate. -/
def execSubi (a : Agent) (cc : BitVec 4) (arg : BitVec 20) (s : State) : Host.Outcome State Fault Refusal :=
  run (fun s => aluRow s a (Form.ins (.long cc arg) 0 0x11) fun i g _ _ => effSubi i g) s

/-- ANDI (R222): ANDI ANDs with an immediate. -/
def execAndi (a : Agent) (cc : BitVec 4) (arg : BitVec 20) (s : State) : Host.Outcome State Fault Refusal :=
  run (fun s => aluRow s a (Form.ins (.long cc arg) 0 0x12) fun i g _ _ => effAndi i g) s

/-- ORI (R222): ORI ORs with an immediate. -/
def execOri (a : Agent) (cc : BitVec 4) (arg : BitVec 20) (s : State) : Host.Outcome State Fault Refusal :=
  run (fun s => aluRow s a (Form.ins (.long cc arg) 0 0x13) fun i g _ _ => effOri i g) s

/-- XORI (R222): XORI XORs with an immediate. -/
def execXori (a : Agent) (cc : BitVec 4) (arg : BitVec 20) (s : State) : Host.Outcome State Fault Refusal :=
  run (fun s => aluRow s a (Form.ins (.long cc arg) 0 0x14) fun i g _ _ => effXori i g) s

/-- MOVW (R222): MOVW loads a zero-extended 16-bit immediate. -/
def execMovw (a : Agent) (cc : BitVec 4) (arg : BitVec 20) (s : State) : Host.Outcome State Fault Refusal :=
  run (fun s => aluRow s a (Form.ins (.long cc arg) 0 0x16) fun i _ _ _ => effMovw i) s

/-- MOVT (R222): MOVT writes the upper halfword. -/
def execMovt (a : Agent) (cc : BitVec 4) (arg : BitVec 20) (s : State) : Host.Outcome State Fault Refusal :=
  run (fun s => aluRow s a (Form.ins (.long cc arg) 0 0x17) fun i g _ _ => effMovt i g) s

/-- LDW (R224): LDW loads a word by an addressing mode. -/
def execLdw (a : Agent) (cc : BitVec 4) (arg : BitVec 20) (s : State) : Host.Outcome State Fault Refusal :=
  run (fun s => memRow s a (Form.ins (.long cc arg) 0 0x18) fun i g => i.memM g 4 true false) s

/-- LDH (R224): LDH loads a zero-extended halfword. -/
def execLdh (a : Agent) (cc : BitVec 4) (arg : BitVec 20) (s : State) : Host.Outcome State Fault Refusal :=
  run (fun s => memRow s a (Form.ins (.long cc arg) 0 0x19) fun i g => i.memM g 2 true false) s

/-- LDHS (R224): LDHS loads a sign-extended halfword. -/
def execLdhs (a : Agent) (cc : BitVec 4) (arg : BitVec 20) (s : State) : Host.Outcome State Fault Refusal :=
  run (fun s => memRow s a (Form.ins (.long cc arg) 0 0x1A) fun i g => i.memM g 2 true true) s

/-- LDB (R224): LDB loads a zero-extended byte. -/
def execLdb (a : Agent) (cc : BitVec 4) (arg : BitVec 20) (s : State) : Host.Outcome State Fault Refusal :=
  run (fun s => memRow s a (Form.ins (.long cc arg) 0 0x1B) fun i g => i.memM g 1 true false) s

/-- LDBS (R224): LDBS loads a sign-extended byte. -/
def execLdbs (a : Agent) (cc : BitVec 4) (arg : BitVec 20) (s : State) : Host.Outcome State Fault Refusal :=
  run (fun s => memRow s a (Form.ins (.long cc arg) 0 0x1C) fun i g => i.memM g 1 true true) s

/-- STW (R224): STW stores a word. -/
def execStw (a : Agent) (cc : BitVec 4) (arg : BitVec 20) (s : State) : Host.Outcome State Fault Refusal :=
  run (fun s => memRow s a (Form.ins (.long cc arg) 0 0x1D) fun i g => i.memM g 4 false false) s

/-- STH (R224): STH stores a halfword. -/
def execSth (a : Agent) (cc : BitVec 4) (arg : BitVec 20) (s : State) : Host.Outcome State Fault Refusal :=
  run (fun s => memRow s a (Form.ins (.long cc arg) 0 0x1E) fun i g => i.memM g 2 false false) s

/-- STB (R224): STB stores a byte. -/
def execStb (a : Agent) (cc : BitVec 4) (arg : BitVec 20) (s : State) : Host.Outcome State Fault Refusal :=
  run (fun s => memRow s a (Form.ins (.long cc arg) 0 0x1F) fun i g => i.memM g 1 false false) s

/-- LEA (R222): LEA writes an effective address without an access. -/
def execLea (a : Agent) (cc : BitVec 4) (arg : BitVec 20) (s : State) : Host.Outcome State Fault Refusal :=
  run (fun s => aluRow s a (Form.ins (.long cc arg) 0 0x20) fun i g _ _ => effLea i g) s

/-- LDM (R230): LDM loads the registers of a mask, interruptibly. -/
def execLdm (a : Agent) (cc : BitVec 4) (arg : BitVec 20) (limit : Nat) (s : State) : Host.Outcome State Fault Refusal :=
  run (fun s => kilnRow s a (Form.ins (.long cc arg) 0 0x21) fun s i => kLdm s i limit) s

/-- STM (R230): STM stores the registers of a mask, interruptibly. -/
def execStm (a : Agent) (cc : BitVec 4) (arg : BitVec 20) (limit : Nat) (s : State) : Host.Outcome State Fault Refusal :=
  run (fun s => kilnRow s a (Form.ins (.long cc arg) 0 0x22) fun s i => kStm s i limit) s

/-- BMOV (R231): BMOV copies elements in ascending order, interruptibly. -/
def execBmov (a : Agent) (cc : BitVec 4) (arg : BitVec 20) (limit : Nat) (s : State) : Host.Outcome State Fault Refusal :=
  run (fun s => kilnRow s a (Form.ins (.long cc arg) 0 0x23) fun s i => kBmov s i limit) s

/-- BFILL (R231): BFILL writes an element value repeatedly, interruptibly. -/
def execBfill (a : Agent) (cc : BitVec 4) (arg : BitVec 20) (limit : Nat) (s : State) : Host.Outcome State Fault Refusal :=
  run (fun s => kilnRow s a (Form.ins (.long cc arg) 0 0x24) fun s i => kBfill s i limit) s

/-- BCRC (R232): BCRC folds bytes into a CRC accumulator, interruptibly. -/
def execBcrc (a : Agent) (cc : BitVec 4) (arg : BitVec 20) (limit : Nat) (s : State) : Host.Outcome State Fault Refusal :=
  run (fun s => kilnRow s a (Form.ins (.long cc arg) 0 0x25) fun s i => kBcrc s i limit) s

/-- DIV (R233): DIV issues a division to the side unit. -/
def execDiv (a : Agent) (cc : BitVec 4) (arg : BitVec 20) (s : State) : Host.Outcome State Fault Refusal :=
  run (fun s => kilnRow s a (Form.ins (.long cc arg) 0 0x26) fun s i => kSide s i) s

/-- MODR (R233): MODR issues a remainder to the side unit. -/
def execModr (a : Agent) (cc : BitVec 4) (arg : BitVec 20) (s : State) : Host.Outcome State Fault Refusal :=
  run (fun s => kilnRow s a (Form.ins (.long cc arg) 0 0x27) fun s i => kSide s i) s

/-- MUL64 (R233): MUL64 issues a 64-bit multiplication to the side unit. -/
def execMul64 (a : Agent) (cc : BitVec 4) (arg : BitVec 20) (s : State) : Host.Outcome State Fault Refusal :=
  run (fun s => kilnRow s a (Form.ins (.long cc arg) 0 0x28) fun s i => kSide s i) s

/-- SIDE_UNIT_COMPLETE (R250): The side unit completes and writes its registers, or reports divide by zero. -/
def execSideUnitComplete (s : State) : Host.Outcome State Fault Refusal :=
  run (fun s => sideUnitComplete s) s

/-- ADR (R222): ADR writes a pc-relative address. -/
def execAdr (a : Agent) (cc : BitVec 4) (arg : BitVec 20) (s : State) : Host.Outcome State Fault Refusal :=
  run (fun s => aluRow s a (Form.ins (.long cc arg) 0 0x29) fun i _ _ pc => effAdr i pc) s

/-- SVC (R260): SVC makes a system call, fast at User and framed at Supervisor. -/
def execSvc (a : Agent) (cc : BitVec 4) (arg : BitVec 20) (s : State) : Host.Outcome State Fault Refusal :=
  run (fun s => kilnRow s a (Form.ins (.long cc arg) 0 0x2D) fun s i => kSvc s i) s

/-- MRS (R238): MRS reads a system register. -/
def execMrs (a : Agent) (cc : BitVec 4) (arg : BitVec 20) (s : State) : Host.Outcome State Fault Refusal :=
  run (fun s => kilnRow s a (Form.ins (.long cc arg) 0 0x2F) fun s i => kMrs s i) s

/-- MSR (R238): MSR writes a system register. -/
def execMsr (a : Agent) (cc : BitVec 4) (arg : BitVec 20) (s : State) : Host.Outcome State Fault Refusal :=
  run (fun s => kilnRow s a (Form.ins (.long cc arg) 0 0x30) fun s i => kMsr s i) s

/-- NOP (R234): NOP does nothing. -/
def execNop (a : Agent) (f : Form) (s : State) : Host.Outcome State Fault Refusal :=
  run (fun s => nopRow s a (Form.sys f 0)) s

/-- BARRIER (R235): BARRIER completes when every earlier instruction, store and side-unit operation has completed. -/
def execBarrier (a : Agent) (f : Form) (s : State) : Host.Outcome State Fault Refusal :=
  run (fun s => kilnRow s a (Form.sys f 1) fun s i => kBarrier s i) s

/-- IFLUSH (R248): IFLUSH drains the store buffer, then discards the prefetch buffer and invalidates the instruction cache. -/
def execIflush (a : Agent) (f : Form) (s : State) : Host.Outcome State Fault Refusal :=
  run (fun s => kilnRow s a (Form.sys f 2) fun s i => kIflush s i) s

/-- WAIT (R237): WAIT stops issue until an interrupt is pending above ipl. -/
def execWait (a : Agent) (f : Form) (s : State) : Host.Outcome State Fault Refusal :=
  run (fun s => kilnRow s a (Form.sys f 3) fun s i => kWait s i) s

/-- ERET (R261): ERET returns from a framed or fast entry after the origin check. -/
def execEret (a : Agent) (f : Form) (s : State) : Host.Outcome State Fault Refusal :=
  run (fun s => kilnRow s a (Form.sys f 4) fun s i => kEret s i) s

/-- BRK (R528): BRK takes exception 9, or halts Kiln under brk_halt. -/
def execBrk (a : Agent) (f : Form) (s : State) : Host.Outcome State Fault Refusal :=
  run (fun s => kilnRow s a (Form.sys f 5) fun s _ => kBrk s) s

end Sys2Proof.Machine
end

