-- ==== Sys2Proof/Machine/ExecThread.lean ====
section
/-! DEFINITION. The meanings of the commands of the thread-only instructions (chapters 13 and 14), one definition per row. -/

namespace Sys2Proof.Machine

/-- IN (R299): IN reads a port's level, word or captured condition. -/
def execPortIn (a : Agent) (cc : BitVec 4) (arg : BitVec 20) (s : State) : Host.Outcome State Fault Refusal :=
  run (fun s => threadRow s a (threadOp cc arg 0x38 0 0) fun s t i => tIn s t i) s

/-- OUT (R301): OUT drives a port's value or word, untimed, timed or gated. -/
def execPortOut (a : Agent) (cc : BitVec 4) (arg : BitVec 20) (s : State) : Host.Outcome State Fault Refusal :=
  run (fun s => threadRow s a (threadOp cc arg 0x39 0 0) fun s t i => tOut s t i) s

/-- PCFG_MODE (R294): PCFG sub-op 0 sets a port's mode, taking or releasing the port. -/
def execPcfgMode (a : Agent) (cc : BitVec 4) (arg : BitVec 20) (s : State) : Host.Outcome State Fault Refusal :=
  run (fun s => threadRow s a (threadOp cc arg 0x3A 0xF 0) fun s t i => tPcfg s t i) s

/-- PCFG_CONDITION (R300): PCFG sub-op 1 sets a port's condition. -/
def execPcfgCondition (a : Agent) (cc : BitVec 4) (arg : BitVec 20) (s : State) : Host.Outcome State Fault Refusal :=
  run (fun s => threadRow s a (threadOp cc arg 0x3A 0xF 1) fun s t i => tPcfg s t i) s

/-- PCFG_COMPARE (R300): PCFG sub-op 2 sets a port's compare level, gate port and time. -/
def execPcfgCompare (a : Agent) (cc : BitVec 4) (arg : BitVec 20) (s : State) : Host.Outcome State Fault Refusal :=
  run (fun s => threadRow s a (threadOp cc arg 0x3A 0xF 2) fun s t i => tPcfg s t i) s

/-- PCFG_OUTPUT_TIME (R302): PCFG sub-op 3 makes the next OUT timed. -/
def execPcfgOutputTime (a : Agent) (cc : BitVec 4) (arg : BitVec 20) (s : State) : Host.Outcome State Fault Refusal :=
  run (fun s => threadRow s a (threadOp cc arg 0x3A 0xF 3) fun s t i => tPcfg s t i) s

/-- PCFG_CLOCK (R294): PCFG sub-op 4 selects a port's clock. -/
def execPcfgClock (a : Agent) (cc : BitVec 4) (arg : BitVec 20) (s : State) : Host.Outcome State Fault Refusal :=
  run (fun s => threadRow s a (threadOp cc arg 0x3A 0xF 4) fun s t i => tPcfg s t i) s

/-- PCFG_WIDTH (R294): PCFG sub-op 5 sets a port's width. -/
def execPcfgWidth (a : Agent) (cc : BitVec 4) (arg : BitVec 20) (s : State) : Host.Outcome State Fault Refusal :=
  run (fun s => threadRow s a (threadOp cc arg 0x3A 0xF 5) fun s t i => tPcfg s t i) s

/-- PCFG_CB_SOURCE (R295): PCFG of a clock block's source starts or stops the block. -/
def execPcfgCbSource (a : Agent) (cc : BitVec 4) (arg : BitVec 20) (s : State) : Host.Outcome State Fault Refusal :=
  run (fun s => threadRow s a (threadOp cc arg 0x3A 0xF 0) fun s t i => tPcfg s t i) s

/-- PCFG_CB_GATE (R295): PCFG of a clock block's gate sets its gate port. -/
def execPcfgCbGate (a : Agent) (cc : BitVec 4) (arg : BitVec 20) (s : State) : Host.Outcome State Fault Refusal :=
  run (fun s => threadRow s a (threadOp cc arg 0x3A 0xF 1) fun s t i => tPcfg s t i) s

/-- PCFG_CB_HIGH (R295): PCFG of a clock block's high time. -/
def execPcfgCbHigh (a : Agent) (cc : BitVec 4) (arg : BitVec 20) (s : State) : Host.Outcome State Fault Refusal :=
  run (fun s => threadRow s a (threadOp cc arg 0x3A 0xF 2) fun s t i => tPcfg s t i) s

/-- PCFG_CB_LOW (R295): PCFG of a clock block's low time. -/
def execPcfgCbLow (a : Agent) (cc : BitVec 4) (arg : BitVec 20) (s : State) : Host.Outcome State Fault Refusal :=
  run (fun s => threadRow s a (threadOp cc arg 0x3A 0xF 3) fun s t i => tPcfg s t i) s

/-- PTS (R305): PTS returns the latched capture of a port. -/
def execPts (a : Agent) (cc : BitVec 4) (arg : BitVec 20) (s : State) : Host.Outcome State Fault Refusal :=
  run (fun s => threadRow s a (threadOp cc arg 0x3B 0 0) fun s t i => tPts s t i) s

/-- CIN_DATA (R282): A data CIN takes a word or byte from an end's buffer. -/
def execCinData (a : Agent) (cc : BitVec 4) (arg : BitVec 20) (s : State) : Host.Outcome State Fault Refusal :=
  run (fun s => threadRow s a (threadOp cc arg 0x3C 8 0) fun s t i => tCin s t i) s

/-- CIN_CONTROL (R282): A control CIN takes a control token or end marker. -/
def execCinControl (a : Agent) (cc : BitVec 4) (arg : BitVec 20) (s : State) : Host.Outcome State Fault Refusal :=
  run (fun s => threadRow s a (threadOp cc arg 0x3C 0xC 8) fun s t i => tCin s t i) s

/-- COUT_DATA (R278): A data COUT sends a word or byte as data tokens. -/
def execCoutData (a : Agent) (cc : BitVec 4) (arg : BitVec 20) (s : State) : Host.Outcome State Fault Refusal :=
  run (fun s => threadRow s a (threadOp cc arg 0x3D 8 0) fun s t i => tCout s t i) s

/-- COUT_CONTROL (R278): A control COUT sends one control token. -/
def execCoutControl (a : Agent) (cc : BitVec 4) (arg : BitVec 20) (s : State) : Host.Outcome State Fault Refusal :=
  run (fun s => threadRow s a (threadOp cc arg 0x3D 0xC 8) fun s t i => tCout s t i) s

/-- COUT_END (R279): COUT of END sends CT_END and closes the outbound route. -/
def execCoutEnd (a : Agent) (cc : BitVec 4) (arg : BitVec 20) (s : State) : Host.Outcome State Fault Refusal :=
  run (fun s => threadRow s a (threadOp cc arg 0x3D 0xC 0xC) fun s t i => tCout s t i) s

/-- FORK (R273): FORK starts the lowest free thread of the pool. -/
def execFork (a : Agent) (cc : BitVec 4) (arg : BitVec 20) (s : State) : Host.Outcome State Fault Refusal :=
  run (fun s => threadRow s a (threadOp cc arg 0x3E 0xF 0) fun s t i => tFork s t i) s

/-- JOIN (R274): JOIN waits until a child thread is FREE. -/
def execJoin (a : Agent) (cc : BitVec 4) (arg : BitVec 20) (s : State) : Host.Outcome State Fault Refusal :=
  run (fun s => threadRow s a (threadOp cc arg 0x3E 0xF 1) fun s t i => tJoin s t i) s

/-- LOCK (R284): LOCK acquires a hardware lock or waits for it. -/
def execLock (a : Agent) (cc : BitVec 4) (arg : BitVec 20) (s : State) : Host.Outcome State Fault Refusal :=
  run (fun s => threadRow s a (threadOp cc arg 0x3E 0xF 2) fun s t i => tLock s t i) s

/-- UNLOCK (R284): UNLOCK releases a lock to the next waiter. -/
def execUnlock (a : Agent) (cc : BitVec 4) (arg : BitVec 20) (s : State) : Host.Outcome State Fault Refusal :=
  run (fun s => threadRow s a (threadOp cc arg 0x3E 0xF 3) fun s t i => tUnlock s t i) s

/-- TEXIT (R275): TEXIT frees the thread and its ends. -/
def execTexit (a : Agent) (cc : BitVec 4) (arg : BitVec 20) (s : State) : Host.Outcome State Fault Refusal :=
  run (fun s => threadRow s a (threadOp cc arg 0x3E 0xF 4) fun s t _ => tTexit s t) s

/-- TID (R239): TID returns the thread's own identifier. -/
def execTid (a : Agent) (cc : BitVec 4) (arg : BitVec 20) (s : State) : Host.Outcome State Fault Refusal :=
  run (fun s => threadRow s a (threadOp cc arg 0x3E 0xF 5) fun s t i => tTid s t i) s

/-- GETCH (R277): GETCH allocates a free channel end. -/
def execGetch (a : Agent) (cc : BitVec 4) (arg : BitVec 20) (s : State) : Host.Outcome State Fault Refusal :=
  run (fun s => threadRow s a (threadOp cc arg 0x3E 0xF 6) fun s t i => tGetch s t i) s

/-- FREECH (R277): FREECH frees an owned end with no open route. -/
def execFreech (a : Agent) (cc : BitVec 4) (arg : BitVec 20) (s : State) : Host.Outcome State Fault Refusal :=
  run (fun s => threadRow s a (threadOp cc arg 0x3E 0xF 7) fun s t i => tFreech s t i) s

/-- ROUTE (R279): ROUTE sets an end's destination, at once or held until the route closes. -/
def execRoute (a : Agent) (cc : BitVec 4) (arg : BitVec 20) (s : State) : Host.Outcome State Fault Refusal :=
  run (fun s => threadRow s a (threadOp cc arg 0x3E 0xF 8) fun s t i => tRoute s t i) s

/-- EWAIT (R285): EWAIT waits for an armed resource to be ready and returns its vector. -/
def execEwait (a : Agent) (cc : BitVec 4) (arg : BitVec 20) (s : State) : Host.Outcome State Fault Refusal :=
  run (fun s => threadRow s a (threadOp cc arg 0x3F 0xF 0) fun s t i => tEwait s t i) s

/-- EARM (R285): EARM arms a resource with a vector. -/
def execEarm (a : Agent) (cc : BitVec 4) (arg : BitVec 20) (s : State) : Host.Outcome State Fault Refusal :=
  run (fun s => threadRow s a (threadOp cc arg 0x3F 0xF 1) fun s t i => tEarm s t i) s

/-- EDIS (R285): EDIS disarms one resource. -/
def execEdis (a : Agent) (cc : BitVec 4) (arg : BitVec 20) (s : State) : Host.Outcome State Fault Refusal :=
  run (fun s => threadRow s a (threadOp cc arg 0x3F 0xF 2) fun s t i => tEdis s t i) s

/-- ECLR (R285): ECLR disarms every resource. -/
def execEclr (a : Agent) (cc : BitVec 4) (arg : BitVec 20) (s : State) : Host.Outcome State Fault Refusal :=
  run (fun s => threadRow s a (threadOp cc arg 0x3F 0xF 3) fun s t _ => tEclr s t) s

end Sys2Proof.Machine
end

