-- ==== Sys2Proof/Machine/ExecKind.lean ====
section
/-! DEFINITION. The meanings of the commands of Kiln's pipeline, Kindling and its ports (chapters 12 to 14), one definition per row. -/

namespace Sys2Proof.Machine

/-- EXCEPTION_ENTRY (R254): A recognised interrupt or fault takes the 18-cycle framed entry. -/
def execExceptionEntry (s : State) : Host.Outcome State Fault Refusal :=
  run (fun s => exceptionEntry s) s

/-- STORE_BUFFER_ISSUE (R244): The oldest store buffer entry is accepted by its target port and leaves the buffer. -/
def execStoreBufferIssue (seen : List Nat) (s : State) : Host.Outcome State Fault Refusal :=
  run (fun s => storeBufferIssue s seen) s

/-- LOAD_DATA_RETURN (R243): The data of a load from outside the TCMs returns and the pipeline resumes. -/
def execLoadDataReturn (seen : List Nat) (s : State) : Host.Outcome State Fault Refusal :=
  run (fun s => loadReturn s seen) s

/-- SLOT_ISSUE (R269): Each Kindling cycle the entry's thread, or a borrower, issues. -/
def execSlotIssue (s : State) : Host.Outcome State Fault Refusal :=
  run (fun s => slotGive s) s

/-- SLOT_TABLE_SWITCH (R268): At a wrap the selected slot table is checked and becomes active, or bad_table is set. -/
def execSlotTableSwitch (s : State) : Host.Outcome State Fault Refusal :=
  run (fun s => slotTableSwitch s) s

/-- THREAD_START (R276): A write of KIND_T_t_CTRL.start starts a FREE thread from Kiln. -/
def execThreadStart (t : Fin 64) (s : State) : Host.Outcome State Fault Refusal :=
  run (fun s => kilnStart s t) s

/-- THREAD_FREE (R276): A write of KIND_T_t_CTRL.free frees a HALTED or FAULTED thread, aborting its routes. -/
def execThreadFree (t : Fin 64) (s : State) : Host.Outcome State Fault Refusal :=
  run (fun s => kilnFree s t) s

/-- TOKEN_DELIVER (R281): A token enters a channel-end buffer or a Kiln end. -/
def execTokenDeliver (d : Fin 272) (s : State) : Host.Outcome State Fault Refusal :=
  run (fun s => tokenDeliver s d) s

/-- KEND_RX_READ (R283): A read of KIND_KEND_k_RX takes one token. -/
def execKendRxRead (k : Fin 16) (s : State) : Host.Outcome State Fault Refusal :=
  run (fun s => seeWord (kendRead s k)) s

/-- KEND_TX_WRITE (R283): A write of KIND_KEND_k_TX queues a token, or is dropped and sets tx_ovf. -/
def execKendTxWrite (k : Fin 16) (token : BitVec 10) (s : State) : Host.Outcome State Fault Refusal :=
  run (fun s => kendWrite s k token.toNat) s

/-- KEND_TX_SEND (R283): A queued Kiln-end token leaves under flow control. -/
def execKendTxSend (k : Fin 16) (s : State) : Host.Outcome State Fault Refusal :=
  run (fun s => kendSend s k) s

/-- CHANNEL_ABANDON (R290): A write of KIND_ABANDON sends CT_ABORT for a halted or faulted thread's open route. -/
def execChannelAbandon (e : Fin 128) (s : State) : Host.Outcome State Fault Refusal :=
  run (fun s => abandon s e) s

/-- STALL_DETECT (R287): When every busy thread has been stall-blocked for 1,024 cycles, the detector snapshots and raises KINDLING_STALL. -/
def execStallDetect (s : State) : Host.Outcome State Fault Refusal :=
  run (fun s => stallDetect s) s

/-- PORT_CONDITION_MET (R300): A port's condition is met on its filtered level or time, and the capture is taken. -/
def execPortConditionMet (n : Fin 96) (timer : BitVec 16) (level : Bool) (s : State) : Host.Outcome State Fault Refusal :=
  run (fun s => portCondition s n timer.toNat level) s

/-- PORT_WORD_IN (R299): A buffered input word completes and moves to the transfer register, or is dropped. -/
def execPortWordIn (n : Fin 96) (timer : BitVec 16) (bits : List Bool) (s : State) : Host.Outcome State Fault Refusal :=
  run (fun s => wordIn s n timer.toNat bits) s

/-- PORT_WORD_BOUNDARY (R301): At a word boundary the shift register reloads, or empties with underrun. -/
def execPortWordBoundary (n : Fin 96) (timer : BitVec 16) (s : State) : Host.Outcome State Fault Refusal :=
  run (fun s => wordBoundary s n timer.toNat) s

/-- PORT_TIMED_OUTPUT (R302): A pending timed output is applied at its tick. -/
def execPortTimedOutput (n : Fin 96) (s : State) : Host.Outcome State Fault Refusal :=
  run (fun s => portTimed s n) s

/-- FILTER_PULSE_LOST (R298): A port input pulse shorter than N samples is lost. -/
def execFilterPulseLost (n : Fin 96) (s : State) : Host.Outcome State Fault Refusal :=
  run (fun s => pulseLost s n) s

/-- PORT_CONTENTION (R304): A pin differing from its driven value for 16 cycles counts a contention and raises the port event. -/
def execPortContention (n : Fin 96) (level : Bool) (s : State) : Host.Outcome State Fault Refusal :=
  run (fun s => contention s n level) s

/-- ACTUATOR_TRIP (R309): An actuator port driven active for maxon × 100 µs trips inactive. -/
def execActuatorTrip (n : Fin 96) (s : State) : Host.Outcome State Fault Refusal :=
  run (fun s => actuatorTrip s n) s

/-- KPORT_LOCK_SET (R310): A write of KPORT_LOCK.lock makes every actuator setting read-only until COLD. -/
def execKportLockSet (s : State) : Host.Outcome State Fault Refusal :=
  run (fun s => s.setBit KPORT_LOCK KPORT_LOCK_lock true) s

end Sys2Proof.Machine
end

