-- ==== Sys2Proof/Machine/ExecPin.lean ====
section
/-! DEFINITION. The meanings of the commands of pins, timebase, timers and monitor ADC (chapters 15 and 16), one definition per row. -/

namespace Sys2Proof.Machine

/-- PIN_FUNCTION_SWITCH (R317): A pin gets a new owner at its switch instant and holds its level for 10 ns. -/
def execPinFunctionSwitch (n : Fin 96) (s : State) : Host.Outcome State Fault Refusal :=
  run (fun s => pinSwitch s n) s

/-- EXTL_LEVEL_CHANGE (R320): A pin-interrupt line passes a filtered level change to the interrupt controller. -/
def execExtlLevelChange (n : Fin 16) (level lost : Bool) (s : State) : Host.Outcome State Fault Refusal :=
  run (fun s => extlChange s n level lost) s

/-- GUARD_TRIP (R321): A guard held active for its filter time forces actuators inactive and SAFE_N low. -/
def execGuardTrip (g : Fin 4) (s : State) : Host.Outcome State Fault Refusal :=
  run (fun s => guardTrip s g) s

/-- GUARD_CLEAR (R322): A write of 1 to a tripped bit clears it only while the guard is inactive. -/
def execGuardClear (g : Fin 4) (s : State) : Host.Outcome State Fault Refusal :=
  run (fun s => guardClear s g) s

/-- GUARD_LOCK (R323): A write of PIN_SAFE.lock makes PIN_GUARD_CFG read-only until COLD. -/
def execGuardLock (s : State) : Host.Outcome State Fault Refusal :=
  run (fun s => guardLock s) s

/-- SAFE_RELEASE_WRITE (R324): A write of PIN_SAFE.release permits SAFE_N high, and is ignored while a trip is latched. -/
def execSafeReleaseWrite (release : Bool) (s : State) : Host.Outcome State Fault Refusal :=
  run (fun s => safeRelease s release) s

/-- BANK_SUPPLY_CHANGE (R318): A change of a bank's detected supply makes its outputs off or good against vsel. -/
def execBankSupplyChange (b : Fin 6) (v : Fin 4) (s : State) : Host.Outcome State Fault Refusal :=
  run (fun s => bankSupply s b v) s

/-- TIMEBASE_STEP (R328): A write of TB_STEP adds a signed step, refused when negative under mono. -/
def execTimebaseStep (w : Word) (s : State) : Host.Outcome State Fault Refusal :=
  run (fun s => tbStep s w) s

/-- TIMEBASE_PAIR_READ (R329): A read of TB_LO_k returns the low word and copies the high word into shadow k. -/
def execTimebasePairRead (k : Fin 4) (s : State) : Host.Outcome State Fault Refusal :=
  run (fun s => seeWord (tbReadLo s k)) s

/-- TIMER_MATCH (R331): A timer counter equals its compare value, and the match acts on the pin and trigger. -/
def execTimerMatch (k : Fin 16) (s : State) : Host.Outcome State Fault Refusal :=
  run (fun s => timerMatchEvent s k) s

/-- TIMER_WRAP (R331): A timer counter wraps from TOP to 0. -/
def execTimerWrap (k : Fin 16) (s : State) : Host.Outcome State Fault Refusal :=
  run (fun s => timerWrapEvent s k) s

/-- TIMER_CMP_WRITE (R331): A write of TMR_k_CMP matches at once with late when the value has passed and late_fire is 1. -/
def execTimerCmpWrite (k : Fin 16) (w : Word) (after : Nat) (s : State) : Host.Outcome State Fault Refusal :=
  run (fun s => cmpWrite (pinCycles s after) k w) s

/-- TIMER_CAPTURE (R334): A filtered, prescaled edge copies the counter and timebase into the capture. -/
def execTimerCapture (k : Fin 16) (edge : Edge) (s : State) : Host.Outcome State Fault Refusal :=
  run (fun s => timerCapture s k edge.own edge.other edge.held) s

/-- EDGE_OVERRUN (R333): A capture-input change that reverts before N samples is lost and sets edge_ovr. -/
def execEdgeOverrun (k : Fin 16) (s : State) : Host.Outcome State Fault Refusal :=
  run (fun s => edgeOverrun s k) s

/-- TIMER_CAP_READ (R334): A read of TMR_k_CAP latches its timebase value and clears cap_full. -/
def execTimerCapRead (k : Fin 16) (s : State) : Host.Outcome State Fault Refusal :=
  run (fun s => seeWord (capRead s k)) s

/-- TIMER_CNT_READ (R335): A read of TMR_k_CNT returns the shadow when pending, and copies the counts of its cascade. -/
def execTimerCntRead (k : Fin 16) (after : Nat) (s : State) : Host.Outcome State Fault Refusal :=
  run (fun s => seeWord (cntRead (pinCycles s after) k)) s

/-- ADC_START (R337): A start, from ADC_CTRL.start, a trigger or cont, begins a conversion sequence or is held or dropped. -/
def execAdcStart (s : State) : Host.Outcome State Fault Refusal :=
  run (fun s => adcStart s) s

/-- ADC_CONVERSION_DONE (R338): A conversion ends, sets valid, and checks its limits. -/
def execAdcConversionDone (code : BitVec 12) (s : State) : Host.Outcome State Fault Refusal :=
  run (fun s => adcDone s code.toNat) s

end Sys2Proof.Machine
end

