-- ==== Sys2Proof/Machine/ExecIntc.lean ====
section
/-! DEFINITION. The meanings of the commands of interrupts, mailboxes and doorbells (chapter 17), one definition per row. -/

namespace Sys2Proof.Machine

/-- INTERRUPT_SOURCE_FIRE (R341): A source becomes pending, is presented to Kiln or delivered to a doorbell. -/
def execInterruptSourceFire (n : Fin 256) (s : State) : Host.Outcome State Fault Refusal :=
  run (fun s => levelFire s n) s

/-- INTC_EOI (R341): A write of INTC_EOI ends a source's active state. -/
def execIntcEoi (n : Fin 256) (s : State) : Host.Outcome State Fault Refusal :=
  run (fun s => eoi s n) s

/-- HOLDOFF_EXPIRE (R343): A group's hold-off timer ends and its pending sources may be presented. -/
def execHoldoffExpire (g : Fin 16) (s : State) : Host.Outcome State Fault Refusal :=
  run (fun s => holdEnd s g) s

/-- STORM_WINDOW_EXPIRE (R344): 10 ms after a window opened, the source's firing count returns to 0. -/
def execStormWindowExpire (n : Fin 256) (s : State) : Host.Outcome State Fault Refusal :=
  run (fun s => s.setFirings n 0) s

/-- STORM_CLEAR (R344): A write of 1 to storm clears it and the count. -/
def execStormClear (n : Fin 256) (s : State) : Host.Outcome State Fault Refusal :=
  run (fun s => stormClear s n) s

/-- MBX_LOCK_READ (R348): A read of MBX_n_LOCK takes a free lock for a sender, or reports the owner. -/
def execMbxLockRead (host : Bool) (n : Fin 8) (s : State) : Host.Outcome State Fault Refusal :=
  run (fun s => mbxAccess s host (MBX_LOCK n) none) s

/-- MBX_LOCK_WRITE (R348): A write of MBX_n_LOCK releases the lock by the owner or by force, or is refused. -/
def execMbxLockWrite (host : Bool) (n : Fin 8) (w : Word) (s : State) : Host.Outcome State Fault Refusal :=
  run (fun s => mbxAccess s host (MBX_LOCK n) (some w)) s

/-- MBX_DATA_WRITE (R349): A write of MBX_n_DATA_k is accepted from the lock owner while go is 0. -/
def execMbxDataWrite (host : Bool) (n : Fin 8) (k : Fin 16) (w : Word) (s : State) : Host.Outcome State Fault Refusal :=
  run (fun s => mbxAccess s host (MBX_DATA n k) (some w)) s

/-- MBX_GO (R349): A write of go = 1 stores len, sets go and rings the receiver's doorbell. -/
def execMbxGo (host : Bool) (n : Fin 8) (len : Fin 32) (s : State) : Host.Outcome State Fault Refusal :=
  run (fun s => mbxAccess s host (MBX_CTRL n) (some (setF (setF 0 MBX_CTRL_len len) MBX_CTRL_go 1))) s

/-- MBX_ACK (R349): A write of ack = 1 by the receiver clears go and rings the ack doorbell. -/
def execMbxAck (host : Bool) (n : Fin 8) (s : State) : Host.Outcome State Fault Refusal :=
  run (fun s => mbxAccess s host (MBX_CTRL n) (some (setF 0 MBX_CTRL_ack 1))) s

/-- AGENT_LOCK (R350): Agent request taking the mailbox lock for a thread. -/
def execAgentLock (b : Fin 2) (s : State) : Host.Outcome State Fault Refusal :=
  run (fun s => agentServe s (6 + b) 1 fun s id _ => agentLock s (6 + b) id) s

/-- AGENT_UNLOCK (R350): Agent request releasing the mailbox lock. -/
def execAgentUnlock (b : Fin 2) (s : State) : Host.Outcome State Fault Refusal :=
  run (fun s => agentServe s (6 + b) 2 fun s id _ => agentUnlock s (6 + b) id) s

/-- AGENT_WRITE (R350): Agent request writing mailbox data words. -/
def execAgentWrite (b : Fin 2) (s : State) : Host.Outcome State Fault Refusal :=
  run (fun s => agentServe s (6 + b) 3 fun s id bs => agentWrite s (6 + b) id bs) s

/-- AGENT_READ (R350): Agent request reading mailbox data words. -/
def execAgentRead (b : Fin 2) (s : State) : Host.Outcome State Fault Refusal :=
  run (fun s => agentServe s (6 + b) 4 fun s _ bs => agentRead s (6 + b) bs) s

/-- AGENT_GO (R350): Agent request posting the mailbox message. -/
def execAgentGo (b : Fin 2) (s : State) : Host.Outcome State Fault Refusal :=
  run (fun s => agentServe s (6 + b) 5 fun s id bs => agentGo s (6 + b) id bs) s

/-- AGENT_ACK (R350): Agent request acknowledging the mailbox message. -/
def execAgentAck (b : Fin 2) (s : State) : Host.Outcome State Fault Refusal :=
  run (fun s => agentServe s (6 + b) 6 fun s id _ => agentAck s (6 + b) id) s

/-- AGENT_RING (R350): Agent request writing a KILN_DB_SET value. -/
def execAgentRing (b : Fin 2) (s : State) : Host.Outcome State Fault Refusal :=
  run (fun s => agentServe s (6 + b) 7 fun s _ bs => agentRing s bs) s

/-- DOORBELL_SET (R351): A write of a _SET register sets doorbell bits, sending MSI-X messages for HOST_DB. -/
def execDoorbellSet (host : Bool) (bank : Fin 3) (w : Word) (s : State) : Host.Outcome State Fault Refusal :=
  run (fun s => mbxAccess s host ([HOST_DB_SET, KILN_DB_SET, KIND_DB_SET].getD bank HOST_DB_SET) (some w)) s

/-- DOORBELL_CLEAR (R351): A write of a _CLR register clears doorbell bits, except HOST_DB bit 31 during lockup. -/
def execDoorbellClear (host : Bool) (bank : Fin 3) (w : Word) (s : State) : Host.Outcome State Fault Refusal :=
  run (fun s => mbxAccess s host ([HOST_DB_CLR, KILN_DB_CLR, KIND_DB_CLR].getD bank HOST_DB_CLR) (some w)) s

/-- DOORBELL_MASK_WRITE (R352): A write of HOST_DB_MASK may send a message for a set bit. -/
def execDoorbellMaskWrite (host : Bool) (w : Word) (s : State) : Host.Outcome State Fault Refusal :=
  run (fun s => mbxAccess s host HOST_DB_MASK (some w)) s

/-- MSIX_UNMASK (R352): A vector unmasked in the MSI-X table sends its pending message if its bit is still set. -/
def execMsixUnmask (v : Fin 32) (s : State) : Host.Outcome State Fault Refusal :=
  run (fun s => if s.barsOpen then msixMask s v false else s) s

end Sys2Proof.Machine
end

