-- ==== Sys2Proof/Machine/ExecLedger.lean ====
section
/-! DEFINITION. The meanings of the commands of the ledger engines (chapter 18), one definition per row. -/

namespace Sys2Proof.Machine

/-- LEDGER_SQ_TAIL_WRITE (R353): A write of LEDGER_SQ_TAIL submits descriptors, or is refused on overflow. -/
def execLedgerSqTailWrite (index : BitVec 16) (s : State) : Host.Outcome State Fault Refusal :=
  run (fun s => sqTailWrite s index.toNat) s

/-- LEDGER_NOP (R354): Ledger NOP returns only a completion. -/
def execLedgerNop (k : Nat) (s : State) : Host.Outcome State Fault Refusal :=
  run (fun s => ledgerRun s k 0 opNop) s

/-- VERIFY (R361): VERIFY checks a P-256 or Ed25519 signature on a Retort. -/
def execLedgerVerify (k : Nat) (s : State) : Host.Outcome State Fault Refusal :=
  run (fun s => ledgerRun s k 1 opVerify) s

/-- SEAL (R364): SEAL checks the TXID, chains, signs and journals a record, and inserts its TXID. -/
def execLedgerSeal (k : Nat) (s : State) : Host.Outcome State Fault Refusal :=
  run (fun s => ledgerRun s k 2 opSeal) s

/-- ADMIT (R366): ADMIT verifies a peer's seal, checks the TXID and journals the record as received. -/
def execLedgerAdmit (k : Nat) (s : State) : Host.Outcome State Fault Refusal :=
  run (fun s => ledgerAdmit s k) s

/-- BATCH (R367): BATCH builds, signs and journals a batch acknowledgement record. -/
def execLedgerBatch (k : Nat) (s : State) : Host.Outcome State Fault Refusal :=
  run (fun s => ledgerRun s k 4 opBatch) s

/-- SEEN_CHECK (R380): SEEN_CHECK reports a TXID as NEW, DUP or STALE. -/
def execSeenCheck (k : Nat) (s : State) : Host.Outcome State Fault Refusal :=
  run (fun s => ledgerRun s k 5 opSeenCheck) s

/-- SEEN_INSERT (R380): SEEN_INSERT stores a NEW TXID in a slot, by eviction or in the victim store. -/
def execSeenInsert (k : Nat) (s : State) : Host.Outcome State Fault Refusal :=
  run (fun s => ledgerRun s k 6 opSeenInsert) s

/-- HASH (R370): HASH computes a SHA-256, SHA-512 or SHA3-256 digest. -/
def execLedgerHash (k : Nat) (s : State) : Host.Outcome State Fault Refusal :=
  run (fun s => ledgerRun s k 7 opHash) s

/-- FRAME_SEAL (R371): FRAME_SEAL encrypts under a session key with the slot's counter. -/
def execFrameSeal (k : Nat) (s : State) : Host.Outcome State Fault Refusal :=
  run (fun s => ledgerRun s k 8 opFrameSeal) s

/-- FRAME_OPEN (R372): FRAME_OPEN decrypts and writes only when the tag verifies. -/
def execFrameOpen (k : Nat) (s : State) : Host.Outcome State Fault Refusal :=
  run (fun s => ledgerRun s k 9 opFrameOpen) s

/-- SESSION_DERIVE (R359): SESSION_DERIVE derives a session key and IV prefix by X25519 and HKDF. -/
def execSessionDerive (k : Nat) (s : State) : Host.Outcome State Fault Refusal :=
  run (fun s => ledgerRun s k 10 opSessionDerive) s

/-- SESSION_CLEAR (R360): SESSION_CLEAR empties a session slot. -/
def execSessionClear (k : Nat) (s : State) : Host.Outcome State Fault Refusal :=
  run (fun s => ledgerRun s k 11 opSessionClear) s

/-- KEY_PUT (R359): KEY_PUT replaces a peer entry. -/
def execKeyPut (k : Nat) (s : State) : Host.Outcome State Fault Refusal :=
  run (fun s => ledgerRun s k 12 opKeyPut) s

/-- XLATE (R373): XLATE runs a translation program over an external message. -/
def execXlate (k : Nat) (s : State) : Host.Outcome State Fault Refusal :=
  run (fun s => ledgerRun s k 13 opXlate) s

/-- LEDGER_COMPLETION (R356): A ledger command completes and its entry is written to the completion ring. -/
def execLedgerCompletion (k : Nat) (s : State) : Host.Outcome State Fault Refusal :=
  run (fun s => ledgerCompletion s k) s

/-- XL_END (R374): Translation END reports n output bytes. -/
def execXlEnd (e : Fin 4) (s : State) : Host.Outcome State Fault Refusal :=
  run (fun s => xlExec s e 0) s

/-- XL_FAIL (R374): Translation FAIL stops with a code. -/
def execXlFail (e : Fin 4) (s : State) : Host.Outcome State Fault Refusal :=
  run (fun s => xlExec s e 1) s

/-- XL_MTI (R374): MTI reads the message type. -/
def execXlMti (e : Fin 4) (s : State) : Host.Outcome State Fault Refusal :=
  run (fun s => xlExec s e 2) s

/-- XL_BMAP (R374): BMAP reads the bitmaps. -/
def execXlBmap (e : Fin 4) (s : State) : Host.Outcome State Fault Refusal :=
  run (fun s => xlExec s e 3) s

/-- XL_FLD (R375): FLD parses a present field. -/
def execXlFld (e : Fin 4) (s : State) : Host.Outcome State Fault Refusal :=
  run (fun s => xlExec s e 4) s

/-- XL_JNB (R374): JNB jumps when a bitmap bit is 0. -/
def execXlJnb (e : Fin 4) (s : State) : Host.Outcome State Fault Refusal :=
  run (fun s => xlExec s e 5) s

/-- XL_JMP (R374): JMP jumps on a condition of t. -/
def execXlJmp (e : Fin 4) (s : State) : Host.Outcome State Fault Refusal :=
  run (fun s => xlExec s e 6) s

/-- XL_CMPI (R374): CMPI compares a register with an immediate. -/
def execXlCmpi (e : Fin 4) (s : State) : Host.Outcome State Fault Refusal :=
  run (fun s => xlExec s e 7) s

/-- XL_MOVI (R374): MOVI loads an immediate. -/
def execXlMovi (e : Fin 4) (s : State) : Host.Outcome State Fault Refusal :=
  run (fun s => xlExec s e 8) s

/-- XL_NUM (R374): NUM takes a field's numeric value. -/
def execXlNum (e : Fin 4) (s : State) : Host.Outcome State Fault Refusal :=
  run (fun s => xlExec s e 9) s

/-- XL_LUT (R374): LUT maps a value through a table. -/
def execXlLut (e : Fin 4) (s : State) : Host.Outcome State Fault Refusal :=
  run (fun s => xlExec s e 10) s

/-- XL_PUT (R374): PUT writes bytes of a register to the output. -/
def execXlPut (e : Fin 4) (s : State) : Host.Outcome State Fault Refusal :=
  run (fun s => xlExec s e 11) s

/-- XL_CPY (R374): CPY copies a field's raw bytes to the output. -/
def execXlCpy (e : Fin 4) (s : State) : Host.Outcome State Fault Refusal :=
  run (fun s => xlExec s e 12) s

/-- XL_PHASH (R374): PHASH writes the SHA-256 of the input. -/
def execXlPhash (e : Fin 4) (s : State) : Host.Outcome State Fault Refusal :=
  run (fun s => xlExec s e 13) s

/-- FLOOR_WRITE (R379): A write of LEDGER_FLOOR_HI commits a floor, refused when lowering, and frees victim entries. -/
def execFloorWrite (w : Word) (s : State) : Host.Outcome State Fault Refusal :=
  run (fun s => ledgerWrite s LEDGER_FLOOR_HI w) s

/-- CORD_TAIL_WRITE (R369): A write of LEDGER_CORD_TAIL_HI commits the tail pair when it lies in range. -/
def execCordTailWrite (w : Word) (s : State) : Host.Outcome State Fault Refusal :=
  run (fun s => ledgerWrite s LEDGER_CORD_TAIL_HI w) s

/-- CORD_SEQ_READ (R356): A read of LEDGER_CORD_SEQ_LO latches the high word. -/
def execCordSeqRead (s : State) : Host.Outcome State Fault Refusal :=
  run (fun s => seeWord (ledgerRead s LEDGER_CORD_SEQ_LO)) s

/-- SEEN_SALT_WRITE (R377): A write of a Seen salt applies to Seen steps dispatched after it. -/
def execSeenSaltWrite (alt : Bool) (j : Fin 4) (w : Word) (s : State) : Host.Outcome State Fault Refusal :=
  run (fun s => ledgerWrite s (cond alt (LEDGER_SEEN_ALT_SALT j) (LEDGER_SEEN_SALT j)) w) s

/-- KEY_LOAD (R457): The key loader derives the device keys from the fuse secret when the ledger island leaves reset. -/
def execKeyLoad (s : State) : Host.Outcome State Fault Refusal :=
  run (fun s => keyLoad s) s

/-- KEY_LOAD_DONE (R457): The key derivation completes and held SEAL, BATCH and SESSION_DERIVE commands dispatch. -/
def execKeyLoadDone (s : State) : Host.Outcome State Fault Refusal :=
  run (fun s => keyLoadDone s) s

end Sys2Proof.Machine
end

