-- ==== Sys2Proof/Machine/ExecFloor.lean ====
section
/-! DEFINITION. The meanings of the commands of transactions and the floor link (chapters 19 and 20), one definition per row. -/

namespace Sys2Proof.Machine

/-- MONEY_EVENT (R18): A money-event message closed by its END token reaches Kiln, and Falornyr builds and submits the record. -/
def execMoneyEvent (k : Fin 16) (kind : MoneyKind) (amount : Int) (currency : BitVec 16) (time : BitVec 64) (s : State) : Host.Outcome State Fault Refusal :=
  run (fun s => whileServing s fun s => moneyEvent s k kind.type.toNat amount currency.toNat time.toNat (kind.undone.map (·.toNat))) s

/-- TRANSACTION_TIMEOUT (R398): With no acknowledgement by the 250 ms deadline, the record is resent under a new tag. -/
def execTransactionTimeout (txid : BitVec 64) (s : State) : Host.Outcome State Fault Refusal :=
  run (fun s => whileServing s fun s => transactionTimeout s txid.toNat) s

/-- BATCH_ACK_VERIFY (R402): A complete batch is verified, and its entries settle pending records as ACKED or REJECTED. -/
def execBatchAckVerify (peer : Fin 1024) (id : Word) (s : State) : Host.Outcome State Fault Refusal :=
  run (fun s => whileServing s fun s => batchAckVerify s peer id.toNat) s

/-- BATCH_CLOSE (R401): A Keeper batch closes at 256 entries or 2 ms after its first, and is signed and sent. -/
def execBatchClose (s : State) : Host.Outcome State Fault Refusal :=
  run (fun s => whileServing s fun s => batchClose s) s

/-- FRAME_RECEIVE (R406): A port receives a frame and delivers it to a descriptor, or drops and counts it. -/
def execFrameReceive (p : Fin 2) (f : List Byte) (fcsOk : Bool) (sfd : BitVec 64) (s : State) : Host.Outcome State Fault Refusal :=
  run (fun s => frameReceive s p f fcsOk sfd.toNat) s

/-- HELLO_RECEIVED (R408): A HELLO opens a session by SESSION_DERIVE, or is dropped. -/
def execHelloReceived (p : Fin 2) (s : State) : Host.Outcome State Fault Refusal :=
  run (fun s => whileServing s fun s => withFrame s p (s.isFloor kindHello) fun s f _ => helloReceived s (etherPart f)) s

/-- CONTROL_RECEIVED (R412): A CONTROL frame carries acknowledgements and establishes or keeps a path. -/
def execControlReceived (p : Fin 2) (q : Fin 1024) (s : State) : Host.Outcome State Fault Refusal :=
  run (fun s => whileServing s fun s => withFrame s p (s.isFrom kindControl q) fun s f _ => controlReceived s p (etherPart f)) s

/-- DATA_RECEIVED (R410): A DATA frame is opened, replay-checked and delivered once per seq. -/
def execDataReceived (p : Fin 2) (q : Fin 1024) (s : State) : Host.Outcome State Fault Refusal :=
  run (fun s => whileServing s fun s => withFrame s p (s.isFrom kindData q) fun s f _ => dataReceived s p (etherPart f)) s

/-- RECORD (R400): A RECORD message is admitted by the Keeper and turned into a batch entry. -/
def execRecordReceived (s : State) : Host.Outcome State Fault Refusal :=
  run (fun s => whileServing s fun s => recordMessage s) s

/-- BATCH_HEAD (R420): A BATCH_HEAD message opens the assembly of a batch. -/
def execBatchHead (s : State) : Host.Outcome State Fault Refusal :=
  run (fun s => whileServing s fun s => batchHead s) s

/-- BATCH_PART (R420): A BATCH_PART message adds body bytes to a batch. -/
def execBatchPart (s : State) : Host.Outcome State Fault Refusal :=
  run (fun s => whileServing s fun s => batchPart s) s

/-- POINT (R405): A POINT message reports an acknowledged point from which the Keeper raises a floor. -/
def execPointReceived (s : State) : Host.Outcome State Fault Refusal :=
  run (fun s => whileServing s fun s => pointMessage s) s

/-- REPLICA (R416): A REPLICA message is admitted, or inserted, by a standby. -/
def execReplicaReceived (s : State) : Host.Outcome State Fault Refusal :=
  run (fun s => whileServing s fun s => replicaMessage s) s

/-- TAKEOVER (R418): A TAKEOVER message makes a node adopt a new active Keeper and term. -/
def execTakeoverReceived (s : State) : Host.Outcome State Fault Refusal :=
  run (fun s => whileServing s fun s => takeoverMessage s) s

/-- HELLO_TIMER (R408): Every 10 ms a HELLO is sent on both paths for a session being opened. -/
def execHelloTimer (n : Fin 1024) (s : State) : Host.Outcome State Fault Refusal :=
  run (fun s => whileServing s fun s => helloTimer s n) s

/-- ACK_TIMER (R412): 50 µs after an accepted DATA frame with nothing sent, a CONTROL frame is sent. -/
def execAckTimer (n : Fin 1024) (s : State) : Host.Outcome State Fault Refusal :=
  run (fun s => whileServing s fun s => ackTimer s n) s

/-- RETRANSMIT_TIMEOUT (R413): A frame unacknowledged for 200 µs is resent, or abandoned after 8 resends. -/
def execRetransmitTimeout (n : Fin 1024) (seq : Word) (s : State) : Host.Outcome State Fault Refusal :=
  run (fun s => whileServing s fun s => retransmit s n seq.toNat) s

/-- PATH_TIMEOUT (R414): A path with no accepted frame for 3 ms goes down. -/
def execPathTimeout (n : Fin 1024) (p : Fin 2) (s : State) : Host.Outcome State Fault Refusal :=
  run (fun s => whileServing s fun s => pathDown s n p) s

/-- HEARTBEAT_TIMER (R414): A path idle for 1 ms sends a CONTROL heartbeat. -/
def execHeartbeatTimer (n : Fin 1024) (p : Fin 2) (s : State) : Host.Outcome State Fault Refusal :=
  run (fun s => whileServing s fun s => heartbeat s n p) s

/-- PORT_LINK_CHANGE (R414): A floor port's link or block lock changes, and its paths go down or may come up. -/
def execPortLinkChange (p : Fin 2) (link : LinkReport) (s : State) : Host.Outcome State Fault Refusal :=
  run (fun s => if s.fwServes then portLink s p link else linkSet s p link) s

/-- FALLBACK_TIMER (R406): After 500 ms without block lock, a port alternates between 10G and 1000BASE-X. -/
def execFallbackTimer (p : Fin 2) (s : State) : Host.Outcome State Fault Refusal :=
  run (fun s => fallbackTimer s p) s

/-- KEEPER_SILENCE (R418): An in-sync standby with no frame from the active Keeper for 40 ms takes over. -/
def execKeeperSilence (s : State) : Host.Outcome State Fault Refusal :=
  run (fun s => whileServing s fun s => keeperSilence s) s

/-- BATCH_ID_TIMEOUT (R420): A batch not completed within 10 ms is discarded and counted. -/
def execBatchIdTimeout (n : Fin 1024) (id : Word) (s : State) : Host.Outcome State Fault Refusal :=
  run (fun s => whileServing s fun s => batchTimeout s n id.toNat) s

/-- TXQ_TAIL_WRITE (R423): A write of TXQ_TAIL hands transmit descriptors to the port. -/
def execTxqTailWrite (p : Fin 2) (index : BitVec 16) (s : State) : Host.Outcome State Fault Refusal :=
  run (fun s => txTailWrite s p index.toNat) s

/-- TX_DESCRIPTOR_DONE (R423): A frame is sent, its descriptor marked done and TXQ_HEAD advanced. -/
def execTxDescriptorDone (p : Fin 2) (sfd : BitVec 64) (s : State) : Host.Outcome State Fault Refusal :=
  run (fun s => whileServing (txDone s p sfd.toNat) fun s => txFill s p) s

/-- TXTS_READ (R329): A read of FLOOR_p_TXTS_LO latches the high word. -/
def execTxtsRead (p : Fin 2) (s : State) : Host.Outcome State Fault Refusal :=
  run (fun s => seeWord (txtsRead s p)) s

/-- PTP_MESSAGE (R422): Falornyr handles an IEEE 1588 message and disciplines the timebase. -/
def execPtpMessage (s : State) : Host.Outcome State Fault Refusal :=
  run (fun s => whileServing s fun s => ptpMessage s) s

/-- POINT_SEND (R419): At least once per second while its acknowledged point advances, a node sends POINT to the active Keeper. -/
def execPointSend (s : State) : Host.Outcome State Fault Refusal :=
  run (fun s => whileServing s fun s => if s.fw.epochOpen then reportPoint s else s) s

end Sys2Proof.Machine
end

