-- ==== Sys2Proof/Machine/ExecHost.lean ====
section
/-! DEFINITION. The meanings of the commands of the host and the firmware commands (chapters 21 and 22), one definition per row. -/

namespace Sys2Proof.Machine

/-- BAR0_ACCESS (R428): A host access to BAR0 reaches the mailbox and doorbell page. -/
def execBar0Access (off : Word) (size : Nat) (wr : Bool) (w : Word) (s : State) : Host.Outcome State Fault Refusal :=
  run (fun s => bar0Access s off.toNat size wr w) s

/-- BAR2_ACCESS (R429): A host access to BAR2 is translated through a window, or refused. -/
def execBar2Access (off : Nat) (wr : Option (List Byte)) (len : Nat) (seen : List Nat) (s : State) : Host.Outcome State Fault Refusal :=
  run (fun s => bar2Access s off wr len seen) s

/-- BAR4_ACCESS (R430): A host access to BAR4 reaches CSRAM or the line stores, or is refused. -/
def execBar4Access (off : Nat) (wr : Option (List Byte)) (len : Nat) (seen : List Nat) (s : State) : Host.Outcome State Fault Refusal :=
  run (fun s => bar4Access s off wr len seen) s

/-- HOST_LINK_DOWN (R433): The PCI Express link goes down, releasing lock 1 and clearing the MSI-X table and PBA. -/
def execHostLinkDown (s : State) : Host.Outcome State Fault Refusal :=
  run (fun s => linkDown s) s

/-- HOST_LINK_UP (R352): The link comes up and pending MSI-X messages may be sent. -/
def execHostLinkUp (gen width : Nat) (s : State) : Host.Outcome State Fault Refusal :=
  run (fun s => hostLinkUp s gen width) s

/-- FLR (R433): A function-level reset releases lock 1, clears the MSI-X table and PBA, and sets flr. -/
def execFlr (s : State) : Host.Outcome State Fault Refusal :=
  run (fun s => flr s) s

/-- SYS_VERSION (R446): Command returning the release, identity and profile. -/
def execSysVersion (mbx : Fin 4) (s : State) : Host.Outcome State Fault Refusal :=
  run (fun s => hostNow s mbx 0x0100 0 sysVersion) s

/-- SYS_PROFILE_SELECT (R468): Command starting a warm restart into another profile, or DENIED. -/
def execSysProfileSelect (mbx : Fin 4) (s : State) : Host.Outcome State Fault Refusal :=
  run (fun s => sysProfileSelect s mbx) s

/-- SYS_WINDOW_OPEN (R445): Command opening a BAR2 window. -/
def execSysWindowOpen (mbx : Fin 4) (s : State) : Host.Outcome State Fault Refusal :=
  run (fun s => hostNow s mbx 0x0102 4 sysWindowOpen) s

/-- SYS_WINDOW_CLOSE (R446): Command closing a BAR2 window. -/
def execSysWindowClose (mbx : Fin 4) (s : State) : Host.Outcome State Fault Refusal :=
  run (fun s => hostNow s mbx 0x0103 1 sysWindowClose) s

/-- SYS_BAR4 (R446): Command setting BAR4 access. -/
def execSysBar4 (mbx : Fin 4) (s : State) : Host.Outcome State Fault Refusal :=
  run (fun s => hostNow s mbx 0x0104 1 sysBar4) s

/-- SYS_TIME (R446): Command returning the timebase, epoch and 1588 lock. -/
def execSysTime (mbx : Fin 4) (s : State) : Host.Outcome State Fault Refusal :=
  run (fun s => hostNow s mbx 0x0105 0 sysTime) s

/-- SYS_CERT (R458): Command returning the device certificate. -/
def execSysCert (mbx : Fin 4) (s : State) : Host.Outcome State Fault Refusal :=
  run (fun s => hostNow s mbx 0x0106 2 sysCert) s

/-- SYS_IMAGE_STAGE (R446): Command staging and verifying a boot image. -/
def execSysImageStage (mbx : Fin 4) (s : State) : Host.Outcome State Fault Refusal :=
  run (fun s => hostNow s mbx 0x0107 2 sysImageStage) s

/-- SYS_ECHO (R446): Command returning its parameter words. -/
def execSysEcho (mbx : Fin 4) (s : State) : Host.Outcome State Fault Refusal :=
  run (fun s => hostServe s mbx 0x0108 false (· ≤ 14) sysEcho (fun s _ => (s, .ok []))) s

/-- POWER_STATE (R490): Command moving the device to Noon, Dusk or Midnight. -/
def execPowerState (mbx : Fin 4) (late : Bool) (s : State) : Host.Outcome State Fault Refusal :=
  run (fun s => hostServe s mbx 0x0200 late (· == 1) powerState powerStateMore) s

/-- POWER_STATUS (R446): Command returning the power state, core voltage, temperature and throttle. -/
def execPowerStatus (mbx : Fin 4) (s : State) : Host.Outcome State Fault Refusal :=
  run (fun s => hostNow s mbx 0x0201 0 powerStatus) s

/-- POWER_WAKE (R494): Command setting the wake pins and RTC alarm. -/
def execPowerWake (mbx : Fin 4) (s : State) : Host.Outcome State Fault Refusal :=
  run (fun s => hostNow s mbx 0x0202 2 powerWake) s

/-- POWER_LIMIT (R446): Command setting a power limit. -/
def execPowerLimit (mbx : Fin 4) (s : State) : Host.Outcome State Fault Refusal :=
  run (fun s => hostNow s mbx 0x0203 1 powerLimit) s

/-- SCENE_COMMIT (R98): Command applying register writes of a head page under UPDATE.hold. -/
def execSceneCommit (mbx : Fin 4) (s : State) : Host.Outcome State Fault Refusal :=
  run (fun s => hostNow s mbx 0x1000 3 sceneCommit) s

/-- SCENE_PALETTE (R94): Command loading palettes. -/
def execScenePalette (mbx : Fin 4) (s : State) : Host.Outcome State Fault Refusal :=
  run (fun s => hostNow s mbx 0x1001 5 scenePalette) s

/-- SCENE_BLIT (R181): Command running a block-engine list. -/
def execSceneBlit (mbx : Fin 4) (late : Bool) (s : State) : Host.Outcome State Fault Refusal :=
  run (fun s => hostServe s mbx 0x1002 late (· == 3) sceneBlit sceneBlitMore) s

/-- SCENE_ASSIGN (R139): Command moving a pipe. -/
def execSceneAssign (mbx : Fin 4) (s : State) : Host.Outcome State Fault Refusal :=
  run (fun s => hostNow s mbx 0x1003 3 sceneAssign) s

/-- SCENE_BEAM (R114): Command setting a head's beam list. -/
def execSceneBeam (mbx : Fin 4) (s : State) : Host.Outcome State Fault Refusal :=
  run (fun s => hostNow s mbx 0x1004 5 sceneBeam) s

/-- SCENE_STATUS (R446): Command returning a head's scene status. -/
def execSceneStatus (mbx : Fin 4) (s : State) : Host.Outcome State Fault Refusal :=
  run (fun s => hostNow s mbx 0x1005 1 sceneStatus) s

/-- HEAD_CONFIG (R554): Command configuring and restarting a head with its initialisation packets. -/
def execHeadConfig (mbx : Fin 4) (late : Bool) (s : State) : Host.Outcome State Fault Refusal :=
  run (fun s => hostServe s mbx 0x1100 late (· == 2) headConfig headConfigMore) s

/-- HEAD_ENABLE (R446): Command enabling or disabling a head. -/
def execHeadEnable (mbx : Fin 4) (late : Bool) (s : State) : Host.Outcome State Fault Refusal :=
  run (fun s => hostServe s mbx 0x1101 late (· == 2) headEnable headEnableMore) s

/-- HEAD_MARK (R97): Command marking a head's bands. -/
def execHeadMark (mbx : Fin 4) (s : State) : Host.Outcome State Fault Refusal :=
  run (fun s => hostNow s mbx 0x1102 2 headMarkCmd) s

/-- HEAD_STATUS (R446): Command returning a head's model, status, counters and flip record. -/
def execHeadStatus (mbx : Fin 4) (s : State) : Host.Outcome State Fault Refusal :=
  run (fun s => hostNow s mbx 0x1103 1 headStatus) s

/-- HEAD_PACKET (R143): Command sending a firmware packet and returning its response. -/
def execHeadPacket (mbx : Fin 4) (late : Bool) (s : State) : Host.Outcome State Fault Refusal :=
  run (fun s => hostServe s mbx 0x1104 late (· == 6) headPacket headPacketMore) s

/-- AUDIO_VOICE (R200): Command setting and keying a voice. -/
def execAudioVoice (mbx : Fin 4) (s : State) : Host.Outcome State Fault Refusal :=
  run (fun s => hostNow s mbx 0x2000 7 audioVoice) s

/-- AUDIO_BUS (R202): Command setting a bus. -/
def execAudioBus (mbx : Fin 4) (s : State) : Host.Outcome State Fault Refusal :=
  run (fun s => hostNow s mbx 0x2001 5 audioBus) s

/-- AUDIO_ROUTE (R203): Command setting an input or output route. -/
def execAudioRoute (mbx : Fin 4) (s : State) : Host.Outcome State Fault Refusal :=
  run (fun s => hostNow s mbx 0x2002 3 audioRoute) s

/-- AUDIO_FX_LOAD (R206): Command loading effect instructions. -/
def execAudioFxLoad (mbx : Fin 4) (s : State) : Host.Outcome State Fault Refusal :=
  run (fun s => hostNow s mbx 0x2003 3 audioFxLoad) s

/-- AUDIO_PORT (R209): Command setting a serial port and the PDM outputs. -/
def execAudioPort (mbx : Fin 4) (s : State) : Host.Outcome State Fault Refusal :=
  run (fun s => hostNow s mbx 0x2004 3 audioPort) s

/-- AUDIO_STATUS (R446): Command returning audio counters and ended voices. -/
def execAudioStatus (mbx : Fin 4) (s : State) : Host.Outcome State Fault Refusal :=
  run (fun s => hostNow s mbx 0x2005 0 audioStatus) s

/-- KINDLE_LOAD (R446): Command loading Kindling memory. -/
def execKindleLoad (mbx : Fin 4) (s : State) : Host.Outcome State Fault Refusal :=
  run (fun s => hostNow s mbx 0x3000 3 kindleLoad) s

/-- KINDLE_SLOTS (R268): Command writing and activating a slot table. -/
def execKindleSlots (mbx : Fin 4) (late : Bool) (s : State) : Host.Outcome State Fault Refusal :=
  run (fun s => hostServe s mbx 0x3001 late (· == 3) kindleSlots kindleSlotsMore) s

/-- KINDLE_START (R276): Command starting a thread. -/
def execKindleStart (mbx : Fin 4) (s : State) : Host.Outcome State Fault Refusal :=
  run (fun s => hostNow s mbx 0x3002 3 kindleStart) s

/-- KINDLE_STOP (R276): Command halting and freeing a thread. -/
def execKindleStop (mbx : Fin 4) (late : Bool) (s : State) : Host.Outcome State Fault Refusal :=
  run (fun s => hostServe s mbx 0x3003 late (· == 1) kindleStop kindleStopMore) s

/-- KINDLE_PORTS (R292): Command enabling ports of a bank for Kindling. -/
def execKindlePorts (mbx : Fin 4) (s : State) : Host.Outcome State Fault Refusal :=
  run (fun s => hostNow s mbx 0x3004 2 kindlePorts) s

/-- KINDLE_POLICY (R505): Command setting a thread's restart allowance. -/
def execKindlePolicy (mbx : Fin 4) (s : State) : Host.Outcome State Fault Refusal :=
  run (fun s => hostNow s mbx 0x3005 2 kindlePolicy) s

/-- KINDLE_STATUS (R446): Command returning a thread's state and fault. -/
def execKindleStatus (mbx : Fin 4) (s : State) : Host.Outcome State Fault Refusal :=
  run (fun s => hostNow s mbx 0x3006 1 kindleStatus) s

/-- LEDGER_STATUS (R446): Command returning the Cord and Seen state. -/
def execLedgerStatus (mbx : Fin 4) (s : State) : Host.Outcome State Fault Refusal :=
  run (fun s => hostNow s mbx 0x4000 0 ledgerStatus) s

/-- LEDGER_PERSISTED (R395): Command reporting persisted entries and advancing the Cord tail. -/
def execLedgerPersisted (mbx : Fin 4) (s : State) : Host.Outcome State Fault Refusal :=
  run (fun s => hostNow s mbx 0x4001 2 ledgerPersisted) s

/-- LEDGER_RECOVER (R555): Command recovering the Cord and opening a new epoch. -/
def execLedgerRecover (mbx : Fin 4) (s : State) : Host.Outcome State Fault Refusal :=
  run (fun s => hostServe s mbx 0x4002 false (· == 2) ledgerRecover ledgerRecoverMore) s

/-- LEDGER_EXPORT (R396): Command opening read windows onto the Cord. -/
def execLedgerExport (mbx : Fin 4) (s : State) : Host.Outcome State Fault Refusal :=
  run (fun s => hostNow s mbx 0x4003 1 ledgerExport) s

/-- LEDGER_SUBMIT (R403): Command translating and sealing an external message. -/
def execLedgerSubmit (mbx : Fin 4) (s : State) : Host.Outcome State Fault Refusal :=
  run (fun s => hostServe s mbx 0x4004 false (· == 4) ledgerSubmit ledgerSubmit) s

/-- LEDGER_PROGRAM (R446): Command loading translation program words. -/
def execLedgerProgram (mbx : Fin 4) (s : State) : Host.Outcome State Fault Refusal :=
  run (fun s => hostNow s mbx 0x4005 3 ledgerProgram) s

/-- FLOOR_CONFIG (R446): Command setting the node, role, ports and EtherType. -/
def execFloorConfig (mbx : Fin 4) (s : State) : Host.Outcome State Fault Refusal :=
  run (fun s => hostNow s mbx 0x4100 9 floorConfig) s

/-- FLOOR_TABLE (R415): Command setting the Keeper table and the active Keeper. -/
def execFloorTable (mbx : Fin 4) (s : State) : Host.Outcome State Fault Refusal :=
  run (fun s => hostNow s mbx 0x4101 2 floorTable) s

/-- FLOOR_PEER_ADD (R421): Command loading a peer's certificate into its peer entry. -/
def execFloorPeerAdd (mbx : Fin 4) (s : State) : Host.Outcome State Fault Refusal :=
  run (fun s => hostNow s mbx 0x4102 3 floorPeerAdd) s

/-- FLOOR_PEER_REMOVE (R421): Command removing a node and clearing its session. -/
def execFloorPeerRemove (mbx : Fin 4) (s : State) : Host.Outcome State Fault Refusal :=
  run (fun s => hostNow s mbx 0x4103 1 floorPeerRemove) s

/-- FLOOR_RESYNC (R416): Command bringing a standby back in sync. -/
def execFloorResync (mbx : Fin 4) (late : Bool) (s : State) : Host.Outcome State Fault Refusal :=
  run (fun s => hostServe s mbx 0x4104 late (· == 1) floorResync floorResyncMore) s

/-- FLOOR_PTP (R422): Command setting IEEE 1588 operation. -/
def execFloorPtp (mbx : Fin 4) (s : State) : Host.Outcome State Fault Refusal :=
  run (fun s => hostNow s mbx 0x4105 3 floorPtp) s

/-- FLOOR_STATUS (R446): Command returning link, path and Keeper state. -/
def execFloorStatus (mbx : Fin 4) (s : State) : Host.Outcome State Fault Refusal :=
  run (fun s => hostNow s mbx 0x4106 1 floorStatus) s

/-- HEALTH_READ (R511): Command returning a counter group. -/
def execHealthRead (mbx : Fin 4) (s : State) : Host.Outcome State Fault Refusal :=
  run (fun s => hostNow s mbx 0x5000 1 healthRead) s

/-- HEALTH_CLEAR (R511): Command clearing a counter group. -/
def execHealthClear (mbx : Fin 4) (s : State) : Host.Outcome State Fault Refusal :=
  run (fun s => hostNow s mbx 0x5001 1 healthClear) s

/-- HEALTH_ALERT (R512): Command setting a group's alert threshold. -/
def execHealthAlert (mbx : Fin 4) (s : State) : Host.Outcome State Fault Refusal :=
  run (fun s => hostNow s mbx 0x5002 2 healthAlertSet) s

/-- HEALTH_HEARTBEAT (R513): Command setting the heartbeat period. -/
def execHealthHeartbeat (mbx : Fin 4) (s : State) : Host.Outcome State Fault Refusal :=
  run (fun s => hostNow s mbx 0x5003 1 healthHeartbeat) s

/-- DEBUG_UNLOCK (R523): Command submitting the debug authentication response. -/
def execDebugUnlock (mbx : Fin 4) (s : State) : Host.Outcome State Fault Refusal :=
  run (fun s => hostNow s mbx 0x7F00 1 debugUnlock) s

/-- DEBUG_TRACE (R531): Command setting trace. -/
def execDebugTrace (mbx : Fin 4) (s : State) : Host.Outcome State Fault Refusal :=
  run (fun s => hostNow s mbx 0x7F01 3 debugTrace) s

/-- DEBUG_PEEK (R447): Command reading Kiln words when unlocked. -/
def execDebugPeek (mbx : Fin 4) (s : State) : Host.Outcome State Fault Refusal :=
  run (fun s => hostNow s mbx 0x7F02 2 debugPeek) s

/-- HOST_PUSH_BOOT (R463): Request 0x01FF makes the boot ROM validate and start a pushed image. -/
def execHostPushBoot (records : List (Nat × Profile)) (s : State) : Host.Outcome State Fault Refusal :=
  run (fun s => pushBoot s records) s

end Sys2Proof.Machine
end

