-- ==== Sys2Proof/Machine/ExecBoot.lean ====
section
/-! DEFINITION. The meanings of the commands of fuses, boot, clocks, power and Falornyr's policies (chapters 22 to 25), one definition per row. -/

namespace Sys2Proof.Machine

/-- FUSE_LOAD (R450): The FUSE unit reads the array and checks its checksum. -/
def execFuseLoad (factory : List Word) (s : State) : Host.Outcome State Fault Refusal :=
  run (fun s => fuseLoad s factory) s

/-- FUSE_LOAD_DONE (R451): A fuse load passes, loading fused fields, or fails and restarts or faults. -/
def execFuseLoadDone (s : State) : Host.Outcome State Fault Refusal :=
  run (fun s => fuseLoadDone s) s

/-- FUSE_PROGRAM (R454): A write of FUSE_PROG.go sets a field-segment bit, or is refused. -/
def execFuseProgram (w : Word) (s : State) : Host.Outcome State Fault Refusal :=
  run (fun s => fuseProg s w) s

/-- BOOT_START (R462): The boot ROM selects, verifies and starts an image, or waits for host push. -/
def execBootStart (flash : Option Flash) (s : State) : Host.Outcome State Fault Refusal :=
  run (fun s => bootStart s flash) s

/-- NOON_ENTRY (R490): Falornyr applies the profile and enters Noon, raising the rollback counter. -/
def execNoonEntry (s : State) : Host.Outcome State Fault Refusal :=
  run (fun s => noonEntry s) s

/-- OSC_STABLE (R471): A crystal produces its stability count and becomes stable. -/
def execOscStable (b : Fin 2) (s : State) : Host.Outcome State Fault Refusal :=
  run (fun s => oscStable s b) s

/-- OSC_LOST (R472): A crystal missing edges is lost, switching the Ember clock or putting PLLs into holdover. -/
def execOscLost (b : Fin 2) (s : State) : Host.Outcome State Fault Refusal :=
  run (fun s => oscLost s b) s

/-- PLL_LOCKED (R474): A PLL locks and sets locked after 4,096 reference cycles. -/
def execPllLocked (k : Fin 9) (s : State) : Host.Outcome State Fault Refusal :=
  run (fun s => pllLocked s k) s

/-- PLL_UNLOCK (R482): An enabled PLL loses lock and sets its unlock bit. -/
def execPllUnlock (k : Fin 9) (s : State) : Host.Outcome State Fault Refusal :=
  run (fun s => pllUnlock s k) s

/-- ROOT_SWITCH (R475): A write of CLK_ROOT switches an island root glitch-free, or is refused. -/
def execRootSwitch (w lost : Word) (s : State) : Host.Outcome State Fault Refusal :=
  run (fun s => rootSwitch s w lost) s

/-- PLL_CTRL_WRITE (R476): A write of CLK_PLL_k is applied, refused, or limited by a ceiling. -/
def execPllCtrlWrite (k : Fin 9) (frac : Bool) (w : Word) (s : State) : Host.Outcome State Fault Refusal :=
  run (fun s => if frac then pllFracWrite s k w else pllCtrlWrite s k w) s

/-- CLK_SRC_WRITE (R476): A write of CLK_SRC changes oscillators or the Ember source, or is refused. -/
def execClkSrcWrite (w : Word) (s : State) : Host.Outcome State Fault Refusal :=
  run (fun s => clkSrcWrite s w) s

/-- FRC_TRIM (R480): A write of CLK_FRC_TRIM sets the target trim code. -/
def execFrcTrim (w : Word) (s : State) : Host.Outcome State Fault Refusal :=
  run (fun s => frcTrim s w) s

/-- FRC_TRIM_STEP (R480): Once per microsecond FRC steps toward its trim code. -/
def execFrcTrimStep (s : State) : Host.Outcome State Fault Refusal :=
  run (fun s => frcStep s) s

/-- FREQ_MEASURE (R481): A write of CLK_MEAS.go starts a frequency count. -/
def execFreqMeasure (w : Word) (s : State) : Host.Outcome State Fault Refusal :=
  run (fun s => measWrite s w) s

/-- FREQ_MEASURE_DONE (R481): The count window ends and the result is stored. -/
def execFreqMeasureDone (edges : Word) (s : State) : Host.Outcome State Fault Refusal :=
  run (fun s => measDone s edges) s

/-- POWER_ON (R483): The always-on supply or PG_0 rises and the device takes a COLD reset. -/
def execPowerOn (s : State) : Host.Outcome State Fault Refusal :=
  run (fun s => powerOn s) s

/-- RESET_N_ASSERT (R484): A RESET_N pulse starts a reset of the fused level. -/
def execResetNAssert (ns : Nat) (s : State) : Host.Outcome State Fault Refusal :=
  run (fun s => resetAssert s ns) s

/-- RESET_RELEASE (R487): RESET_N rises and the Ember island runs the release sequence. -/
def execResetRelease (sel : Fin 4) (s : State) : Host.Outcome State Fault Refusal :=
  run (fun s => resetRelease s sel) s

/-- UP_SEQUENCE_STEP (R491): A rail's step delay after the previous power good ends and its enable rises. -/
def execUpSequenceStep (s : State) : Host.Outcome State Fault Refusal :=
  run (fun s => upStep s) s

/-- PG_RISE (R491): A power-good input rises during the up-sequence. -/
def execPgRise (k : Fin 6) (s : State) : Host.Outcome State Fault Refusal :=
  run (fun s => pgRise s k) s

/-- PG_TIMEOUT (R491): A power good not risen within its timeout ends the attempt as a power fault. -/
def execPgTimeout (s : State) : Host.Outcome State Fault Refusal :=
  run (fun s => pgTimeout s) s

/-- POWER_FAULT (R493): A power good falling while its enable is high enters Midnight. -/
def execPowerFault (k : Fin 6) (s : State) : Host.Outcome State Fault Refusal :=
  run (fun s => pgFall s k) s

/-- DOWN_SEQUENCE_STEP (R492): Each step delay of the down-sequence lowers the next rail enable. -/
def execDownSequenceStep (s : State) : Host.Outcome State Fault Refusal :=
  run (fun s => downStep s) s

/-- MIDNIGHT_REQUEST (R492): A write of PWR_STATE.midnight starts the down-sequence. -/
def execMidnightRequest (s : State) : Host.Outcome State Fault Refusal :=
  run (fun s => midnightRequest s) s

/-- WAKE (R494): An enabled wake pin or the RTC alarm starts the up-sequence from Midnight. -/
def execWake (pins : Nat) (rtc : Bool) (s : State) : Host.Outcome State Fault Refusal :=
  run (fun s => wake s pins rtc) s

/-- AVS_STEP (R495): Every 1 ms the island moves VDD_CORE by 5 mV over PMBus. -/
def execAvsStep (margin : Int) (ack : Bool) (vout status : Nat) (s : State) : Host.Outcome State Fault Refusal :=
  run (fun s => avsStep s margin ack vout status) s

/-- THERMAL_SAMPLE (R496): Every 10 µs the comparators check the sensors, setting throttle or latching trip. -/
def execThermalSample (temps : List Int) (s : State) : Host.Outcome State Fault Refusal :=
  run (fun s => thermalSample s temps) s

/-- THROTTLE_RELEASE (R496): After 1 ms with every sensor below 130 °C the throttle is released. -/
def execThrottleRelease (s : State) : Host.Outcome State Fault Refusal :=
  run (fun s => throttleRelease s) s

/-- COOL_DOWN_EXPIRE (R497): cool_s seconds after a trip, latched wakes may be acted on. -/
def execCoolDownExpire (s : State) : Host.Outcome State Fault Refusal :=
  run (fun s => coolDownExpire s) s

/-- THERMAL_TRIP_CLEAR (R497): A write of 1 to trip clears it only while every sensor is below 130 °C. -/
def execThermalTripClear (s : State) : Host.Outcome State Fault Refusal :=
  run (fun s => tripClear s) s

/-- THREAD_FAULT_POLICY (R505): Falornyr frees a faulted thread and restarts it within its allowance. -/
def execThreadFaultPolicy (t : Fin 64) (s : State) : Host.Outcome State Fault Refusal :=
  run (fun s => threadFaultPolicy s t) s

/-- STALL_RECOVERY (R506): Falornyr frees and restarts the threads on a wait cycle. -/
def execStallRecovery (s : State) : Host.Outcome State Fault Refusal :=
  run (fun s => stallRecovery s) s

/-- HEAD_RESTART (R507): Falornyr restarts a stuck or lost head. -/
def execHeadRestart (n : Fin 4) (s : State) : Host.Outcome State Fault Refusal :=
  run (fun s => headRestart s n) s

/-- XTAL_LOSS_POLICY (R508): Falornyr alerts on reference loss and holds money events if it persists. -/
def execXtalLossPolicy (persisted : Bool) (s : State) : Host.Outcome State Fault Refusal :=
  run (fun s => xtalLossPolicy s persisted) s

/-- HEALTH_POLL (R511): At least once per second Falornyr accumulates the hardware counters and checks alert thresholds. -/
def execHealthPoll (noted : List Nat) (s : State) : Host.Outcome State Fault Refusal :=
  run (fun s => healthPoll s noted) s

/-- HEARTBEAT_POST (R513): Every p ms Falornyr posts a heartbeat HEALTH_EVENT. -/
def execHeartbeatPost (s : State) : Host.Outcome State Fault Refusal :=
  run (fun s => heartbeatPost s) s

end Sys2Proof.Machine
end

