-- ==== Sys2Proof/Machine/ExecDebug.lean ====
section
/-! DEFINITION. The meanings of the commands of the watchdog, JTAG, debug and test, and events outside (chapters 24 to 27), one definition per row. -/

namespace Sys2Proof.Machine

/-- WDOG_ENABLE (R514): A write of SYS_WDOG_CTRL.enable starts the watchdog. -/
def execWdogEnable (w : Word) (s : State) : Host.Outcome State Fault Refusal :=
  run (fun s => wdogCtrlWrite s (setF w SYS_WDOG_CTRL_enable 1)) s

/-- WDOG_KICK (R515): A write of SYS_WDOG_KICK restarts the count, or counts a bad key. Falornyr makes none once its own data has faulted (R509). -/
def execWdogKick (w : Word) (s : State) : Host.Outcome State Fault Refusal :=
  run (fun s => if s.fw.broken then s else wdogKick s w) s

/-- WDOG_EXPIRE (R515): The watchdog expires, sets HOST_DB bit 30, drives ALERT_N low and clears release. -/
def execWdogExpire (s : State) : Host.Outcome State Fault Refusal :=
  run (fun s => wdogExpire s) s

/-- EXTEST (R521): JTAG EXTEST drives the boundary cells when unlocked. -/
def execExtest (cells : List (Nat × Bool)) (s : State) : Host.Outcome State Fault Refusal :=
  run (fun s => jtagExtest s 0x00 cells) s

/-- SAMPLE_PRELOAD (R519): JTAG SAMPLE/PRELOAD samples the boundary chain. -/
def execSamplePreload (levels : Nat) (s : State) : Host.Outcome State Fault Refusal :=
  run (fun s => jtagSample s levels) s

/-- IDCODE (R519): JTAG IDCODE shifts the identification code. -/
def execIdcode (s : State) : Host.Outcome State Fault Refusal :=
  run (fun s => jtagIdcode s) s

/-- EXTEST_PULSE (R521): JTAG EXTEST_PULSE tests AC-coupled lanes. -/
def execExtestPulse (cells : List (Nat × Bool)) (s : State) : Host.Outcome State Fault Refusal :=
  run (fun s => jtagExtest s 0x10 cells) s

/-- EXTEST_TRAIN (R521): JTAG EXTEST_TRAIN tests AC-coupled lanes with a train. -/
def execExtestTrain (cells : List (Nat × Bool)) (s : State) : Host.Outcome State Fault Refusal :=
  run (fun s => jtagExtest s 0x11 cells) s

/-- FUSESTAT (R519): JTAG FUSESTAT shifts FUSE_STAT. -/
def execFusestat (s : State) : Host.Outcome State Fault Refusal :=
  run (fun s => jtagFusestat s) s

/-- DBGACC (R522): JTAG DBGACC makes one 32-bit access in Update-DR. -/
def execDbgacc (a : Word) (wr : Bool) (data : Word) (seen : List Nat) (s : State) : Host.Outcome State Fault Refusal :=
  run (fun s => jtagAccess s a.toNat wr data seen) s

/-- BYPASS (R519): JTAG BYPASS selects the one-bit bypass. -/
def execBypass (s : State) : Host.Outcome State Fault Refusal :=
  run (fun s => jtagBypass s) s

/-- DEBUG_AUTH (R523): A write of DBG_AUTH.go starts verification of the debugger's key and signature. -/
def execDebugAuth (s : State) : Host.Outcome State Fault Refusal :=
  run (fun s => authGo s) s

/-- DEBUG_AUTH_DONE (R523): Verification ends and unlocks the device, or counts a failure. -/
def execDebugAuthDone (s : State) : Host.Outcome State Fault Refusal :=
  run (fun s => authDone s) s

/-- DEBUG_LOCK (R524): A write of DBG_AUTH.lock ends the unlock. -/
def execDebugLock (s : State) : Host.Outcome State Fault Refusal :=
  run (fun s => debugLock s) s

/-- KILN_HALT (R525): A halt request stops Kiln at the next instruction boundary, or in lockup. -/
def execKilnHalt (s : State) : Host.Outcome State Fault Refusal :=
  run (fun s => if s.unlocked then kilnHalt s else s) s

/-- KILN_RESUME (R527): Resume restarts Kiln, invalidating fetch and leaving lockup. -/
def execKilnResume (s : State) : Host.Outcome State Fault Refusal :=
  run (fun s => if s.unlocked then kilnResume s else s) s

/-- KILN_STEP (R526): Step issues one instruction with no interrupt. -/
def execKilnStep (s : State) : Host.Outcome State Fault Refusal :=
  run (fun s => if s.unlocked then kilnStep s else s) s

/-- DBG_MEM_ACCESS (R526): An access through DBG_MEM_DATA reaches the Kiln map while halted, or sets mem_err. -/
def execDbgMemAccess (wr : Option Word) (seen : List Nat) (s : State) : Host.Outcome State Fault Refusal :=
  run (fun s => if s.unlocked then debugMem s wr seen else s) s

/-- THREAD_HALT (R529): A write of DBG_THR_HALT halts threads at their next slot. -/
def execThreadHalt (t : Fin 64) (s : State) : Host.Outcome State Fault Refusal :=
  run (fun s => if s.unlocked then threadHalt s t else s) s

/-- THREAD_RESUME (R529): A write of DBG_THR_RESUME resumes halted threads. -/
def execThreadResume (t : Fin 64) (s : State) : Host.Outcome State Fault Refusal :=
  run (fun s => if s.unlocked then threadResume s t else s) s

/-- BENCH_TEST (R532): A write of DBG_BENCH.start runs a Bench test. -/
def execBenchTest (w : Word) (s : State) : Host.Outcome State Fault Refusal :=
  run (fun s => if s.unlocked then benchStart s w else s) s

/-- BENCH_TEST_DONE (R532): A Bench test finishes and stores its result. -/
def execBenchTestDone (j : Fin 4) (result : Fin 16) (s : State) : Host.Outcome State Fault Refusal :=
  run (fun s => benchDone s j result) s

/-- ALWAYS_ON_SUPPLY_LOSS (R483): The always-on supply or PG_0 falls and the device is held in power-on reset, losing every state including the Ember
island. -/
def execAlwaysOnSupplyLoss (s : State) : Host.Outcome State Fault Refusal :=
  run (fun s => supplyLoss s) s

/-- GUARD_INPUT_INACTIVE (R322): A guard input's filtered level returns to inactive, clearing its PIN_GUARD_STAT.level bit so that a later clear of
tripped is accepted. -/
def execGuardInputInactive (g : Fin 4) (s : State) : Host.Outcome State Fault Refusal :=
  run (fun s => guardInactive s g) s

/-- POWER_MANAGEMENT_STATE_CHANGE (R352): The host moves the function between D0 and D3hot, stopping or resuming BAR decoding and sending MSI-X
messages held pending while not in D0. -/
def execPowerManagementStateChange (d0 : Bool) (s : State) : Host.Outcome State Fault Refusal :=
  run (fun s => hostPower s d0) s

/-- SERIAL_PORT_FRAME (R211): A serial port frame moves a word between the pins and the raw FIFOs, counting underflow or overflow and raising trigger
38 + k on FIFO level. -/
def execSerialPortFrame (k : Fin 4) (rx : SlotWords) (s : State) : Host.Outcome State Fault Refusal :=
  run (fun s => serialFrame s k (rx.own.map (·.toNat)) (rx.alt.map (·.toNat))) s

end Sys2Proof.Machine
end

