-- ==== Sys2Proof/Machine/Dispatch.lean ====
section
/-! DEFINITION. The meaning of every command: one arm per row. -/

namespace Sys2Proof.Machine

/-- What a command does to everything but the queue. -/
def exec (i : Instr) (s : State) : Host.Outcome State Fault Refusal :=
  match i with
  | .registerWrite port sup a w size => Sys2Proof.Machine.execRegisterWrite port sup a w size s
  | .readClear port sup a size => Sys2Proof.Machine.execReadClear port sup a size s
  | .blockEnableWrite n on => Sys2Proof.Machine.execBlockEnableWrite n on s
  | .startSequenceDone n => Sys2Proof.Machine.execStartSequenceDone n s
  | .stopSequenceDone n => Sys2Proof.Machine.execStopSequenceDone n s
  | .drainTimeout n => Sys2Proof.Machine.execDrainTimeout n s
  | .blockReset n => Sys2Proof.Machine.execBlockReset n s
  | .blockResetRelease n => Sys2Proof.Machine.execBlockResetRelease n s
  | .qdrRead port a len seen => Sys2Proof.Machine.execQdrRead port a len seen s
  | .qdrWrite port a bytes seen => Sys2Proof.Machine.execQdrWrite port a bytes seen s
  | .correctiveWriteBack home => Sys2Proof.Machine.execCorrectiveWriteBack home s
  | .addressParityError k => Sys2Proof.Machine.execAddressParityError k s
  | .scrubGranule k seen => Sys2Proof.Machine.execScrubGranule k seen s
  | .trainChannel k => Sys2Proof.Machine.execTrainChannel k s
  | .trainDone k fail eye => Sys2Proof.Machine.execTrainDone k fail eye s
  | .zqRecalibrate k failed => Sys2Proof.Machine.execZqRecalibrate k failed s
  | .eyeTrackWindow k group early late => Sys2Proof.Machine.execEyeTrackWindow k group early late s
  | .trackingInject k => Sys2Proof.Machine.execTrackingInject k s
  | .dozeEnter => Sys2Proof.Machine.execDozeEnter s
  | .dozeExit => Sys2Proof.Machine.execDozeExit s
  | .mirrorConfigWrite j w => Sys2Proof.Machine.execMirrorConfigWrite j w s
  | .intlvWrite w => Sys2Proof.Machine.execIntlvWrite w s
  | .csramAccess port a wr len seen => Sys2Proof.Machine.execCsramAccess port a wr len seen s
  | .frameBoundary n => Sys2Proof.Machine.execFrameBoundary n s
  | .composeLine n => Sys2Proof.Machine.execComposeLine n s
  | .spriteLineEval n => Sys2Proof.Machine.execSpriteLineEval n s
  | .lastLineComposed n => Sys2Proof.Machine.execLastLineComposed n s
  | .palDataAccess n wr => Sys2Proof.Machine.execPalDataAccess n wr s
  | .paletteLoad n w => Sys2Proof.Machine.execPaletteLoad n w s
  | .paletteLoadDone n => Sys2Proof.Machine.execPaletteLoadDone n s
  | .sprReloadRequest n => Sys2Proof.Machine.execSprReloadRequest n s
  | .updateHoldWrite n hold => Sys2Proof.Machine.execUpdateHoldWrite n hold s
  | .beamPrefetchFill n waited => Sys2Proof.Machine.execBeamPrefetchFill n waited s
  | .beamEnd n => Sys2Proof.Machine.execBeamEnd n s
  | .beamWaitl n => Sys2Proof.Machine.execBeamWaitl n s
  | .beamWaitlRelease n => Sys2Proof.Machine.execBeamWaitlRelease n s
  | .beamWaitx n => Sys2Proof.Machine.execBeamWaitx n s
  | .beamWaitxRelease n => Sys2Proof.Machine.execBeamWaitxRelease n s
  | .beamWr n => Sys2Proof.Machine.execBeamWr n s
  | .beamBwr n => Sys2Proof.Machine.execBeamBwr n s
  | .beamSkip n => Sys2Proof.Machine.execBeamSkip n s
  | .beamLoop n => Sys2Proof.Machine.execBeamLoop n s
  | .beamSig n => Sys2Proof.Machine.execBeamSig n s
  | .beamTouch n => Sys2Proof.Machine.execBeamTouch n s
  | .pipeAssign p w => Sys2Proof.Machine.execPipeAssign p w s
  | .videoBaseWrite n v chroma w => Sys2Proof.Machine.execVideoBaseWrite n v chroma w s
  | .vidCoefDataAccess n wr => Sys2Proof.Machine.execVidCoefDataAccess n wr s
  | .gammaDataAccess n wr => Sys2Proof.Machine.execGammaDataAccess n wr s
  | .teSample te => Sys2Proof.Machine.execTeSample te s
  | .teMissing n => Sys2Proof.Machine.execTeMissing n s
  | .btaTeRequest n due => Sys2Proof.Machine.execBtaTeRequest n due s
  | .btaTimeout n => Sys2Proof.Machine.execBtaTimeout n s
  | .linePacketStart n k => Sys2Proof.Machine.execLinePacketStart n k s
  | .linePacketEnd n => Sys2Proof.Machine.execLinePacketEnd n s
  | .videoLineStart n k => Sys2Proof.Machine.execVideoLineStart n k s
  | .headPacketSend n w => Sys2Proof.Machine.execHeadPacketSend n w s
  | .headPacketDone n resp err => Sys2Proof.Machine.execHeadPacketDone n resp err s
  | .headMarkWrite n w => Sys2Proof.Machine.execHeadMarkWrite n w s
  | .flipRecordRead n => Sys2Proof.Machine.execFlipRecordRead n s
  | .headCtrlWrite n w => Sys2Proof.Machine.execHeadCtrlWrite n w s
  | .deskewDone n => Sys2Proof.Machine.execDeskewDone n s
  | .rowCheckDone n burst => Sys2Proof.Machine.execRowCheckDone n burst s
  | .digestComplete n => Sys2Proof.Machine.execDigestComplete n s
  | .witnessCtrlWrite n w => Sys2Proof.Machine.execWitnessCtrlWrite n w s
  | .witnessLogConfigWrite n size w => Sys2Proof.Machine.execWitnessLogConfigWrite n size w s
  | .witnessStatus mbx => Sys2Proof.Machine.execWitnessStatus mbx s
  | .witnessBind mbx => Sys2Proof.Machine.execWitnessBind mbx s
  | .witnessEnable mbx => Sys2Proof.Machine.execWitnessEnable mbx s
  | .witnessLogAck mbx => Sys2Proof.Machine.execWitnessLogAck mbx s
  | .blitGo => Sys2Proof.Machine.execBlitGo s
  | .blitAbort => Sys2Proof.Machine.execBlitAbort s
  | .blkEnd => Sys2Proof.Machine.execBlkEnd s
  | .blkCopy => Sys2Proof.Machine.execBlkCopy s
  | .blkFill => Sys2Proof.Machine.execBlkFill s
  | .blkBlend => Sys2Proof.Machine.execBlkBlend s
  | .blkConvert => Sys2Proof.Machine.execBlkConvert s
  | .blkExpand => Sys2Proof.Machine.execBlkExpand s
  | .blkWait => Sys2Proof.Machine.execBlkWait s
  | .blkWaitline => Sys2Proof.Machine.execBlkWaitline s
  | .blkWaitRelease => Sys2Proof.Machine.execBlkWaitRelease s
  | .blkSig => Sys2Proof.Machine.execBlkSig s
  | .blkBurst => Sys2Proof.Machine.execBlkBurst s
  | .dmaGo k => Sys2Proof.Machine.execDmaGo k s
  | .dmaAbort k => Sys2Proof.Machine.execDmaAbort k s
  | .dmaPause k => Sys2Proof.Machine.execDmaPause k s
  | .dmaResume k => Sys2Proof.Machine.execDmaResume k s
  | .dmaTrigSw k => Sys2Proof.Machine.execDmaTrigSw k s
  | .dmaTrigger trigger => Sys2Proof.Machine.execDmaTrigger trigger s
  | .dmaDescLoad k seen => Sys2Proof.Machine.execDmaDescLoad k seen s
  | .dmaBurst => Sys2Proof.Machine.execDmaBurst s
  | .dmaBurstDone k seen => Sys2Proof.Machine.execDmaBurstDone k seen s
  | .dmaDescEnd k => Sys2Proof.Machine.execDmaDescEnd k s
  | .audioBlockBoundary m => Sys2Proof.Machine.execAudioBlockBoundary m s
  | .audioRenderDone => Sys2Proof.Machine.execAudioRenderDone s
  | .voiceKeyOn v => Sys2Proof.Machine.execVoiceKeyOn v s
  | .voiceKeyOff v => Sys2Proof.Machine.execVoiceKeyOff v s
  | .fxEnd b => Sys2Proof.Machine.execFxEnd b s
  | .fxMulk b d a imm => Sys2Proof.Machine.execFxMulk b d a imm s
  | .fxMack b d a imm => Sys2Proof.Machine.execFxMack b d a imm s
  | .fxMul b d a c => Sys2Proof.Machine.execFxMul b d a c s
  | .fxAdd b d a c => Sys2Proof.Machine.execFxAdd b d a c s
  | .fxSub b d a c => Sys2Proof.Machine.execFxSub b d a c s
  | .fxDrd b d imm => Sys2Proof.Machine.execFxDrd b d imm s
  | .fxDwr b a => Sys2Proof.Machine.execFxDwr b a s
  | .fxSat b d a => Sys2Proof.Machine.execFxSat b d a s
  | .fxLdk b d imm => Sys2Proof.Machine.execFxLdk b d imm s
  | .audioPortLock k ppm => Sys2Proof.Machine.execAudioPortLock k ppm s
  | .audioPortLockLoss k => Sys2Proof.Machine.execAudioPortLockLoss k s
  | .audioFifoAccess k wr => Sys2Proof.Machine.execAudioFifoAccess k wr s
  | .mov a f => Sys2Proof.Machine.execMov a f s
  | .add a f => Sys2Proof.Machine.execAdd a f s
  | .sub a f => Sys2Proof.Machine.execSub a f s
  | .and a f => Sys2Proof.Machine.execAnd a f s
  | .or a f => Sys2Proof.Machine.execOr a f s
  | .xor a f => Sys2Proof.Machine.execXor a f s
  | .cmp a f => Sys2Proof.Machine.execCmp a f s
  | .tst a f => Sys2Proof.Machine.execTst a f s
  | .movi a cc arg => Sys2Proof.Machine.execMovi a cc arg s
  | .addi a f => Sys2Proof.Machine.execAddi a f s
  | .cmpi a f => Sys2Proof.Machine.execCmpi a f s
  | .lsl a cc arg => Sys2Proof.Machine.execLsl a cc arg s
  | .lsr a cc arg => Sys2Proof.Machine.execLsr a cc arg s
  | .asr a cc arg => Sys2Proof.Machine.execAsr a cc arg s
  | .ld a cc arg => Sys2Proof.Machine.execLd a cc arg s
  | .st a cc arg => Sys2Proof.Machine.execSt a cc arg s
  | .ldsp a cc arg => Sys2Proof.Machine.execLdsp a cc arg s
  | .stsp a cc arg => Sys2Proof.Machine.execStsp a cc arg s
  | .branch a f => Sys2Proof.Machine.execBranch a f s
  | .call a f => Sys2Proof.Machine.execCall a f s
  | .jr a f => Sys2Proof.Machine.execJr a f s
  | .not a cc regs => Sys2Proof.Machine.execNot a cc regs s
  | .neg a cc regs => Sys2Proof.Machine.execNeg a cc regs s
  | .adc a cc arg => Sys2Proof.Machine.execAdc a cc arg s
  | .sbc a cc arg => Sys2Proof.Machine.execSbc a cc arg s
  | .rsb a cc arg => Sys2Proof.Machine.execRsb a cc arg s
  | .bic a cc arg => Sys2Proof.Machine.execBic a cc arg s
  | .mvn a cc arg => Sys2Proof.Machine.execMvn a cc arg s
  | .mul a cc arg => Sys2Proof.Machine.execMul a cc arg s
  | .shv a cc arg => Sys2Proof.Machine.execShv a cc arg s
  | .clz a cc arg => Sys2Proof.Machine.execClz a cc arg s
  | .subi a cc arg => Sys2Proof.Machine.execSubi a cc arg s
  | .andi a cc arg => Sys2Proof.Machine.execAndi a cc arg s
  | .ori a cc arg => Sys2Proof.Machine.execOri a cc arg s
  | .xori a cc arg => Sys2Proof.Machine.execXori a cc arg s
  | .movw a cc arg => Sys2Proof.Machine.execMovw a cc arg s
  | .movt a cc arg => Sys2Proof.Machine.execMovt a cc arg s
  | .ldw a cc arg => Sys2Proof.Machine.execLdw a cc arg s
  | .ldh a cc arg => Sys2Proof.Machine.execLdh a cc arg s
  | .ldhs a cc arg => Sys2Proof.Machine.execLdhs a cc arg s
  | .ldb a cc arg => Sys2Proof.Machine.execLdb a cc arg s
  | .ldbs a cc arg => Sys2Proof.Machine.execLdbs a cc arg s
  | .stw a cc arg => Sys2Proof.Machine.execStw a cc arg s
  | .sth a cc arg => Sys2Proof.Machine.execSth a cc arg s
  | .stb a cc arg => Sys2Proof.Machine.execStb a cc arg s
  | .lea a cc arg => Sys2Proof.Machine.execLea a cc arg s
  | .ldm a cc arg limit => Sys2Proof.Machine.execLdm a cc arg limit s
  | .stm a cc arg limit => Sys2Proof.Machine.execStm a cc arg limit s
  | .bmov a cc arg limit => Sys2Proof.Machine.execBmov a cc arg limit s
  | .bfill a cc arg limit => Sys2Proof.Machine.execBfill a cc arg limit s
  | .bcrc a cc arg limit => Sys2Proof.Machine.execBcrc a cc arg limit s
  | .div a cc arg => Sys2Proof.Machine.execDiv a cc arg s
  | .modr a cc arg => Sys2Proof.Machine.execModr a cc arg s
  | .mul64 a cc arg => Sys2Proof.Machine.execMul64 a cc arg s
  | .sideUnitComplete => Sys2Proof.Machine.execSideUnitComplete s
  | .adr a cc arg => Sys2Proof.Machine.execAdr a cc arg s
  | .svc a cc arg => Sys2Proof.Machine.execSvc a cc arg s
  | .mrs a cc arg => Sys2Proof.Machine.execMrs a cc arg s
  | .msr a cc arg => Sys2Proof.Machine.execMsr a cc arg s
  | .nop a f => Sys2Proof.Machine.execNop a f s
  | .barrier a f => Sys2Proof.Machine.execBarrier a f s
  | .iflush a f => Sys2Proof.Machine.execIflush a f s
  | .wait a f => Sys2Proof.Machine.execWait a f s
  | .eret a f => Sys2Proof.Machine.execEret a f s
  | .brk a f => Sys2Proof.Machine.execBrk a f s
  | .portIn a cc arg => Sys2Proof.Machine.execPortIn a cc arg s
  | .portOut a cc arg => Sys2Proof.Machine.execPortOut a cc arg s
  | .pcfgMode a cc arg => Sys2Proof.Machine.execPcfgMode a cc arg s
  | .pcfgCondition a cc arg => Sys2Proof.Machine.execPcfgCondition a cc arg s
  | .pcfgCompare a cc arg => Sys2Proof.Machine.execPcfgCompare a cc arg s
  | .pcfgOutputTime a cc arg => Sys2Proof.Machine.execPcfgOutputTime a cc arg s
  | .pcfgClock a cc arg => Sys2Proof.Machine.execPcfgClock a cc arg s
  | .pcfgWidth a cc arg => Sys2Proof.Machine.execPcfgWidth a cc arg s
  | .pcfgCbSource a cc arg => Sys2Proof.Machine.execPcfgCbSource a cc arg s
  | .pcfgCbGate a cc arg => Sys2Proof.Machine.execPcfgCbGate a cc arg s
  | .pcfgCbHigh a cc arg => Sys2Proof.Machine.execPcfgCbHigh a cc arg s
  | .pcfgCbLow a cc arg => Sys2Proof.Machine.execPcfgCbLow a cc arg s
  | .pts a cc arg => Sys2Proof.Machine.execPts a cc arg s
  | .cinData a cc arg => Sys2Proof.Machine.execCinData a cc arg s
  | .cinControl a cc arg => Sys2Proof.Machine.execCinControl a cc arg s
  | .coutData a cc arg => Sys2Proof.Machine.execCoutData a cc arg s
  | .coutControl a cc arg => Sys2Proof.Machine.execCoutControl a cc arg s
  | .coutEnd a cc arg => Sys2Proof.Machine.execCoutEnd a cc arg s
  | .fork a cc arg => Sys2Proof.Machine.execFork a cc arg s
  | .join a cc arg => Sys2Proof.Machine.execJoin a cc arg s
  | .lock a cc arg => Sys2Proof.Machine.execLock a cc arg s
  | .unlock a cc arg => Sys2Proof.Machine.execUnlock a cc arg s
  | .texit a cc arg => Sys2Proof.Machine.execTexit a cc arg s
  | .tid a cc arg => Sys2Proof.Machine.execTid a cc arg s
  | .getch a cc arg => Sys2Proof.Machine.execGetch a cc arg s
  | .freech a cc arg => Sys2Proof.Machine.execFreech a cc arg s
  | .route a cc arg => Sys2Proof.Machine.execRoute a cc arg s
  | .ewait a cc arg => Sys2Proof.Machine.execEwait a cc arg s
  | .earm a cc arg => Sys2Proof.Machine.execEarm a cc arg s
  | .edis a cc arg => Sys2Proof.Machine.execEdis a cc arg s
  | .eclr a cc arg => Sys2Proof.Machine.execEclr a cc arg s
  | .exceptionEntry => Sys2Proof.Machine.execExceptionEntry s
  | .storeBufferIssue seen => Sys2Proof.Machine.execStoreBufferIssue seen s
  | .loadDataReturn seen => Sys2Proof.Machine.execLoadDataReturn seen s
  | .slotIssue => Sys2Proof.Machine.execSlotIssue s
  | .slotTableSwitch => Sys2Proof.Machine.execSlotTableSwitch s
  | .threadStart t => Sys2Proof.Machine.execThreadStart t s
  | .threadFree t => Sys2Proof.Machine.execThreadFree t s
  | .tokenDeliver d => Sys2Proof.Machine.execTokenDeliver d s
  | .kendRxRead k => Sys2Proof.Machine.execKendRxRead k s
  | .kendTxWrite k token => Sys2Proof.Machine.execKendTxWrite k token s
  | .kendTxSend k => Sys2Proof.Machine.execKendTxSend k s
  | .channelAbandon e => Sys2Proof.Machine.execChannelAbandon e s
  | .stallDetect => Sys2Proof.Machine.execStallDetect s
  | .portConditionMet n timer level => Sys2Proof.Machine.execPortConditionMet n timer level s
  | .portWordIn n timer bits => Sys2Proof.Machine.execPortWordIn n timer bits s
  | .portWordBoundary n timer => Sys2Proof.Machine.execPortWordBoundary n timer s
  | .portTimedOutput n => Sys2Proof.Machine.execPortTimedOutput n s
  | .filterPulseLost n => Sys2Proof.Machine.execFilterPulseLost n s
  | .portContention n level => Sys2Proof.Machine.execPortContention n level s
  | .actuatorTrip n => Sys2Proof.Machine.execActuatorTrip n s
  | .kportLockSet => Sys2Proof.Machine.execKportLockSet s
  | .pinFunctionSwitch n => Sys2Proof.Machine.execPinFunctionSwitch n s
  | .extlLevelChange n level lost => Sys2Proof.Machine.execExtlLevelChange n level lost s
  | .guardTrip g => Sys2Proof.Machine.execGuardTrip g s
  | .guardClear g => Sys2Proof.Machine.execGuardClear g s
  | .guardLock => Sys2Proof.Machine.execGuardLock s
  | .safeReleaseWrite release => Sys2Proof.Machine.execSafeReleaseWrite release s
  | .bankSupplyChange b v => Sys2Proof.Machine.execBankSupplyChange b v s
  | .timebaseStep w => Sys2Proof.Machine.execTimebaseStep w s
  | .timebasePairRead k => Sys2Proof.Machine.execTimebasePairRead k s
  | .timerMatch k => Sys2Proof.Machine.execTimerMatch k s
  | .timerWrap k => Sys2Proof.Machine.execTimerWrap k s
  | .timerCmpWrite k w after => Sys2Proof.Machine.execTimerCmpWrite k w after s
  | .timerCapture k edge => Sys2Proof.Machine.execTimerCapture k edge s
  | .edgeOverrun k => Sys2Proof.Machine.execEdgeOverrun k s
  | .timerCapRead k => Sys2Proof.Machine.execTimerCapRead k s
  | .timerCntRead k after => Sys2Proof.Machine.execTimerCntRead k after s
  | .adcStart => Sys2Proof.Machine.execAdcStart s
  | .adcConversionDone code => Sys2Proof.Machine.execAdcConversionDone code s
  | .interruptSourceFire n => Sys2Proof.Machine.execInterruptSourceFire n s
  | .intcEoi n => Sys2Proof.Machine.execIntcEoi n s
  | .holdoffExpire g => Sys2Proof.Machine.execHoldoffExpire g s
  | .stormWindowExpire n => Sys2Proof.Machine.execStormWindowExpire n s
  | .stormClear n => Sys2Proof.Machine.execStormClear n s
  | .mbxLockRead host n => Sys2Proof.Machine.execMbxLockRead host n s
  | .mbxLockWrite host n w => Sys2Proof.Machine.execMbxLockWrite host n w s
  | .mbxDataWrite host n k w => Sys2Proof.Machine.execMbxDataWrite host n k w s
  | .mbxGo host n len => Sys2Proof.Machine.execMbxGo host n len s
  | .mbxAck host n => Sys2Proof.Machine.execMbxAck host n s
  | .agentLock b => Sys2Proof.Machine.execAgentLock b s
  | .agentUnlock b => Sys2Proof.Machine.execAgentUnlock b s
  | .agentWrite b => Sys2Proof.Machine.execAgentWrite b s
  | .agentRead b => Sys2Proof.Machine.execAgentRead b s
  | .agentGo b => Sys2Proof.Machine.execAgentGo b s
  | .agentAck b => Sys2Proof.Machine.execAgentAck b s
  | .agentRing b => Sys2Proof.Machine.execAgentRing b s
  | .doorbellSet host bank w => Sys2Proof.Machine.execDoorbellSet host bank w s
  | .doorbellClear host bank w => Sys2Proof.Machine.execDoorbellClear host bank w s
  | .doorbellMaskWrite host w => Sys2Proof.Machine.execDoorbellMaskWrite host w s
  | .msixUnmask v => Sys2Proof.Machine.execMsixUnmask v s
  | .ledgerSqTailWrite index => Sys2Proof.Machine.execLedgerSqTailWrite index s
  | .ledgerNop k => Sys2Proof.Machine.execLedgerNop k s
  | .ledgerVerify k => Sys2Proof.Machine.execLedgerVerify k s
  | .ledgerSeal k => Sys2Proof.Machine.execLedgerSeal k s
  | .ledgerAdmit k => Sys2Proof.Machine.execLedgerAdmit k s
  | .ledgerBatch k => Sys2Proof.Machine.execLedgerBatch k s
  | .seenCheck k => Sys2Proof.Machine.execSeenCheck k s
  | .seenInsert k => Sys2Proof.Machine.execSeenInsert k s
  | .ledgerHash k => Sys2Proof.Machine.execLedgerHash k s
  | .frameSeal k => Sys2Proof.Machine.execFrameSeal k s
  | .frameOpen k => Sys2Proof.Machine.execFrameOpen k s
  | .sessionDerive k => Sys2Proof.Machine.execSessionDerive k s
  | .sessionClear k => Sys2Proof.Machine.execSessionClear k s
  | .keyPut k => Sys2Proof.Machine.execKeyPut k s
  | .xlate k => Sys2Proof.Machine.execXlate k s
  | .ledgerCompletion k => Sys2Proof.Machine.execLedgerCompletion k s
  | .xlEnd e => Sys2Proof.Machine.execXlEnd e s
  | .xlFail e => Sys2Proof.Machine.execXlFail e s
  | .xlMti e => Sys2Proof.Machine.execXlMti e s
  | .xlBmap e => Sys2Proof.Machine.execXlBmap e s
  | .xlFld e => Sys2Proof.Machine.execXlFld e s
  | .xlJnb e => Sys2Proof.Machine.execXlJnb e s
  | .xlJmp e => Sys2Proof.Machine.execXlJmp e s
  | .xlCmpi e => Sys2Proof.Machine.execXlCmpi e s
  | .xlMovi e => Sys2Proof.Machine.execXlMovi e s
  | .xlNum e => Sys2Proof.Machine.execXlNum e s
  | .xlLut e => Sys2Proof.Machine.execXlLut e s
  | .xlPut e => Sys2Proof.Machine.execXlPut e s
  | .xlCpy e => Sys2Proof.Machine.execXlCpy e s
  | .xlPhash e => Sys2Proof.Machine.execXlPhash e s
  | .floorWrite w => Sys2Proof.Machine.execFloorWrite w s
  | .cordTailWrite w => Sys2Proof.Machine.execCordTailWrite w s
  | .cordSeqRead => Sys2Proof.Machine.execCordSeqRead s
  | .seenSaltWrite alt j w => Sys2Proof.Machine.execSeenSaltWrite alt j w s
  | .keyLoad => Sys2Proof.Machine.execKeyLoad s
  | .keyLoadDone => Sys2Proof.Machine.execKeyLoadDone s
  | .moneyEvent k kind amount currency time => Sys2Proof.Machine.execMoneyEvent k kind amount currency time s
  | .transactionTimeout txid => Sys2Proof.Machine.execTransactionTimeout txid s
  | .batchAckVerify peer id => Sys2Proof.Machine.execBatchAckVerify peer id s
  | .batchClose => Sys2Proof.Machine.execBatchClose s
  | .frameReceive p f fcsOk sfd => Sys2Proof.Machine.execFrameReceive p f fcsOk sfd s
  | .helloReceived p => Sys2Proof.Machine.execHelloReceived p s
  | .controlReceived p q => Sys2Proof.Machine.execControlReceived p q s
  | .dataReceived p q => Sys2Proof.Machine.execDataReceived p q s
  | .recordReceived => Sys2Proof.Machine.execRecordReceived s
  | .batchHead => Sys2Proof.Machine.execBatchHead s
  | .batchPart => Sys2Proof.Machine.execBatchPart s
  | .pointReceived => Sys2Proof.Machine.execPointReceived s
  | .replicaReceived => Sys2Proof.Machine.execReplicaReceived s
  | .takeoverReceived => Sys2Proof.Machine.execTakeoverReceived s
  | .helloTimer n => Sys2Proof.Machine.execHelloTimer n s
  | .ackTimer n => Sys2Proof.Machine.execAckTimer n s
  | .retransmitTimeout n seq => Sys2Proof.Machine.execRetransmitTimeout n seq s
  | .pathTimeout n p => Sys2Proof.Machine.execPathTimeout n p s
  | .heartbeatTimer n p => Sys2Proof.Machine.execHeartbeatTimer n p s
  | .portLinkChange p link => Sys2Proof.Machine.execPortLinkChange p link s
  | .fallbackTimer p => Sys2Proof.Machine.execFallbackTimer p s
  | .keeperSilence => Sys2Proof.Machine.execKeeperSilence s
  | .batchIdTimeout n id => Sys2Proof.Machine.execBatchIdTimeout n id s
  | .txqTailWrite p index => Sys2Proof.Machine.execTxqTailWrite p index s
  | .txDescriptorDone p sfd => Sys2Proof.Machine.execTxDescriptorDone p sfd s
  | .txtsRead p => Sys2Proof.Machine.execTxtsRead p s
  | .ptpMessage => Sys2Proof.Machine.execPtpMessage s
  | .bar0Access off size wr w => Sys2Proof.Machine.execBar0Access off size wr w s
  | .bar2Access off wr len seen => Sys2Proof.Machine.execBar2Access off wr len seen s
  | .bar4Access off wr len seen => Sys2Proof.Machine.execBar4Access off wr len seen s
  | .hostLinkDown => Sys2Proof.Machine.execHostLinkDown s
  | .hostLinkUp gen width => Sys2Proof.Machine.execHostLinkUp gen width s
  | .flr => Sys2Proof.Machine.execFlr s
  | .sysVersion mbx => Sys2Proof.Machine.execSysVersion mbx s
  | .sysProfileSelect mbx => Sys2Proof.Machine.execSysProfileSelect mbx s
  | .sysWindowOpen mbx => Sys2Proof.Machine.execSysWindowOpen mbx s
  | .sysWindowClose mbx => Sys2Proof.Machine.execSysWindowClose mbx s
  | .sysBar4 mbx => Sys2Proof.Machine.execSysBar4 mbx s
  | .sysTime mbx => Sys2Proof.Machine.execSysTime mbx s
  | .sysCert mbx => Sys2Proof.Machine.execSysCert mbx s
  | .sysImageStage mbx => Sys2Proof.Machine.execSysImageStage mbx s
  | .sysEcho mbx => Sys2Proof.Machine.execSysEcho mbx s
  | .powerState mbx late => Sys2Proof.Machine.execPowerState mbx late s
  | .powerStatus mbx => Sys2Proof.Machine.execPowerStatus mbx s
  | .powerWake mbx => Sys2Proof.Machine.execPowerWake mbx s
  | .powerLimit mbx => Sys2Proof.Machine.execPowerLimit mbx s
  | .sceneCommit mbx => Sys2Proof.Machine.execSceneCommit mbx s
  | .scenePalette mbx => Sys2Proof.Machine.execScenePalette mbx s
  | .sceneBlit mbx late => Sys2Proof.Machine.execSceneBlit mbx late s
  | .sceneAssign mbx => Sys2Proof.Machine.execSceneAssign mbx s
  | .sceneBeam mbx => Sys2Proof.Machine.execSceneBeam mbx s
  | .sceneStatus mbx => Sys2Proof.Machine.execSceneStatus mbx s
  | .headConfig mbx late => Sys2Proof.Machine.execHeadConfig mbx late s
  | .headEnable mbx late => Sys2Proof.Machine.execHeadEnable mbx late s
  | .headMark mbx => Sys2Proof.Machine.execHeadMark mbx s
  | .headStatus mbx => Sys2Proof.Machine.execHeadStatus mbx s
  | .headPacket mbx late => Sys2Proof.Machine.execHeadPacket mbx late s
  | .audioVoice mbx => Sys2Proof.Machine.execAudioVoice mbx s
  | .audioBus mbx => Sys2Proof.Machine.execAudioBus mbx s
  | .audioRoute mbx => Sys2Proof.Machine.execAudioRoute mbx s
  | .audioFxLoad mbx => Sys2Proof.Machine.execAudioFxLoad mbx s
  | .audioPort mbx => Sys2Proof.Machine.execAudioPort mbx s
  | .audioStatus mbx => Sys2Proof.Machine.execAudioStatus mbx s
  | .kindleLoad mbx => Sys2Proof.Machine.execKindleLoad mbx s
  | .kindleSlots mbx late => Sys2Proof.Machine.execKindleSlots mbx late s
  | .kindleStart mbx => Sys2Proof.Machine.execKindleStart mbx s
  | .kindleStop mbx late => Sys2Proof.Machine.execKindleStop mbx late s
  | .kindlePorts mbx => Sys2Proof.Machine.execKindlePorts mbx s
  | .kindlePolicy mbx => Sys2Proof.Machine.execKindlePolicy mbx s
  | .kindleStatus mbx => Sys2Proof.Machine.execKindleStatus mbx s
  | .ledgerStatus mbx => Sys2Proof.Machine.execLedgerStatus mbx s
  | .ledgerPersisted mbx => Sys2Proof.Machine.execLedgerPersisted mbx s
  | .ledgerRecover mbx => Sys2Proof.Machine.execLedgerRecover mbx s
  | .ledgerExport mbx => Sys2Proof.Machine.execLedgerExport mbx s
  | .ledgerSubmit mbx => Sys2Proof.Machine.execLedgerSubmit mbx s
  | .ledgerProgram mbx => Sys2Proof.Machine.execLedgerProgram mbx s
  | .floorConfig mbx => Sys2Proof.Machine.execFloorConfig mbx s
  | .floorTable mbx => Sys2Proof.Machine.execFloorTable mbx s
  | .floorPeerAdd mbx => Sys2Proof.Machine.execFloorPeerAdd mbx s
  | .floorPeerRemove mbx => Sys2Proof.Machine.execFloorPeerRemove mbx s
  | .floorResync mbx late => Sys2Proof.Machine.execFloorResync mbx late s
  | .floorPtp mbx => Sys2Proof.Machine.execFloorPtp mbx s
  | .floorStatus mbx => Sys2Proof.Machine.execFloorStatus mbx s
  | .healthRead mbx => Sys2Proof.Machine.execHealthRead mbx s
  | .healthClear mbx => Sys2Proof.Machine.execHealthClear mbx s
  | .healthAlert mbx => Sys2Proof.Machine.execHealthAlert mbx s
  | .healthHeartbeat mbx => Sys2Proof.Machine.execHealthHeartbeat mbx s
  | .debugUnlock mbx => Sys2Proof.Machine.execDebugUnlock mbx s
  | .debugTrace mbx => Sys2Proof.Machine.execDebugTrace mbx s
  | .debugPeek mbx => Sys2Proof.Machine.execDebugPeek mbx s
  | .hostPushBoot records => Sys2Proof.Machine.execHostPushBoot records s
  | .fuseLoad factory => Sys2Proof.Machine.execFuseLoad factory s
  | .fuseLoadDone => Sys2Proof.Machine.execFuseLoadDone s
  | .fuseProgram w => Sys2Proof.Machine.execFuseProgram w s
  | .bootStart flash => Sys2Proof.Machine.execBootStart flash s
  | .noonEntry => Sys2Proof.Machine.execNoonEntry s
  | .oscStable b => Sys2Proof.Machine.execOscStable b s
  | .oscLost b => Sys2Proof.Machine.execOscLost b s
  | .pllLocked k => Sys2Proof.Machine.execPllLocked k s
  | .pllUnlock k => Sys2Proof.Machine.execPllUnlock k s
  | .rootSwitch w lost => Sys2Proof.Machine.execRootSwitch w lost s
  | .pllCtrlWrite k frac w => Sys2Proof.Machine.execPllCtrlWrite k frac w s
  | .clkSrcWrite w => Sys2Proof.Machine.execClkSrcWrite w s
  | .frcTrim w => Sys2Proof.Machine.execFrcTrim w s
  | .frcTrimStep => Sys2Proof.Machine.execFrcTrimStep s
  | .freqMeasure w => Sys2Proof.Machine.execFreqMeasure w s
  | .freqMeasureDone edges => Sys2Proof.Machine.execFreqMeasureDone edges s
  | .powerOn => Sys2Proof.Machine.execPowerOn s
  | .resetNAssert ns => Sys2Proof.Machine.execResetNAssert ns s
  | .resetRelease sel => Sys2Proof.Machine.execResetRelease sel s
  | .upSequenceStep => Sys2Proof.Machine.execUpSequenceStep s
  | .pgRise k => Sys2Proof.Machine.execPgRise k s
  | .pgTimeout => Sys2Proof.Machine.execPgTimeout s
  | .powerFault k => Sys2Proof.Machine.execPowerFault k s
  | .downSequenceStep => Sys2Proof.Machine.execDownSequenceStep s
  | .midnightRequest => Sys2Proof.Machine.execMidnightRequest s
  | .wake pins rtc => Sys2Proof.Machine.execWake pins rtc s
  | .avsStep margin ack vout status => Sys2Proof.Machine.execAvsStep margin ack vout status s
  | .thermalSample temps => Sys2Proof.Machine.execThermalSample temps s
  | .throttleRelease => Sys2Proof.Machine.execThrottleRelease s
  | .coolDownExpire => Sys2Proof.Machine.execCoolDownExpire s
  | .thermalTripClear => Sys2Proof.Machine.execThermalTripClear s
  | .threadFaultPolicy t => Sys2Proof.Machine.execThreadFaultPolicy t s
  | .stallRecovery => Sys2Proof.Machine.execStallRecovery s
  | .headRestart n => Sys2Proof.Machine.execHeadRestart n s
  | .xtalLossPolicy persisted => Sys2Proof.Machine.execXtalLossPolicy persisted s
  | .healthPoll noted => Sys2Proof.Machine.execHealthPoll noted s
  | .heartbeatPost => Sys2Proof.Machine.execHeartbeatPost s
  | .wdogEnable w => Sys2Proof.Machine.execWdogEnable w s
  | .wdogKick w => Sys2Proof.Machine.execWdogKick w s
  | .wdogExpire => Sys2Proof.Machine.execWdogExpire s
  | .extest cells => Sys2Proof.Machine.execExtest cells s
  | .samplePreload levels => Sys2Proof.Machine.execSamplePreload levels s
  | .idcode => Sys2Proof.Machine.execIdcode s
  | .extestPulse cells => Sys2Proof.Machine.execExtestPulse cells s
  | .extestTrain cells => Sys2Proof.Machine.execExtestTrain cells s
  | .fusestat => Sys2Proof.Machine.execFusestat s
  | .dbgacc a wr data seen => Sys2Proof.Machine.execDbgacc a wr data seen s
  | .bypass => Sys2Proof.Machine.execBypass s
  | .debugAuth => Sys2Proof.Machine.execDebugAuth s
  | .debugAuthDone => Sys2Proof.Machine.execDebugAuthDone s
  | .debugLock => Sys2Proof.Machine.execDebugLock s
  | .kilnHalt => Sys2Proof.Machine.execKilnHalt s
  | .kilnResume => Sys2Proof.Machine.execKilnResume s
  | .kilnStep => Sys2Proof.Machine.execKilnStep s
  | .dbgMemAccess wr seen => Sys2Proof.Machine.execDbgMemAccess wr seen s
  | .threadHalt t => Sys2Proof.Machine.execThreadHalt t s
  | .threadResume t => Sys2Proof.Machine.execThreadResume t s
  | .benchTest w => Sys2Proof.Machine.execBenchTest w s
  | .benchTestDone j result => Sys2Proof.Machine.execBenchTestDone j result s
  | .alwaysOnSupplyLoss => Sys2Proof.Machine.execAlwaysOnSupplyLoss s
  | .guardInputInactive g => Sys2Proof.Machine.execGuardInputInactive g s
  | .powerManagementStateChange d0 => Sys2Proof.Machine.execPowerManagementStateChange d0 s
  | .serialPortFrame k rx => Sys2Proof.Machine.execSerialPortFrame k rx s
  | .pointSend => Sys2Proof.Machine.execPointSend s

end Sys2Proof.Machine
end

