-- ==== Sys2Proof/Safety.lean ====
section
/-! DEFINITION. What claims say of whole states and of commands: that the wires follow what they follow, and what a command answers. -/

namespace Sys2Proof.Machine

/-- SAFE_N, ALERT_N and the causes of ALERT_N show what they follow (R324, R485, R516). -/
def State.WiresFollow (s : State) : Prop :=
  s.bit PIN_SAFE PIN_SAFE_safe_n = s.safeHigh ∧ s.bit SYS_ALERT SYS_ALERT_level = s.alertLow ∧
  s.bit SYS_ALERT SYS_ALERT_wdog = s.bit SYS_WDOG_CTRL SYS_WDOG_CTRL_expired ∧ s.bit SYS_ALERT SYS_ALERT_lockup = s.kiln.lockup

/-- A command answers a next state of which `P` holds. -/
def Completes (c : Instr) (s : State) (P : State → Prop) : Prop := ∃ t, exec c s = .next t ∧ P t

/-- A command makes of `s` the next state `t`, in which the queue is that of `s` and the wires then follow the rest (`settle`). What `t` does not
change, the command leaves as it was. -/
def Does (c : Instr) (s t : State) : Prop := exec c s = .next (settle (keepQueue s t))

/-- Of the registers, only those listed differ between two states, beside PIN_SAFE and SYS_ALERT, which show wires. -/
def RegsBut (l : List Nat) (s t : State) : Prop := ∀ a, a ∉ l → a ≠ PIN_SAFE → a ≠ SYS_ALERT → t.reg a = s.reg a

/-- Every byte of memory is as it was. -/
def SameMem (s t : State) : Prop := ∀ a, t.byte a = s.byte a

/-! ## Processors -/

/-- The general registers, the flags and the pc of the processor that runs an instruction. -/
def State.regsOf (s : State) : Agent → Regs
  | .kiln => s.kreg
  | .thread t => s.treg t

def State.flagsOf (s : State) : Agent → Flags
  | .kiln => s.kflags
  | .thread t => (s.thr t).flags

def State.pcOf (s : State) : Agent → Word
  | .kiln => s.kiln.pc
  | .thread t => (s.thr t).pc

/-- Kiln is at an instruction boundary and nothing goes before the next instruction: it runs, no load, halt, wait or step is under way, no exception is
reported, no interrupt is recognisable, the side unit is free, and no comparator matches (R252, R526, R528). -/
def State.kilnReady (s : State) : Prop :=
  s.kilnRuns = true ∧ s.kiln.load = none ∧ s.kiln.haltReq = false ∧ s.kiln.waiting = false ∧ s.kiln.step = false ∧ s.kiln.late = [] ∧
    s.recognisable = none ∧ s.kiln.side = none ∧ s.bpMatch s.kiln.pc = none

/-- The turn of an agent has come: Kiln's, or that of the thread that has the slot. -/
def State.turnOf (s : State) : Agent → Prop
  | .kiln => s.kilnReady
  | .thread t => s.kind.slot = some t.val

/-- Whether an instruction is undefined on an agent. -/
def undefOn : Agent → Ins → Bool
  | .kiln, i => undefIns true i
  | .thread _, i => undefIns false i

/-- Instruction `i` issues on agent `a`: its turn has come, and it is a defined encoding whose condition passes. -/
def State.issues (s : State) (a : Agent) (i : Ins) : Prop := s.turnOf a ∧ undefOn a i = false ∧ condPasses (s.flagsOf a) i.cond = true

/-- The state in which the slot has been used. -/
def State.slotUsed (s : State) : State := { s with kind := { s.kind with slot := none } }

/-- Instruction `i` has completed on agent `a`: the pc moves past it. -/
def completed (s : State) (a : Agent) (i : Ins) : State :=
  match a with
  | .kiln => kdone s i.len
  | .thread t => threadDone s t i.len

/-- Before the effect of an instruction of agent `a`. -/
def State.began (s : State) : Agent → State
  | .kiln => s
  | .thread _ => s.slotUsed

/-- A register of agent `a` set. -/
def setRegOf (s : State) (a : Agent) (r : Nat) (w : Word) : State :=
  match a with
  | .kiln => s.setKreg r w
  | .thread t => s.setTreg t r w

/-- The flags of agent `a` set. -/
def setFlagsOf (s : State) (a : Agent) (f : Flags) : State :=
  match a with
  | .kiln => setKflags s f
  | .thread t => setTflags s t f

/-- Instruction `i` has completed on agent `a`, having written at most one register and at most all flags. -/
def wrote (s : State) (a : Agent) (i : Ins) (reg : Option (Nat × Word)) (flags : Option Flags) : State :=
  let u := match reg with | some (r, w) => setRegOf (s.began a) a r w | none => s.began a
  completed (match flags with | some f => setFlagsOf u a f | none => u) a i

end Sys2Proof.Machine
end

