-- ==== Sys2Proof/Certificates/Slice0/Obligations.lean ====
section
/-! DEFINITION. What the provers are asked to prove of the model: one statement per family of commands and per kind of state, each `def` a proposition. -/

open Sys2Proof Sys2Proof.Machine

/-- A step takes the front command and runs its meaning with the queue's rest. -/
def Obligations.StepRunsFrontCommand : Prop :=
  ∀ (s : State) (c : Instr) (q : List Instr), step (s.setPending (c :: q)) = exec c (s.setPending q)

/-- An idle step; that it is one timebase cycle, that the trace unit then sends a record that waits, that Falornyr then acts on completions that came while it
did not serve, and how the pin-control clock runs, is the model's choice (assumptions 2, 41, 97 and 115). -/
def Obligations.IdleStepIsOneTimebaseCycle : Prop :=
  ∀ s : State, s.pending = [] →
    (∃ t, step s = .next t ∧ t.pending = []) ∧
    (s.trc = [] → s.fw.ended = [] → (∀ k < 16, s.tmrRun k = false) →
      (s.ember.tbOn = false → ∃ t, step s = .next t ∧ t.tb = s.tb ∧ SameMem s t ∧ RegsBut [] s t) ∧
      (s.ember.tbOn = true → s.reg TB_ADJ = 0 → s.tbAcc = 0 → s.tbSteps = [] →
        ∃ t, step s = .next t ∧ t.tb = (s.tb + 1) % 2 ^ 64 ∧ t.tbAcc = 0 ∧ SameMem s t ∧ RegsBut [] s t) ∧
      (∀ delta : Int, s.ember.tbOn = true → s.reg TB_ADJ = 0 → s.tbAcc = 0 → s.tbSteps = [delta] →
        ∃ t, step s = .next t ∧ t.tb = wrapTo 64 ((s.tb : Int) + 1 + delta) ∧ t.tbAcc = 0 ∧ t.tbSteps = [] ∧
          t.reg TB_CTRL = (s.count TB_CTRL TB_CTRL_steps).reg TB_CTRL ∧ SameMem s t ∧ RegsBut [TB_CTRL] s t))

/-- The wires follow the state after every step. -/
def Obligations.EveryStepSettlesWires : Prop :=
  ∀ s t : State, step s = .next t → t.WiresFollow

/-- The wire invariant at reset. -/
def Obligations.ResetWiresFollow : Prop :=
  State.reset.WiresFollow ∧ State.reset.bit PIN_SAFE PIN_SAFE_safe_n = false ∧ State.reset.bit SYS_ALERT SYS_ALERT_level = false ∧
  State.reset.bit RST_CAUSE RST_CAUSE_source = true

/-- What `settle` does beside showing the wires: nothing. -/
def Obligations.SettlingChangesOnlyWireFields : Prop :=
  ∀ s : State,
    settle s = { s with regs := (settle s).regs } ∧ (settle s).WiresFollow ∧ RegsBut [] s (settle s) ∧
    (∀ f : Fld, f.hi < PIN_SAFE_safe_n.lo ∨ PIN_SAFE_safe_n.hi < f.lo → (settle s).fld PIN_SAFE f = s.fld PIN_SAFE f) ∧
    (∀ f : Fld, (∀ g ∈ [SYS_ALERT_level, SYS_ALERT_wdog, SYS_ALERT_lockup], f.hi < g.lo ∨ g.hi < f.lo) →
      (settle s).fld SYS_ALERT f = s.fld SYS_ALERT f)

/-- No step stops, and the queue is first in, first out. -/
def Obligations.EveryStepConsumesOneCommand : Prop :=
  ∀ s : State, ∃ t, step s = .next t ∧ t.pending = s.pending.tail

/-- The canonical form is canonical. -/
def Obligations.CanonicalMemoriesWithEqualBytesAreEqual : Prop :=
  ∀ s t : State, s.memWf = true → t.memWf = true → (∀ a, s.byte a = t.byte a) → s.mem = t.mem

/-- Access codes, field by field (Table 0-2). -/
def Obligations.FieldWriteFollowsAccessCode : Prop :=
  ∀ (w v : Word) (f : FRow), f.fld.hi < 32 → f.fld.lo ≤ f.fld.hi →
    (f.acc = .rw → f.legal (getF v f.fld) = true → getF (f.write w v) f.fld = getF v f.fld) ∧
    (f.acc = .w1c → getF (f.write w v) f.fld = getF w f.fld - (getF w f.fld &&& getF v f.fld)) ∧
    (f.acc = .w1s → getF (f.write w v) f.fld = getF w f.fld ||| getF v f.fld) ∧
    (f.acc = .ro ∨ f.acc = .wo ∨ f.acc = .rc → f.write w v = w) ∧
    (∀ g : Fld, g.hi < f.fld.lo ∨ f.fld.hi < g.lo → getF (f.write w v) g = getF w g) ∧
    (f.acc ≠ .wo → f.read w = getF w f.fld * 2 ^ f.fld.lo) ∧ (f.acc = .wo → f.read w = 0) ∧
    (f.acc = .rc → getF (f.afterRead w) f.fld = 0) ∧ (f.acc ≠ .rc → f.afterRead w = w)

/-- R10, for every register of the map. -/
def Obligations.ReservedEncodingLeavesItsField : Prop :=
  ∀ (a : Nat) (r : RegRow), regRow a = some r → ∀ (w v : Word), ∀ f ∈ r.fields,
    getF (r.write w v) f.fld = getF (f.write w v) f.fld ∧
    (f.acc = .rw → f.legal (getF v f.fld) = false → getF (r.write w v) f.fld = getF w f.fld) ∧
    (f.acc = .rw → f.legal (getF v f.fld) = true → getF (r.write w v) f.fld = getF v f.fld)

/-- REGISTER_WRITE and READ_CLEAR on the SYS block (R7, R9). -/
def Obligations.RegisterAccessReachesItsRegister : Prop :=
  ∀ (s : State) (port : Fin 12) (sup : Bool) (a w : Word) (r : RegRow), a.toNat / 0x10000 = 0x4000 → a.toNat % 4 = 0 → regRow a.toNat = some r →
    (s.ember.phase = .run →
      (a.toNat ≠ SYS_WDOG_CTRL → a.toNat ≠ SYS_WDOG_KICK →
        Does (.registerWrite port sup a w 2) s { s.setReg a.toNat (r.write (s.reg a.toNat) w) with rd := ⟨0, false, false⟩ }) ∧
      Does (.readClear port sup a 2) s
        { s.setReg a.toNat (r.afterRead (s.reg a.toNat)) with rd := ⟨(r.read (s.reg a.toNat)).toNat, false, false⟩ }) ∧
    (∀ size : Fin 3, size ≠ 2 ∨ s.ember.phase ≠ .run →
      Completes (.registerWrite port sup a w size) s (fun t =>
        t.rd = ⟨0, true, false⟩ ∧ SameMem s t ∧ RegsBut [FAB_ERR_CNT, FAB_ERR_ADDR, FAB_ERR_INFO] s t) ∧
      Completes (.readClear port sup a size) s (fun t =>
        t.rd = ⟨0, true, false⟩ ∧ SameMem s t ∧ RegsBut [FAB_ERR_CNT, FAB_ERR_ADDR, FAB_ERR_INFO] s t))

/-- BLOCK_ENABLE_WRITE while a sequence runs (R34). The last conjuncts are its last sentence. -/
def Obligations.EnableWrittenDuringASequence : Prop :=
  ∀ (s : State) (n : Fin 40) (on last : Bool),
    (s.blkState n = 1 → Does (.blockEnableWrite n on) s
      ((s.setBit (FAB_BLK_CTRL n) FAB_BLK_CTRL_enable on).setBit (FAB_BLK_STAT n) FAB_BLK_STAT_pending_stop (!on))) ∧
    (s.blkState n = 3 → Does (.blockEnableWrite n on) s
      ((s.setBit (FAB_BLK_CTRL n) FAB_BLK_CTRL_enable on).setBit (FAB_BLK_STAT n) FAB_BLK_STAT_pending_start on)) ∧
    (s.blkState n = 3 → ∃ t u, exec (.blockEnableWrite n on) s = .next t ∧ exec (.blockEnableWrite n last) t = .next u ∧
      u.blkState n = 3 ∧ u.bit (FAB_BLK_STAT n) FAB_BLK_STAT_pending_start = last) ∧
    (s.blkState n = 1 → ∃ t u, exec (.blockEnableWrite n on) s = .next t ∧ exec (.blockEnableWrite n last) t = .next u ∧
      u.blkState n = 1 ∧ u.bit (FAB_BLK_STAT n) FAB_BLK_STAT_pending_stop = !last)

/-- BLOCK_ENABLE_WRITE, START_SEQUENCE_DONE, STOP_SEQUENCE_DONE and DRAIN_TIMEOUT (R33, R35, R36). -/
def Obligations.BlockStateTransitions : Prop :=
  ∀ (s : State) (n : Fin 40),
    let starting (s : State) : State :=
      let s := s.setFld (FAB_BLK_STAT n) FAB_BLK_STAT_state 1
      if 9 ≤ n.val ∧ n.val < 13 then headPll (headSample s (n - 9) (s.laneRate (n - 9))) (n - 9) else s
    let stopping (s : State) : State :=
      let s := s.setFld (FAB_BLK_STAT n) FAB_BLK_STAT_state 3
      if 9 ≤ n.val ∧ n.val < 13 then headStop s (n - 9) else if 16 ≤ n.val ∧ n.val < 28 then retortLost s (n - 16) else s
    let empty : Prop := s.drained n = true ∧ s.sending n = false
    let ready : Prop := 9 ≤ n.val → n.val < 13 → s.bit (CLK_PLL_CTRL (n - 4)) CLK_PLL_CTRL_locked = true
    (∀ on, s.blkState n = cond on 2 0 → Does (.blockEnableWrite n on) s (s.setBit (FAB_BLK_CTRL n) FAB_BLK_CTRL_enable on)) ∧
    (s.blkState n = 0 → Does (.blockEnableWrite n true) s (starting (s.setBit (FAB_BLK_CTRL n) FAB_BLK_CTRL_enable true))) ∧
    (s.blkState n = 2 → Does (.blockEnableWrite n false) s (stopping (s.setBit (FAB_BLK_CTRL n) FAB_BLK_CTRL_enable false))) ∧
    (s.blkState n = 1 → ready → s.bit (FAB_BLK_STAT n) FAB_BLK_STAT_pending_stop = false →
      Does (.startSequenceDone n) s (reachOn (s.setFld (FAB_BLK_STAT n) FAB_BLK_STAT_state 2) n) ∧
      (n.val < 9 ∨ n.val = 13 ∨ n.val = 15 ∨ 34 ≤ n.val → Does (.startSequenceDone n) s (s.setFld (FAB_BLK_STAT n) FAB_BLK_STAT_state 2))) ∧
    (s.blkState n = 1 → ready → s.bit (FAB_BLK_STAT n) FAB_BLK_STAT_pending_stop = true →
      Does (.startSequenceDone n) s (stopping (s.setBit (FAB_BLK_STAT n) FAB_BLK_STAT_pending_stop false))) ∧
    (s.blkState n = 3 → ¬ empty → Does (.stopSequenceDone n) s s) ∧
    (s.blkState n = 3 → empty → s.bit (FAB_BLK_STAT n) FAB_BLK_STAT_pending_start = false →
      Does (.stopSequenceDone n) s
        (let s := s.setFld (FAB_BLK_STAT n) FAB_BLK_STAT_state 0
         if 9 ≤ n.val ∧ n.val < 13 then pipesNow (restate (headPllOff s (n - 9)) (n - 9)) else s)) ∧
    (s.blkState n = 3 → empty → s.bit (FAB_BLK_STAT n) FAB_BLK_STAT_pending_start = true →
      Does (.stopSequenceDone n) s (starting (s.setBit (FAB_BLK_STAT n) FAB_BLK_STAT_pending_start false))) ∧
    (s.blkState n = 3 → Does (.drainTimeout n) s
      (let s := failTransfers (s.setBit (FAB_BLK_STAT n) FAB_BLK_STAT_drain_timeout true) n 4
       if 28 ≤ n.val ∧ n.val < 34 then ledgerDispatch (unitFails s n) else s)) ∧
    (s.blkState n ≠ 3 → Does (.stopSequenceDone n) s s ∧ Does (.drainTimeout n) s s)

/-- BLOCK_RESET of a block that is not ON (R38). -/
def Obligations.BlockResetIsRefusedUnlessOn : Prop :=
  ∀ (s : State) (n : Fin 40), s.blkState n ≠ 2 →
    Does (.blockReset n) s (s.setBit (FAB_BLK_STAT n) FAB_BLK_STAT_reset_refused true)

/-- BLOCK_RESET and BLOCK_RESET_RELEASE (R37, R39). -/
def Obligations.BlockResetHoldsThenReleases : Prop :=
  ∀ (s : State) (n : Fin 40),
    (s.blkOn n = true → s.idleMode n = true → s.blockIdle n = false →
      Does (.blockReset n) s (s.setBit (FAB_BLK_STAT n) FAB_BLK_STAT_reset_refused true)) ∧
    (s.blkOn n = true → (s.idleMode n = true → s.blockIdle n = true) →
      let failed := failTransfers s n 3
      let stopped := if 9 ≤ n.val ∧ n.val < 13 then headStop failed (n - 9) else failed
      Does (.blockReset n) s (blockHidden (({ stopped with blkReset := smSet (fun _ => false) stopped.blkReset n true }.setBit
        (FAB_BLK_CTRL n) FAB_BLK_CTRL_reset true).resetRegs (blockReg n)) n)) ∧
    (s.inReset n = true →
      let cleared := blockHidden (s.resetRegs (blockReg n)) n
      let open_ := { cleared with blkReset := smSet (fun _ => false) cleared.blkReset n false }
      let sampled := if 9 ≤ n.val ∧ n.val < 13 then headSample open_ (n - 9) (open_.laneRate (n - 9)) else open_
      Does (.blockResetRelease n) s (reachOn (sampled.setBit (FAB_BLK_CTRL n) FAB_BLK_CTRL_reset false) n)) ∧
    (s.inReset n = true → n.val ∈ [8, 37, 38] → Completes (.blockResetRelease n) s (fun t =>
      (∀ a, blockReg n a = true → t.reg a = regReset a) ∧ (∀ a, blockReg n a = false → a ≠ FAB_BLK_CTRL n → a ≠ PIN_SAFE → a ≠ SYS_ALERT → t.reg a = s.reg a) ∧
      t.bit (FAB_BLK_CTRL n) FAB_BLK_CTRL_reset = false ∧ SameMem s t)) ∧
    (s.inReset n = false → Does (.blockResetRelease n) s s)

/-- QDR_READ (R32, R48 to R50, R55). -/
def Obligations.QdrReadFollowsTable33 : Prop :=
  (∀ (s : State) (port : Fin 12) (a : Word) (len : Nat) (seen : List Nat), s.target a.toNat = .beyond → 0 < len → a.toNat % 8 + len ≤ 8 →
    Does (.qdrRead port a len seen) s { fabErr s port 0x3F 7 a.toNat with rd := ⟨0, true, false⟩ }) ∧
  ∀ (s : State) (port : Fin 12) (a : Word) (len k off : Nat), s.target a.toNat = .qdr k off →
    0 < len → a.toNat % 8 + len ≤ 8 →
    let h := aliasAddr k (off / 8 * 8)
    let data (u : State) := leOf (u.bytes (aliasAddr k off) len)
    (s.wrapper (blkChannel k) = none → s.inTracking k (off / 8 * 8) = false →
      (s.eccAt h = 0 → Does (.qdrRead port a len []) s { memTouch s with rd := ⟨data s, false, false⟩ }) ∧
      (s.eccAt h = 1 → Does (.qdrRead port a len []) s
        { ((memTouch s).count (MEM_ECC_CNT k) MEM_ECC_CNT_corrected).addWb h (s.bytes h 8) with rd := ⟨data s, false, false⟩ }) ∧
      (s.eccAt h = 0 → Does (.qdrRead port a len [2, 2, 0]) s
        { (memTouch s).count (MEM_ECC_CNT k) MEM_ECC_CNT_rescued with rd := ⟨data s, false, false⟩ }) ∧
      (s.eccAt h = 2 → s.mirrorOf MEM_MIRROR_primary k (off / 8 * 8) = none → Does (.qdrRead port a len []) s
        { capturePoison ((memTouch s).count (MEM_ECC_CNT k) MEM_ECC_CNT_poisoned) port k (off / 8 * 8) 1 with rd := ⟨0, false, true⟩ })) ∧
    (s.wrapper (blkChannel k) = none → s.inTracking k (off / 8 * 8) = true → Does (.qdrRead port a len []) s
      { memTouch s with rd := ⟨leOf ((trackingWord.drop (a.toNat % 8)).take len), false, false⟩ }) ∧
    (∀ c, s.wrapper (blkChannel k) = some c → Does (.qdrRead port a len []) s
      { fabErr s port (blkChannel k) c a.toNat with rd := ⟨0, true, false⟩ }) ∧
    (∀ n seen, Completes (.qdrRead port a n seen) s (fun t => SameMem s t))

/-- QDR_WRITE (R48 to R50, R53, R54, R58, R60, R61). The causes of a mirrored write that no rule orders are the model's choice (assumption 73). -/
def Obligations.QdrWriteStoresItsBytes : Prop :=
  (∀ (s : State) (port : Fin 12) (a : Word) (bs : List Byte) (seen : List Nat), s.target a.toNat = .beyond → bs ≠ [] → a.toNat % 8 + bs.length ≤ 8 →
    Does (.qdrWrite port a bs seen) s { fabErr s port 0x3F 7 a.toNat with rd := ⟨0, true, false⟩ }) ∧
  ∀ (s : State) (port : Fin 12) (a : Word) (bs : List Byte) (k off : Nat), s.target a.toNat = .qdr k off →
    bs ≠ [] → a.toNat % 8 + bs.length ≤ 8 →
    let w := off / 8 * 8
    let m (p : Nat) := s.fld (MEM_MIRROR p) MEM_MIRROR_mirror
    let refused (c : Nat) := Does (.qdrWrite port a bs []) s { fabErr s port (blkChannel k) c a.toNat with rd := ⟨0, true, false⟩ }
    (s.inTracking k w = false → s.mirrorOf MEM_MIRROR_mirror k w = none → s.mirrorOf MEM_MIRROR_primary k w = none →
      (s.wrapper (blkChannel k) = none →
        Completes (.qdrWrite port a bs []) s (fun t =>
          t.rd = ⟨0, false, false⟩ ∧ t.bytes (aliasAddr k off) bs.length = bs ∧
          t.eccAt (aliasAddr k w) = (if bs.length ≠ 8 ∧ 2 ≤ s.eccAt (aliasAddr k w) then 2 else 0) ∧
          ∀ x, (x < aliasAddr k off ∨ aliasAddr k off + bs.length ≤ x) → t.byte x = s.byte x)) ∧
      (∀ c, s.wrapper (blkChannel k) = some c → refused c)) ∧
    (∀ p, s.inTracking k w = false → s.mirrorOf MEM_MIRROR_mirror k w = none → s.mirrorOf MEM_MIRROR_primary k w = some p →
      (port.val ≠ 9 ∨ s.inTracking (m p) w = true → refused 6) ∧
      (port.val = 9 → s.inTracking (m p) w = false →
        (s.inReset (blkChannel k) = true ∨ s.inReset (blkChannel (m p)) = true → refused 3) ∧
        (s.inReset (blkChannel k) = false → s.inReset (blkChannel (m p)) = false →
          (s.blkOn (blkChannel k) = false ∨ s.blkOn (blkChannel (m p)) = false → refused 2) ∧
          (s.blkOn (blkChannel k) = true → s.blkOn (blkChannel (m p)) = true →
            (s.chanTrained (m p) = false ∨ s.chanCapacity (m p) ≤ w → refused 7) ∧
            (s.chanTrained (m p) = true → w < s.chanCapacity (m p) → m p ≠ k →
              bs.length = 8 ∨ (s.eccAt (aliasAddr k w) < 2 ∧ s.eccAt (aliasAddr (m p) w) < 2) →
              Completes (.qdrWrite port a bs []) s (fun t =>
                t.rd = ⟨0, false, false⟩ ∧ t.bytes (aliasAddr k off) bs.length = bs ∧ t.bytes (aliasAddr (m p) off) bs.length = bs ∧
                ∀ x, (x < aliasAddr k off ∨ aliasAddr k off + bs.length ≤ x) → (x < aliasAddr (m p) off ∨ aliasAddr (m p) off + bs.length ≤ x) →
                  t.byte x = s.byte x)))))) ∧
    (s.inTracking k w = true ∨ (s.mirrorOf MEM_MIRROR_mirror k w).isSome = true → refused 6)

/-- CORRECTIVE_WRITE_BACK (R56). -/
def Obligations.WriteCancelsCorrectiveWriteBack : Prop :=
  (∀ (s : State) (port : Fin 12) (a : Word) (bs : List Byte) (k off : Nat), s.target a.toNat = .qdr k off →
    bs ≠ [] → a.toNat % 8 + bs.length ≤ 8 → s.inTracking k (off / 8 * 8) = false →
    s.mirrorOf MEM_MIRROR_mirror k (off / 8 * 8) = none → s.mirrorOf MEM_MIRROR_primary k (off / 8 * 8) = none →
    s.wrapper (blkChannel k) = none →
    Completes (.qdrWrite port a bs []) s (fun t => Does (.correctiveWriteBack (aliasAddr k (off / 8 * 8))) t t)) ∧
  (∀ (s : State) (h v : Nat), s.wb.lookup h = some v →
    Does (.correctiveWriteBack h) s (((s.setBytes h (leBytes 8 v)).setEcc h 0).dropWb h) ∧
    (((s.setBytes h (leBytes 8 v)).setEcc h 0).dropWb h).wb.lookup h = none) ∧
  (∀ (s : State) (h : Nat), s.wb.lookup h = none → Does (.correctiveWriteBack h) s s)

/-- The canonical form of memory, kept by the commands of memory. -/
def Obligations.MemoryCommandsKeepCanonicalMemory : Prop :=
  ∀ s : State, s.memWf = true → ∀ (port : Fin 12) (a : Word) (bs : List Byte) (len home : Nat) (k : Fin 6) (seen : List Nat),
    Completes (.qdrWrite port a bs seen) s (fun t => t.memWf = true) ∧ Completes (.qdrRead port a len seen) s (fun t => t.memWf = true) ∧
    Completes (.csramAccess port a none len seen) s (fun t => t.memWf = true) ∧
    Completes (.csramAccess port a (some bs) len seen) s (fun t => t.memWf = true) ∧
    Completes (.correctiveWriteBack home) s (fun t => t.memWf = true) ∧ Completes (.scrubGranule k seen) s (fun t => t.memWf = true)

/-- The memory island's own events (R57, R59, R63 to R67, R70). -/
def Obligations.MemoryIslandEvents : Prop :=
  ∀ (s : State) (k : Fin 6) (fail : Fin 8) (eye : Byte) (group : Fin 64) (early late : Nat) (seen : List Nat),
    let start := s.fld MEM_TRAIN_CTRL MEM_TRAIN_CTRL_start
    let ended := (s.setFld MEM_TRAIN_CTRL MEM_TRAIN_CTRL_start (start - 2 ^ k.val)).setBit MEM_EVT MEM_EVT_train true
    let moved (p : Int) : State := { s with capture := smSet (fun _ => 0) s.capture (64 * k.val + group.val) p }
    (s.blkOn (blkChannel k) = true → Does (.trainChannel k) s
      ((s.setBit (MEM_TRAIN_STAT k) MEM_TRAIN_STAT_trained false).setFld MEM_TRAIN_CTRL MEM_TRAIN_CTRL_start (start ||| 2 ^ k.val))) ∧
    (start.testBit k = true → fail ≠ 0 → Does (.trainDone k fail eye) s
      ((ended.setFld (MEM_TRAIN_STAT k) MEM_TRAIN_STAT_fail fail).setBit (MEM_TRAIN_STAT k) MEM_TRAIN_STAT_trained false)) ∧
    (start.testBit k = true → Does (.trainDone k 0 eye) s
      (resetCapture (((ended.setFld (MEM_TRAIN_STAT k) MEM_TRAIN_STAT_fail 0).setBit (MEM_TRAIN_STAT k) MEM_TRAIN_STAT_trained true).setFld
        (MEM_TRAIN_STAT k) MEM_TRAIN_STAT_eye_min eye.toNat) k)) ∧
    (s.chanTrained k = true →
      (∀ p : Int, (early + 512 < late → p = s.captureOf k group + 1) → (late + 512 < early → p = s.captureOf k group - 1) →
          (early ≤ late + 512 → late ≤ early + 512 → p = s.captureOf k group) →
        (p.natAbs < 16 → Does (.eyeTrackWindow k group early late) s (moved p)) ∧
        (16 ≤ p.natAbs → Does (.eyeTrackWindow k group early late) s ((moved p).setBit MEM_EVT MEM_EVT_drift true))) ∧
      Does (.trackingInject k) s (s.count (MEM_TRAIN_STAT k) MEM_TRAIN_STAT_inject_cnt) ∧
      Does (.zqRecalibrate k true) s (s.count (MEM_ECC_CNT k) MEM_ECC_CNT_corrected) ∧ Does (.zqRecalibrate k false) s s) ∧
    (s.bit (MEM_CH_CFG k) MEM_CH_CFG_ap_en = true → Does (.addressParityError k) s
      ((s.count (MEM_PAR_CNT k) MEM_PAR_CNT_reissues).setBit MEM_EVT MEM_EVT_parity true)) ∧
    (s.mayDoze = true → s.bit MEM_DOZE_STAT MEM_DOZE_STAT_dozing = false → Does .dozeEnter s
      ((s.setBit MEM_DOZE_STAT MEM_DOZE_STAT_dozing true).count MEM_DOZE_STAT MEM_DOZE_STAT_entries)) ∧
    (s.mayDoze = false → Does .dozeEnter s s) ∧
    Does .dozeExit s (s.setBit MEM_DOZE_STAT MEM_DOZE_STAT_dozing false) ∧
    (s.bit MEM_SCRUB MEM_SCRUB_enable = true → s.blkOn (blkChannel k) = true → s.chanTrained k = true →
      (s.bit MEM_DOZE_STAT MEM_DOZE_STAT_dozing = false → Does (.scrubGranule k seen) s
        (let pos := smGet (fun _ => 0) s.scrubPos k
         let s := scrubWords s k (pos * 256) seen 32
         { s with scrubPos := smSet (fun _ => 0) s.scrubPos k ((pos + 1) % max 1 (s.chanCapacity k / 256)) })) ∧
      (s.bit MEM_DOZE_STAT MEM_DOZE_STAT_dozing = true → Does (.scrubGranule k seen) s s))

/-- MIRROR_CONFIG_WRITE and INTLV_WRITE (R49, R62). -/
def Obligations.MirrorAndInterleaveWritesAreChecked : Prop :=
  ∀ (s : State) (j : Fin 3) (w : Word),
    let il := s.writeCodes MEM_INTLV w
    let untrained := ∃ k < 6, (il.fld MEM_INTLV MEM_INTLV_set).testBit k = true ∧ il.chanTrained k = false
    let t := s.writeCodes (MEM_MIRROR j) w
    let v := t.reg (MEM_MIRROR j)
    (s.mirrorOk j v = true → Does (.mirrorConfigWrite j w) s t) ∧
    (s.mirrorOk j v = false → Does (.mirrorConfigWrite j w) s (s.setBit (MEM_MIRROR j) MEM_MIRROR_valid false)) ∧
    (∀ x : Word, s.mirrorOk j x = true ↔ getF x MEM_MIRROR_primary ≠ getF x MEM_MIRROR_mirror ∧
      s.fld MEM_INTLV MEM_INTLV_il_size ≤ getF x MEM_MIRROR_base ∧ ∀ i < 3, i ≠ j.val → s.mirrorsMeet x i = false) ∧
    getF v MEM_MIRROR_primary = (if getF w MEM_MIRROR_primary < 6 then getF w MEM_MIRROR_primary else s.fld (MEM_MIRROR j) MEM_MIRROR_primary) ∧
    (bitOf w MEM_INTLV_enable = false ∨ ¬ untrained → Does (.intlvWrite w) s il) ∧
    (bitOf w MEM_INTLV_enable = true → untrained →
      Does (.intlvWrite w) s (il.setBit MEM_INTLV MEM_INTLV_enable (s.bit MEM_INTLV MEM_INTLV_enable)))

/-- CSRAM_ACCESS (R32, R54, R69). -/
def Obligations.CsramAccessReadsAndStores : Prop :=
  ∀ (s : State) (port : Fin 12) (a : Word) (bs : List Byte) (len : Nat), 0x10000000 ≤ a.toNat → a.toNat < 0x10800000 → 0 < len →
    a.toNat % 8 + len ≤ 8 → bs.length = len →
    let h := a.toNat / 8 * 8
    let data := leOf (s.bytes a.toNat len)
    (s.wrapper 0 = none →
      (s.eccAt h = 0 → Does (.csramAccess port a none len []) s { s with rd := ⟨data, false, false⟩ }) ∧
      (s.eccAt h = 1 → Does (.csramAccess port a none len []) s
        { (s.count MEM_CSRAM_ECC MEM_CSRAM_ECC_corrected).setEcc h 0 with rd := ⟨data, false, false⟩ }) ∧
      (2 ≤ s.eccAt h → Does (.csramAccess port a none len []) s { csramPoison s h with rd := ⟨0, false, true⟩ }) ∧
      Completes (.csramAccess port a (some bs) len []) s (fun t =>
        t.rd = ⟨0, false, false⟩ ∧ t.bytes a.toNat len = bs ∧ t.eccAt h = (if 2 ≤ s.eccAt h ∧ len ≠ 8 then 2 else 0) ∧
        ∀ x, (x < a.toNat ∨ a.toNat + len ≤ x) → t.byte x = s.byte x)) ∧
    (∀ c, s.wrapper 0 = some c →
      Does (.csramAccess port a none len []) s { fabErr s port 0 c a.toNat with rd := ⟨0, true, false⟩ } ∧
      Does (.csramAccess port a (some bs) len []) s { fabErr s port 0 c a.toNat with rd := ⟨0, true, false⟩ }) ∧
    (∀ n seen, Completes (.csramAccess port a none n seen) s (fun t => SameMem s t))

/-- PAL_DATA_ACCESS, GAMMA_DATA_ACCESS and VID_COEF_DATA_ACCESS (R93, R131, R133, R135). -/
def Obligations.PaletteGammaAndTapAccess : Prop :=
  ∀ (s : State) (n : Fin 4) (w : Word),
    let i := s.palIndex n
    let palNext (u : State) : State :=
      if s.bit (SCENE_PAL_INDEX n) SCENE_PAL_INDEX_autoinc = true then u.setReg (SCENE_PAL_INDEX n) (BitVec.ofNat 32 (0x80000000 + (i + 1) % 0x8000)) else u
    let ch := s.fld (SCENE_GAMMA_INDEX n) SCENE_GAMMA_INDEX_channel
    let e := s.fld (SCENE_GAMMA_INDEX n) SCENE_GAMMA_INDEX_entry
    let gammaNext (u : State) : State :=
      if s.bit (SCENE_GAMMA_INDEX n) SCENE_GAMMA_INDEX_autoinc = true then
        (u.setFld (SCENE_GAMMA_INDEX n) SCENE_GAMMA_INDEX_channel ((ch * 1024 + e + 1) % 3072 / 1024)).setFld
          (SCENE_GAMMA_INDEX n) SCENE_GAMMA_INDEX_entry ((ch * 1024 + e + 1) % 3072 % 1024)
      else u
    let sees (u : State) (v : Nat) : State := { u with rd := ⟨v % 2 ^ 32, false, false⟩ }
    Does (.palDataAccess n none) s (sees (palNext s) (s.palEntry n i)) ∧
    Completes (.palDataAccess n (some w)) s (fun t =>
      t.palEntry n i = w.toNat ∧ (∀ k < 0x8000, k ≠ i → t.palEntry n k = s.palEntry n k) ∧
      t.reg (SCENE_PAL_INDEX n) = (palNext s).reg (SCENE_PAL_INDEX n) ∧ SameMem s t) ∧
    Does (.palDataAccess n (some w)) s (palAdvance (markPalette (pixelWrite s n (n * 0x8000 + i) w) n (i / 0x100)) n) ∧
    Does (.gammaDataAccess n none) s (sees (gammaNext s) (s.arrAt (gammaKey n ch e))) ∧
    Does (.gammaDataAccess n (some w)) s
      (markAll (gammaNext ((keepArr s n (gammaKey n ch e)).setArr (gammaKey n ch e) (getF w SCENE_GAMMA_DATA_value))) n) ∧
    (∀ k, s.coefSel n = some k →
      Does (.vidCoefDataAccess n none) s (sees (coefAdvance s n) (s.arrAt k + s.arrAt (k + 1) * 0x10000)) ∧
      Does (.vidCoefDataAccess n (some w)) s (markAll (coefAdvance (((keepArr (keepArr s n k) n (k + 1)).setArr k
        (getF w SCENE_VID_COEF_DATA_even)).setArr (k + 1) (getF w SCENE_VID_COEF_DATA_odd)) n) n)) ∧
    (s.coefSel n = none →
      Does (.vidCoefDataAccess n none) s (sees (coefAdvance s n) 0) ∧ Does (.vidCoefDataAccess n (some w)) s (markAll (coefAdvance s n) n))

/-- UPDATE_HOLD_WRITE, PALETTE_LOAD, PALETTE_LOAD_DONE and SPR_RELOAD_REQUEST (R88, R94, R98). -/
def Obligations.HeldWritesPaletteLoadAndReload : Prop :=
  ∀ (s : State) (n : Fin 4) (w : Word),
    let h := s.head n
    Does (.updateHoldWrite n true) s (s.setBit (SCENE_UPDATE n) SCENE_UPDATE_hold true) ∧
    Does (.updateHoldWrite n false) s (((s.setHead n { h with ready := h.ready ++ h.held, held := [] }).setBit
      (SCENE_UPDATE n) SCENE_UPDATE_hold false).setBit (SCENE_UPDATE n) SCENE_UPDATE_pending (!(h.ready ++ h.held).isEmpty)) ∧
    let loaded := s.writeCodes (SCENE_PAL_LOAD n) w
    let sprCtrl := setF (((h.held.reverse.find? (fun e => e.1 == SCENE_SPR_CTRL n)).map (·.2)).getD (s.reg (SCENE_SPR_CTRL n))) SCENE_SPR_CTRL_reload 1
    (h.palJob = none → bitOf w SCENE_PAL_LOAD_go = true →
      Does (.paletteLoad n w) s (loaded.setHead n { h with palJob := some (loaded.palStart n) })) ∧
    (h.palJob ≠ none ∨ bitOf w SCENE_PAL_LOAD_go = false → Does (.paletteLoad n w) s loaded) ∧
    (∀ j, h.palJob = some j → j.waits = false → s.blkOn 7 = true → Does (.paletteLoadDone n) s
      (let u := (palBeats s n j.left).setBit (SCENE_PAL_LOAD n) SCENE_PAL_LOAD_go false; u.setHead n { u.head n with palJob := none })) ∧
    (h.palJob = none ∨ (∃ j, h.palJob = some j ∧ j.waits = true) ∨ s.blkOn 7 = false → Does (.paletteLoadDone n) s s) ∧
    (s.bit (SCENE_UPDATE n) SCENE_UPDATE_hold = false → Does (.sprReloadRequest n) s (sceneApply s n (SCENE_SPR_CTRL n) sprCtrl)) ∧
    (s.bit (SCENE_UPDATE n) SCENE_UPDATE_hold = true →
      Does (.sprReloadRequest n) s (s.setHead n { h with held := h.held ++ [(SCENE_SPR_CTRL n, sprCtrl)] }))

/-- SPRITE_LINE_EVAL (R83 to R85). -/
def Obligations.SpriteEvaluationKeepsItsLimits : Prop :=
  ∀ (s : State) (n : Fin 4),
    let h := s.head n
    let next := h.line + 1
    let scan := s.sprAccept n next
    let due : Prop := s.lineOpen n = true ∧ s.wantsLine n next = true ∧ s.evaluated n next = false ∧ s.bit (SCENE_SPR_CTRL n) SCENE_SPR_CTRL_enable = true
    (due →
      scan.list.length ≤ 256 ∧ scan.pixels ≤ pixelBudget h.lineT ∧
      Completes (.spriteLineEval n) s (fun t =>
        t.lineSprites n next = scan.list ∧ t.evaluated n next = true ∧ (∀ l ≠ next, t.lineSprites n l = s.lineSprites n l) ∧ SameMem s t ∧
        scan.list.length % 512 ≤ t.fld (SCENE_SPR_PEAK n) SCENE_SPR_PEAK_max_count)) ∧
    (¬ due → Does (.spriteLineEval n) s s)

/-- FRAME_BOUNDARY, COMPOSE_LINE and LAST_LINE_COMPOSED (R90, R98, R101, R116, R152, R154). -/
def Obligations.FrameAndLineProgress : Prop :=
  ∀ (s : State) (n : Fin 4),
    let h := s.head n
    (s.boundaryOk n = true → Does (.frameBoundary n) s
      (let closed := pipeBoundary (spriteBoundary (videoFlip (applyReady (palLate (landPixelWrites (endFrame s n) n) n) n) n) n) n
       let counted := closed.setReg (HEAD_FRAME n) (closed.reg (HEAD_FRAME n) + 1)
       let begun := evalLine (beginFrame (takeFrameSet (admitFrame counted n) n) n) n 0
       restate (reachLine (blkBoundary (beamBoundary begun n) n) n 0) n)) ∧
    (s.boundaryOk n = false → Does (.frameBoundary n) s s) ∧
    (s.lineOpen n = false → Does (.composeLine n) s s) ∧
    let due : Prop := s.inSet n h.line = true ∧ s.unsent n h.line = true
    (s.lineOpen n = true → due → h.slots.length < 48 → Does (.composeLine n) s (openLine (composeInto s n h.line) n)) ∧
    (s.lineOpen n = true → due → 48 ≤ h.slots.length → Does (.composeLine n) s s) ∧
    let passes : Prop := s.useBit n (SCENE_SPR_CTRL n) SCENE_SPR_CTRL_coll_full = true ∨ s.beamPast n = true
    (s.lineOpen n = true → ¬ due → passes → Does (.composeLine n) s (openLine (passLine s n h.line) n)) ∧
    (s.lineOpen n = true → ¬ due → ¬ passes → Does (.composeLine n) s s) ∧
    (h.inFrame = true → s.height n ≤ h.line → Does (.lastLineComposed n) s (lastLine s n)) ∧
    (h.inFrame = false ∨ h.line < s.height n → Does (.lastLineComposed n) s s)

/-- PIPE_ASSIGN and VIDEO_BASE_WRITE (R136, R139). -/
def Obligations.PipesAndVideoBasesWaitForTheBoundary : Prop :=
  ∀ (s : State) (p : Fin 40) (n : Fin 4) (v : Fin 2) (w : Word),
    let r := SCENE_ASSIGN p
    let written := s.writeCodes r w
    let present := written.bit r SCENE_ASSIGN_present
    let park := written.bit r SCENE_ASSIGN_park
    let stays := present = true ∧ park = false ∧ written.fld r SCENE_ASSIGN_head = written.fld r SCENE_ASSIGN_cur_head ∧
      (p.val < 32 ∨ written.fld r SCENE_ASSIGN_slot = written.videoSlot p)
    let parked := present = false ∧ park = true
    (stays ∨ parked → Does (.pipeAssign p w) s (pipesNow (written.setBit r SCENE_ASSIGN_pending false))) ∧
    (¬ stays → ¬ parked → Does (.pipeAssign p w) s (pipesNow (written.setBit r SCENE_ASSIGN_pending true))) ∧
    (∀ u : State, (∀ q < 40, u.bit (SCENE_ASSIGN q) SCENE_ASSIGN_pending = false) → pipesNow u = u) ∧
    (∀ u : State, (∀ q < 40, u.pipeOff q SCENE_ASSIGN_cur_head = false ∧ u.pipeOff q SCENE_ASSIGN_head = false) → pipesNow u = u) ∧
    (∀ chroma : Bool, s.videoAccess n v = none → Does (.videoBaseWrite n v chroma w) s s) ∧
    (∀ (chroma : Bool) (q : Nat), s.videoAccess n v = some q →
      let base := videoHome (cond chroma SCENE_VID_C_BASE SCENE_VID_Y_BASE) q
      let u := ((markVideo s n v).writeCodes base w).setBit (videoHome SCENE_VID_CTRL q) SCENE_VID_CTRL_flip_pending true
      Does (.videoBaseWrite n v chroma w) s { u with vidHeld := smSet (fun _ => 0) u.vidHeld (2 * q + cond chroma 1 0) (u.reg base) })

/-- BEAM_END, BEAM_WAITL, BEAM_WAITX and the two releases (R104, R112, R116). -/
def Obligations.BeamWaitsReleaseAndStop : Prop :=
  ∀ (s : State) (n : Fin 4),
    let h := s.head n
    (∀ op : Fin 16, s.beamCmd n op = none → ∀ c, (op.val, c) ∈ [(0, Instr.beamEnd n), (1, .beamWaitl n), (2, .beamWaitx n), (3, .beamWr n), (4, .beamBwr n),
      (5, .beamSkip n), (6, .beamLoop n), (7, .beamSig n), (8, .beamTouch n)] → Does c s s) ∧
    (∀ w, s.beamCmd n 0 = some w → Does (.beamEnd n) s (beamStop (beamNext s n w 1) n)) ∧
    (∀ w, s.beamCmd n 1 = some w →
      let t := if w.getLsbD 12 = true then min 4095 (h.target + bitsN w.toNat 11 0) else bitsN w.toNat 11 0
      let after := (beamNext s n w 1).setHead n { (beamNext s n w 1).head n with target := t }
      (after.height n ≤ t → Does (.beamWaitl n) s (beamStop after n)) ∧
      (t < after.height n → t < h.line ∨ (t = h.line ∧ 64 ≤ h.cyc) → Does (.beamWaitl n) s (beamLook (beamLate after n) n)) ∧
      (t < after.height n → t = h.line → h.cyc < 64 → Does (.beamWaitl n) s (beamLook after n)) ∧
      (t < after.height n → h.line < t → Does (.beamWaitl n) s (after.setHead n { after.head n with wait := .line }))) ∧
    (h.wait = .line → h.target = h.line → Does (.beamWaitlRelease n) s (beamLook (s.setHead n { h with wait := .none, cyc := max h.cyc 1 }) n)) ∧
    (h.wait ≠ .line ∨ h.target ≠ h.line → Does (.beamWaitlRelease n) s s) ∧
    (∀ w, s.beamCmd n 2 = some w →
      let pair := (bitsN w.toNat 11 0 + 1) / 2
      let past : Prop := s.width n ≤ 2 * pair
      let goal := 64 + (if past then (s.width n + 1) / 2 else pair)
      let after := beamNext s n w 1
      let now := (after.head n).cyc
      (after.height n ≤ (after.head n).line → Does (.beamWaitx n) s (beamLook after n)) ∧
      ((after.head n).line < after.height n →
        (after.lineComposed n = false → Does (.beamWaitx n) s (beamLook (after.setHead n { after.head n with cyc := max now goal }) n)) ∧
        (after.lineComposed n = true →
          (now - 1 < goal → Does (.beamWaitx n) s (after.setHead n { after.head n with wait := .col goal })) ∧
          (goal < now - 1 → ¬ past → Does (.beamWaitx n) s (beamLook (beamLate after n) n)) ∧
          (goal ≤ now - 1 → past → Does (.beamWaitx n) s (beamLook (after.setHead n { after.head n with cyc := now }) n)) ∧
          (goal = now - 1 → ¬ past → Does (.beamWaitx n) s (beamLook (after.setHead n { after.head n with cyc := goal }) n))))) ∧
    (∀ goal, h.wait = .col goal → Does (.beamWaitxRelease n) s (beamLook (s.setHead n { h with wait := .none, cyc := max h.cyc goal }) n)) ∧
    ((∀ goal, h.wait ≠ .col goal) → Does (.beamWaitxRelease n) s s)

/-- BEAM_PREFETCH_FILL, BEAM_WR, BEAM_BWR, BEAM_SKIP, BEAM_LOOP, BEAM_SIG and BEAM_TOUCH (R102 to R111, R115, R118). -/
def Obligations.BeamWritesLandWhereTheirClassSays : Prop :=
  ∀ (s : State) (n : Fin 4) (w : Word),
    let h := s.head n
    (∀ (pal : Bool) (i cyc : Nat) (v : Word), pal = false → 1024 ≤ i ∨ beamClass (4 * i) = 0 →
      beamPut s n pal i cyc v = (s.setBit (SCENE_BEAM_STAT n) SCENE_BEAM_STAT_bad_write true).count (SCENE_BEAM_CNT n) SCENE_BEAM_CNT_refused) ∧
    (∀ (i cyc : Nat) (v : Word), beamPut s n true i cyc v = s.setHead n { h with pix := h.pix ++ [(beamColumn cyc, n * 0x8000 + i % 0x8000, v)] }) ∧
    (∀ waited : Nat,
      let a := h.pc + 4 * h.buf.length
      let r := sceneRead s n a (32 - a % 32)
      let room : Prop := h.buf.length ≤ 32 ∨ (h.refill = true ∧ h.buf.length ≤ 56)
      let buf (u : State) : List Word :=
        (u.head n).buf ++ (List.range ((32 - a % 32) / 4)).map (fun i => BitVec.ofNat 32 (leOf ((r.data.drop (4 * i)).take 4)))
      (s.beamRunning n = false ∨ s.blkOn 7 = false ∨ ¬ room ∨ h.beamEnd ≤ a → Does (.beamPrefetchFill n waited) s s) ∧
      (s.beamRunning n = true → s.blkOn 7 = true → room → a < h.beamEnd →
        ((r.err || r.poison) = true → Does (.beamPrefetchFill n waited) s (beamStop (r.s.setBit (SCENE_BEAM_STAT n) SCENE_BEAM_STAT_fetch_fault true) n)) ∧
        ((r.err || r.poison) = false → Does (.beamPrefetchFill n waited) s (beamLook (beamFeed (r.s.setHead n { r.s.head n with
          buf := buf r.s, refill := decide ((buf r.s).length ≤ 56),
          cyc := if ((r.s.head n).wait == .none) = true then (r.s.head n).cyc + waited else (r.s.head n).cyc }) n) n)))) ∧
    (∀ u : State, (u.head n).bwr = none → beamFeed u n = u) ∧
    (∀ (u : State) (b : BeamBwr), (u.head n).bwr = some b → b.left ≤ (u.head n).buf.length →
      let v := beamPutAll u n b.pal b.next (u.head n).cyc ((u.head n).buf.take b.left)
      beamFeed u n = v.setHead n { (v.head n).beamTake b.left with cyc := (v.head n).cyc + b.left, bwr := none }) ∧
    (s.beamCmd n 3 = some w →
      Does (.beamWr n) s (beamLook (beamNext (beamPut s n (w.getLsbD 27) (bitsN w.toNat 14 0) h.cyc (h.buf.getD 1 0)) n w 1) n)) ∧
    (s.beamCmd n 4 = some w →
      let count := bitsN w.toNat 25 18 + 1
      let dptr := (s.reg (SCENE_BEAM_DPTR n)).toNat
      let r := sceneRead s n dptr (4 * count)
      let moved (u : State) : State :=
        beamLook (beamNext (u.setReg (SCENE_BEAM_DPTR n) (u.reg (SCENE_BEAM_DPTR n) + BitVec.ofNat 32 (4 * count))) n w count) n
      (w.getLsbD 26 = false → Does (.beamBwr n) s
        (beamLook (beamFeed (s.setHead n { h.beamTake 1 with bwr := some ⟨count, w.getLsbD 27, bitsN w.toNat 14 0⟩ }) n) n)) ∧
      (w.getLsbD 26 = true → s.blkOn 7 = false → Does (.beamBwr n) s s) ∧
      (w.getLsbD 26 = true → s.blkOn 7 = true → (r.err || r.poison) = true → Does (.beamBwr n) s
        (moved (r.s.setBit (SCENE_BEAM_STAT n) SCENE_BEAM_STAT_fetch_fault true))) ∧
      (w.getLsbD 26 = true → s.blkOn 7 = true → (r.err || r.poison) = false → Does (.beamBwr n) s (moved (beamPutAll r.s n (w.getLsbD 27) (bitsN w.toNat 14 0) h.cyc
        ((List.range count).map (fun j => BitVec.ofNat 32 (leOf ((r.data.drop (4 * j)).take 4)))))))) ∧
    (s.beamCmd n 5 = some w →
      let k := bitsN w.toNat 23 16
      let after := beamNext s n w 1
      (s.beamCond n w = none ∨ k = 0 → Does (.beamSkip n) s (beamBad s n)) ∧
      (∀ c : Bool, s.beamCond n w = some c → k ≠ 0 → Does (.beamSkip n) s (beamLook (after.setHead n { after.head n with skip := if c = true then k else 0 }) n))) ∧
    (s.beamCmd n 6 = some w →
      let c := bitsN w.toNat 27 26
      let full := bitsN w.toNat 25 14
      let back := bitsN w.toNat 13 0
      let left := (if h.cnt.getD c 0 = 0 then full else h.cnt.getD c 0) - 1
      let after := beamNext s n w 1
      (back = 0 ∨ full = 0 ∨ h.pc < h.beamBase + 4 * back → Does (.beamLoop n) s (beamBad s n)) ∧
      (back ≠ 0 → full ≠ 0 → h.beamBase + 4 * back ≤ h.pc →
        (left = 0 → Does (.beamLoop n) s (beamLook (after.setHead n { after.head n with cnt := h.cnt.set c 0 }) n)) ∧
        (left ≠ 0 → Does (.beamLoop n) s
          (beamLook (s.setHead n { h with cnt := h.cnt.set c left, pc := h.pc - 4 * back, buf := [], refill := false, cyc := h.cyc + 1 }) n)))) ∧
    (s.beamCmd n 7 = some w →
      let sig := bitsN w.toNat 2 0
      let after := beamNext s n w 1
      let set := after.setFld (SCENE_BEAM_SIG n) SCENE_BEAM_SIG_sig (after.fld (SCENE_BEAM_SIG n) SCENE_BEAM_SIG_sig ||| 2 ^ sig)
      Does (.beamSig n) s (beamLook (if sig < 4 then fireTrigger set (1 + 4 * n + sig) else set) n)) ∧
    (s.beamCmd n 8 = some w →
      let after := beamNext s n w 1
      (after.cmdMode n = true → Does (.beamTouch n) s
        (beamLook (markBands after n (bitsN w.toNat 7 0 + (if w.getLsbD 16 = true then h.line / 16 else 0)) (bitsN w.toNat 15 8 + 1)) n)) ∧
      (after.cmdMode n = false → Does (.beamTouch n) s (beamLook after n)))

/-- TE_SAMPLE, TE_MISSING, BTA_TE_REQUEST and BTA_TIMEOUT (R145 to R147). -/
def Obligations.TearingEffectSeedsTracksAndLosesTheModel : Prop :=
  ∀ (s : State) (n : Fin 4),
    let h := s.head n
    let src := s.fld (HEAD_CTRL n) HEAD_CTRL_te_src
    let on : Prop := s.blkOn (blkHead n) = true ∧ s.cmdMode n = true
    let handed : Prop := h.bta.isSome = true ∨ s.bit (HEAD_STAT n) HEAD_STAT_bta_stuck = true
    let m := HEAD_BEAM n
    let back := (s.setHead n { h with bta := none }).setBit (HEAD_STAT n) HEAD_STAT_bta_stuck false
    (∀ falling : Bool,
      let taken : Prop := on ∧ src = 0 ∧ falling = s.bit (HEAD_TE n) HEAD_TE_falling
      (taken → Does (.teSample ⟨n, .edge falling⟩) s (restate (teSample s n s.tb) n)) ∧ (¬ taken → Does (.teSample ⟨n, .edge falling⟩) s s)) ∧
    (handed → on ∧ src = 1 → Does (.teSample ⟨n, .trigger⟩) s (restate (teSample back n (s.tb - s.fld (HEAD_TE n) HEAD_TE_comp / 4)) n)) ∧
    (handed → ¬ (on ∧ src = 1) → Does (.teSample ⟨n, .trigger⟩) s back) ∧
    (¬ handed → Does (.teSample ⟨n, .trigger⟩) s s) ∧
    (∀ t : Nat,
      let u := s.setHead n { h with teSkip := false }
      let g := u.head n
      let i : Int := (t : Int) - (g.tLast.getD t : Nat)
      let p : Int := u.period n
      let counted := u.count (HEAD_CNT n) HEAD_CNT_te_reject
      (u.bit m HEAD_BEAM_seeded = false →
        (g.tLast.isSome = true → 500000 ≤ i → i ≤ 25000000 → teSample s n t =
          (((u.setFld m HEAD_BEAM_period i.toNat).setBit m HEAD_BEAM_seeded true).setBit m HEAD_BEAM_lost false).setHead n
            { g with tTE := t, missed := 0, tLast := some t }) ∧
        (g.tLast = none ∨ i < 500000 ∨ 25000000 < i → teSample s n t = u.setHead n { g with missed := 0, tLast := some t })) ∧
      (u.bit m HEAD_BEAM_seeded = true → (i - p).natAbs ≤ p.toNat / 16 →
        let e := (t : Int) - ((g.tTE : Int) + p)
        let told := u.setFld (HEAD_BEAM_ERR n) HEAD_BEAM_ERR_err (sat16 e)
        let torn : Prop := told.bit m HEAD_BEAM_locked = true ∧
          told.fld (HEAD_RACE n) HEAD_RACE_margin * p.toNat < e.natAbs * 2 * u.fld (HEAD_VTOTAL n) HEAD_VTOTAL_vtotal
        let tracked (v : State) : State :=
          let locks := decide (4 ≤ (v.head n).accepted + 1)
          ((v.setFld m HEAD_BEAM_period (p + (i - p).tdiv (2 ^ v.fld (HEAD_RACE n) HEAD_RACE_gain : Nat)).toNat).setBit m HEAD_BEAM_locked
            (v.bit m HEAD_BEAM_locked || locks)).setHead n { v.head n with
              tTE := t, rejects := 0, accepted := (v.head n).accepted + 1, missed := 0, tLast := some t,
              firstLock := (v.head n).firstLock || (locks && !v.bit m HEAD_BEAM_locked) }
        (torn → teSample s n t = tracked (raceSuspect told n)) ∧ (¬ torn → teSample s n t = tracked told)) ∧
      (u.bit m HEAD_BEAM_seeded = true → p.toNat / 16 < (i - p).natAbs →
        (g.rejects ≠ 3 → teSample s n t = counted.setHead n { g with rejects := g.rejects + 1, missed := 0, tLast := some t }) ∧
        (g.rejects = 3 → teSample s n t = ((counted.setFld m HEAD_BEAM_period i.toNat).setBit m HEAD_BEAM_locked false).setHead n
          { g with tTE := t, accepted := 0, rejects := 0, missed := 0, tLast := some t }))) ∧
    (s.bit m HEAD_BEAM_seeded = false → Does (.teMissing n) s s) ∧
    (s.bit m HEAD_BEAM_seeded = true → h.teSkip = true → Does (.teMissing n) s
      (s.setHead n { h with tTE := h.tTE + s.period n, tLast := some (h.tTE + s.period n), teSkip := false })) ∧
    (s.bit m HEAD_BEAM_seeded = true → h.teSkip = false →
      let t := h.tTE + s.period n
      let counted := (s.setBit (HEAD_STAT n) HEAD_STAT_te_missing true).count (HEAD_CNT n) HEAD_CNT_te_miss
      let back := frameOver counted n
      (h.missed < 15 → Does (.teMissing n) s (counted.setHead n { h with tTE := t, tLast := some t, missed := h.missed + 1 })) ∧
      (15 ≤ h.missed → Does (.teMissing n) s (restate ((((back.setBit m HEAD_BEAM_lost true).setBit m HEAD_BEAM_locked false).setBit m
        HEAD_BEAM_seeded false).setHead n { back.head n with tTE := t, tLast := some t, missed := 16, pushOk := false }) n))) ∧
    (∀ due : Bool,
      let asks : Prop := on ∧ src = 1 ∧ ¬ handed
      let seeded : Prop := s.bit m HEAD_BEAM_seeded = true
      let may : Prop := s.lanesFree n = true ∧ (seeded → due = false)
      (asks → may → Does (.btaTeRequest n due) s (s.setHead n { h with bta := some s.tb, out := [.turnaround] })) ∧
      (asks → ¬ may → seeded → Does (.btaTeRequest n due) s (s.setHead n { h with teSkip := true })) ∧
      (asks → ¬ may → ¬ seeded → Does (.btaTeRequest n due) s s) ∧
      (¬ asks → Does (.btaTeRequest n due) s s)) ∧
    (s.blkOn (blkHead n) = true → h.bta.isSome = true → Does (.btaTimeout n) s (s.setBit (HEAD_STAT n) HEAD_STAT_bta_stuck true)) ∧
    (s.blkOn (blkHead n) = false ∨ h.bta = none → Does (.btaTimeout n) s s)

/-- LINE_PACKET_START, LINE_PACKET_END, VIDEO_LINE_START, FLIP_RECORD_READ and DESKEW_DONE (R141, R144, R150, R154, R157, R159, R160). -/
def Obligations.LinePacketsLeaveInOrderAndFreeTheirSlots : Prop :=
  ∀ (s : State) (n : Fin 4) (k : Nat),
    let h := s.head n
    (s.cmdMode n = true → s.lanesFree n = true → ∀ y, s.nextLine n h.sendNext = some y →
      h.sendNext ≤ y ∧ y < s.height n ∧ s.inSet n y = true ∧ Does (.linePacketStart n k) s (sendLine s n (s.frame n) y k)) ∧
    (s.cmdMode n = false ∨ s.lanesFree n = false ∨ s.nextLine n h.sendNext = none → Does (.linePacketStart n k) s s) ∧
    (∀ (f y : Nat) (l : StoreLine), h.slots.find? (fun l => l.frame == f && l.line == y) = some l → sendLine s n f y k = s.setHead n { h with
      pkt := some ⟨f, y, s.tb, true⟩, lastStart := some s.tb, sendFrame := f, sendNext := y + 1, pushed := h.pushed ||| 2 ^ (y / 16),
      rows := if s.witOn n = true then h.rows ++ [⟨f, y, crc32c l.bytes, false, false, false⟩] else h.rows, out := s.lineItems n y l.bytes }) ∧
    (s.cmdMode n = true → ∀ (y : Nat) (bytes : List Byte),
      let opens : Prop := y = 0 ∨ s.inSet n (y - 1) = false
      (opens → s.lineItems n y bytes = [.dcs (.setPageAddress y (s.runEnds n y)), .line true (longPacket 0x39 (0x2C :: bytes)), .lp11]) ∧
      (¬ opens → s.lineItems n y bytes = [.line true (longPacket 0x39 (0x3C :: bytes)), .lp11])) ∧
    (s.cmdMode n = true ∨ s.blkOn (blkHead n) = false ∨ s.geomOk n = false ∨ h.starting = true → Does (.videoLineStart n k) s s) ∧
    (s.cmdMode n = false → s.blkOn (blkHead n) = true → s.geomOk n = true → h.starting = false →
      let b := frameBoundary s n
      let v := (b.head n).vline
      let u := b.setHead n { b.head n with vline := (v + 1) % max 1 (b.vTotal n), vbound := false }
      let active : Prop := u.videoTop n ≤ v ∧ v < u.videoTop n + u.height n
      let free : Prop := (u.head n).inFrame = true ∧ u.lanesFree n = true
      (active → free → v = u.videoTop n → Does (.videoLineStart n k) s (sendLine u n (u.frame n) 0 k)) ∧
      (active → free → v ≠ u.videoTop n → Does (.videoLineStart n k) s (sendLine u n (u.head n).sendFrame (v - u.videoTop n) k)) ∧
      (active → ¬ free → Does (.videoLineStart n k) s u) ∧
      (¬ active → u.bit (HEAD_CTRL n) HEAD_CTRL_lp_blank = false → Does (.videoLineStart n k) s (putLanes u n [.sync])) ∧
      (¬ active → u.bit (HEAD_CTRL n) HEAD_CTRL_lp_blank = true → Does (.videoLineStart n k) s (putLanes u n [.sync, .lp11]))) ∧
    (h.pkt = none → Does (.linePacketEnd n) s s) ∧
    (∀ p : Packet, h.pkt = some p →
      let cut := s.setHead n { h with
        pkt := none, slots := h.slots.filter (fun l => !(l.frame == p.frame && l.line == p.line)), lastRow := some (p.frame, p.line, s.tb) }
      let freed := if s.blkOn (blkHead n) = true then cut else putLanes cut n [.lp11]
      (freed.frameSent n p.frame = false → Does (.linePacketEnd n) s (restate freed n)) ∧
      (freed.frameSent n p.frame = true → Does (.linePacketEnd n) s (restate (commitFlip freed n) n) ∧
        ((commitFlip freed n).flip n).frame = p.frame ∧ ((commitFlip freed n).flip n).sent = s.tb)) ∧
    (let r := s.flip n
     Completes (.flipRecordRead n) s (fun t =>
      t.rd = ⟨r.sent % 2 ^ 32, false, false⟩ ∧ t.reg (HEAD_SENT_LO n) = BitVec.ofNat 32 r.sent ∧ t.reg (HEAD_SENT_HI n) = BitVec.ofNat 32 (r.sent / 2 ^ 32) ∧
      t.reg (HEAD_SEEN_LO n) = BitVec.ofNat 32 r.seen ∧ t.reg (HEAD_SEEN_HI n) = BitVec.ofNat 32 (r.seen / 2 ^ 32) ∧
      t.reg (HEAD_FLIP_FRAME n) = BitVec.ofNat 32 r.frame ∧ SameMem s t ∧
      RegsBut [HEAD_SENT_LO n, HEAD_SENT_HI n, HEAD_SEEN_LO n, HEAD_SEEN_HI n, HEAD_FLIP_FRAME n] s t)) ∧
    (let starts : Prop := s.blkOn (blkHead n) = true ∧ h.starting = true
     let ready := s.setHead n { h with deskewed := true }
     (starts → s.geomOk n = true → Does (.deskewDone n) s
       (restate (ready.setHead n { ready.head n with starting := false, fbTime := s.tb, out := ready.startCommands n }) n)) ∧
     (starts → s.geomOk n = false → Does (.deskewDone n) s ready) ∧ (¬ starts → Does (.deskewDone n) s s))

/-- HEAD_PACKET_SEND, HEAD_PACKET_DONE, HEAD_MARK_WRITE, HEAD_CTRL_WRITE, WITNESS_CTRL_WRITE, WITNESS_LOG_CONFIG_WRITE, ROW_CHECK_DONE and
DIGEST_COMPLETE (R143, R152, R161, R164 to R175). Whether a log block is being written when the log is configured is a free value (assumption 84). -/
def Obligations.HeadPacketsMarksAndWitness : Prop :=
  ∀ (s : State) (n : Fin 4) (w : Word),
    let h := s.head n
    Does (.headPacketSend n w) s (s.writeCodes (HEAD_PKT_CTRL n) (setF w HEAD_PKT_CTRL_go 1)) ∧
    (∀ (resp : List Byte) (err : Bool),
      let c := HEAD_PKT_CTRL n
      let due : Prop := s.bit c HEAD_PKT_CTRL_go = true ∧ s.lanesFree n = true ∧ (s.cmdMode n = true ∨ s.videoBlank n = true)
      let payload := ((List.range 4).flatMap (fun k => leBytes 4 (s.reg (HEAD_PKT_DATA n k)).toNat)).take (s.fld c HEAD_PKT_CTRL_wc)
      let bytes := if dsiLong (s.fld c HEAD_PKT_CTRL_dtype) = true then longPacket (s.fld c HEAD_PKT_CTRL_dtype) payload
        else shortPacket (s.fld c HEAD_PKT_CTRL_dtype) (s.fld c HEAD_PKT_CTRL_wc)
      let turn : List LaneItem := if s.bit c HEAD_PKT_CTRL_bta = true then [.turnaround] else []
      let sent := putLanes s n (.packet (s.bit c HEAD_PKT_CTRL_lp) bytes :: turn ++ [.lp11])
      let kept := if s.bit c HEAD_PKT_CTRL_bta = true then resp.take 16 else []
      let stored := (storeResponse sent n kept).setFld c HEAD_PKT_CTRL_resp_len kept.length
      kept.length ≤ 16 ∧
      (due → err = false → Does (.headPacketDone n resp err) s (stored.setBit c HEAD_PKT_CTRL_go false)) ∧
      (due → err = true → Does (.headPacketDone n resp err) s ((stored.setBit c HEAD_PKT_CTRL_err true).setBit c HEAD_PKT_CTRL_go false)) ∧
      (¬ due → Does (.headPacketDone n resp err) s s)) ∧
    (bitOf w HEAD_MARK_all = true → Does (.headMarkWrite n w) s (markAll s n)) ∧
    (bitOf w HEAD_MARK_all = false → Does (.headMarkWrite n w) s (markBands s n (getF w HEAD_MARK_first) (getF w HEAD_MARK_count + 1))) ∧
    (let written := (s.writeCodes (HEAD_CTRL n) w).setBit (HEAD_STAT n) HEAD_STAT_held false
     Does (.headCtrlWrite n w) s (written.setHead n { written.head n with resetLow := written.bit (HEAD_CTRL n) HEAD_CTRL_panel_reset })) ∧
    (let written := s.writeCodes (HEAD_WIT_CTRL n) w
     (s.witOn n = false → written.witOn n = true → Does (.witnessCtrlWrite n w) s (noteWitness (invalidateRows written n) n)) ∧
     (s.witOn n = true ∨ written.witOn n = false → Does (.witnessCtrlWrite n w) s written)) ∧
    (∀ size : Bool,
      let r := cond size (HEAD_WIT_LOG_SIZE n) (HEAD_WIT_LOG_BASE n)
      let emptied := ((s.writeCodes r w).setReg (HEAD_WIT_LOG_WR n) 0).setReg (HEAD_WIT_LOG_RD n) 0
      let drawn := emptied.draw
      (emptied.bit (HEAD_WIT_CTRL n) HEAD_WIT_CTRL_log_en = false ∨ (emptied.head n).jobs = [] → Does (.witnessLogConfigWrite n size w) s emptied) ∧
      (emptied.bit (HEAD_WIT_CTRL n) HEAD_WIT_CTRL_log_en = true → (emptied.head n).jobs ≠ [] → Does (.witnessLogConfigWrite n size w) s
        (if drawn.1.getLsbD 0 = true then abandonLog drawn.2 n else drawn.2))) ∧
    (∀ (dtype : Nat) (payload : List Byte), payload.length < 2 ^ 16 → decodeLong (longPacket dtype payload) = some payload) ∧
    (∀ burst : List Byte,
      (h.rowToCheck = none → Does (.rowCheckDone n burst) s s) ∧
      (∀ row : SentRow, h.rowToCheck = some row →
        let pixels (payload : List Byte) := if s.cmdMode n = true then payload.drop 1 else payload
        let pass := (decodeLong burst).any (fun payload => crc32c (pixels payload) == row.crc)
        let noted := s.setHead n { h with
          rows := h.rows.map (fun r => if r == row then { r with checked := true, failed := !pass } else r),
          rowValid := smSet (fun _ => false) h.rowValid row.row pass }
        let done := if pass = true then noted.setReg (HEAD_WIT_ROW n row.row) (BitVec.ofNat 32 row.crc)
          else ((markBand noted n (row.row / 16)).count (HEAD_WIT_CNT n) HEAD_WIT_CNT_mismatch).setBit (HEAD_WIT_STAT n) HEAD_WIT_STAT_mismatch true
        let gone : Prop := done.frameSent n row.frame = true ∧ (done.head n).rowsChecked row.frame = true
        (gone → Does (.rowCheckDone n burst) s (frameWitnessed done n row.frame)) ∧
        (¬ gone → Does (.rowCheckDone n burst) s done))) ∧
    (h.jobs = [] → Does (.digestComplete n) s s) ∧
    (∀ (j : DigestJob) (rest : List DigestJob), h.jobs = j :: rest →
      let taken := s.setHead n { h with jobs := rest }
      let q := (taken.reg (HEAD_WIT_SEQ n)).toNat + 1
      let tc := max taken.tb j.seen
      let block := logBlock (ringEntry taken n j q tc false) j.rows
      let entered (u : State) (gap : Bool) : State := (storeRing u n q (ringEntry u n j q tc gap)).setReg (HEAD_WIT_SEQ n) (BitVec.ofNat 32 q)
      let lost (u : State) : State := (u.setBit (HEAD_WIT_STAT n) HEAD_WIT_STAT_log_lost true).count (HEAD_WIT_CNT n) HEAD_WIT_CNT_log_lost
      let kept : Prop := taken.logRoom n block.length = true ∧ j.gap = false
      let log := writeLog taken n block
      (taken.bit (HEAD_WIT_CTRL n) HEAD_WIT_CTRL_log_en = false → Does (.digestComplete n) s (entered taken false)) ∧
      (taken.bit (HEAD_WIT_CTRL n) HEAD_WIT_CTRL_log_en = true →
        (kept → log.2 = false → Does (.digestComplete n) s (entered log.1 false)) ∧
        (kept → log.2 = true → Does (.digestComplete n) s (entered (lost log.1) true)) ∧
        (¬ kept → Does (.digestComplete n) s (entered (lost taken) true))))

/-- BLIT_GO, BLIT_ABORT, BLK_END, BLK_COPY, BLK_FILL, BLK_BLEND, BLK_CONVERT, BLK_EXPAND, BLK_WAIT, BLK_WAITLINE, BLK_WAIT_RELEASE, BLK_SIG and
BLK_BURST (R177 to R185). -/
def Obligations.BlockEngineTakesItsCommandInOrder : Prop :=
  ∀ s : State,
    let idle : Prop := s.blkRunning = false ∨ s.blk.wait ≠ .none
    let act : Prop := s.blkRunning = true ∧ s.blk.wait = .none
    let t := (blkFetch s).1
    let ok := (blkFetch s).2.1
    let w := (blkFetch s).2.2
    let op := cmdOp w
    let rows : List ((Nat → Bool) × Instr) := [(fun o => o == 0 || 9 ≤ o, .blkEnd), (fun o => o == 1, .blkCopy), (fun o => o == 2, .blkFill), (fun o => o == 3, .blkBlend),
      (fun o => o == 4, .blkConvert), (fun o => o == 5, .blkExpand), (fun o => o == 6, .blkWait), (fun o => o == 7, .blkWaitline), (fun o => o == 8, .blkSig), (fun o => o == 2 || opReads o, .blkBurst)]
    let dst := blkSurf t (cmdDst w)
    let src := if opReads op = true then blkSurf dst.s (cmdSrc w) else dst
    let S := surfOf src.val
    let D := surfOf dst.val
    let draws : List (Nat × Nat × Instr) := [(1, allSpans, .blkCopy), (2, allSpans, .blkFill), (3, allSpans, .blkBlend), (4, allSpans, .blkConvert),
      (5, allSpans, .blkExpand)] ++ [1, 2, 3, 4, 5].map (fun o => (o, 1, .blkBurst))
    (∀ r ∈ rows, idle → Does r.2 s s) ∧
    (∀ r ∈ rows, act → ok = false → Does r.2 s (blkFail t)) ∧
    (∀ r ∈ rows, act → ok = true → r.1 op = false → Does r.2 s s) ∧
    (act → ok = true → op = 0 → Does .blkEnd s (fireTrigger ((blkStop (t.count BLK_CNT BLK_CNT_commands)).setBit BLK_STAT BLK_STAT_done true) 21)) ∧
    (act → ok = true → 9 ≤ op →
      Does .blkEnd s (fireTrigger ((blkStop ((blkErr t 1).count BLK_CNT BLK_CNT_rejected)).setBit BLK_STAT BLK_STAT_done true) 21)) ∧
    (∀ d ∈ draws, act → ok = true → op = d.1 →
      (dst.ok = false → Does d.2.2 s (blkFail dst.s)) ∧
      (dst.ok = true → src.ok = false → Does d.2.2 s (blkFail src.s)) ∧
      (dst.ok = true → src.ok = true →
        (∀ j, src.s.blk.job = some j → Does d.2.2 s (moveSpans src.s w S D d.2.1 j.tail j.spans)) ∧
        (src.s.blk.job = none → cmdCheck w S D = 0 → Does d.2.2 s (moveSpans src.s w S D d.2.1 none (cmdSpans w S D))) ∧
        (src.s.blk.job = none → cmdCheck w S D ≠ 0 → Does d.2.2 s (blkReject src.s (cmdCheck w S D))))) ∧
    (act → ok = true → op = 6 → Does .blkWait s { t with blk := { t.blk with wait := .trig (cmdSrc w) } }) ∧
    (act → ok = true → op = 7 →
      let n := bitsN (w.getD 0 0) 27 26
      let l := min (bitsN (w.getD 0 0) 11 0) (t.height n)
      (t.blkState (blkHead n) = 0 → Does .blkWaitline s (blkDone (t.setBit BLK_STAT BLK_STAT_wait_off true))) ∧
      (t.blkState (blkHead n) ≠ 0 → (w.getD 0 0).testBit 25 = true → Does .blkWaitline s { t with blk := { t.blk with wait := .boundary n l } }) ∧
      (t.blkState (blkHead n) ≠ 0 → (w.getD 0 0).testBit 25 = false →
        let reached : Prop := (t.head n).inFrame = true ∧ l ≤ (t.head n).line
        (reached → Does .blkWaitline s (blkDone t)) ∧ (¬ reached → Does .blkWaitline s { t with blk := { t.blk with wait := .line n l } }))) ∧
    (act → ok = true → op = 8 →
      Does .blkSig s (blkDone (t.setFld BLK_STAT BLK_STAT_sig (t.fld BLK_STAT BLK_STAT_sig ||| 2 ^ bitsN (w.getD 0 0) 2 0)))) ∧
    (s.blkRunning = true → s.blk.wait = .hit → Does .blkWaitRelease s (blkDone s)) ∧
    (∀ n l, s.blkRunning = true → s.blk.wait = .line n l → s.blkState (blkHead n) ≠ 0 → (s.head n).inFrame = true → l ≤ (s.head n).line →
      Does .blkWaitRelease s (blkDone s)) ∧
    (∀ n l, s.blkRunning = true → s.blk.wait = .line n l ∨ s.blk.wait = .boundary n l → s.blkState (blkHead n) = 0 →
      Does .blkWaitRelease s (blkDone (s.setBit BLK_STAT BLK_STAT_wait_off true))) ∧
    (s.blkRunning = false ∨ s.blkReleased = false → Does .blkWaitRelease s s) ∧
    (s.bit BLK_STAT BLK_STAT_running = false → s.blkOn 8 = true →
      Does .blitGo s { s.setBit BLK_STAT BLK_STAT_running true with blk := ⟨(s.reg BLK_LIST).toNat, 0, none, .none⟩ }) ∧
    (s.bit BLK_STAT BLK_STAT_running = true ∨ s.blkOn 8 = false → Does .blitGo s s) ∧
    (s.bit BLK_STAT BLK_STAT_running = true → Does .blitAbort s (blkStop s)) ∧ (s.bit BLK_STAT BLK_STAT_running = false → Does .blitAbort s s)

/-- DMA_GO, DMA_ABORT, DMA_PAUSE, DMA_RESUME, DMA_TRIG_SW, DMA_TRIGGER, DMA_DESC_LOAD, DMA_BURST, DMA_BURST_DONE and DMA_DESC_END (R186 to R193). What an
occurrence does at a channel that holds no descriptor is deduced (assumption 78). -/
def Obligations.DmaChannelsLoadMoveAndEnd : Prop :=
  ∀ (s : State) (k : Fin 16) (seen : List Nat),
    let c := s.dmaCh k
    let st := s.dmaState k
    let r := DMA_CH_STAT k
    let started (state : Nat) : State := ((setDmaState s k state).setFld r DMA_CH_STAT_err 0).setReg (DMA_CH_POS k) 0
    let first (u : State) : DmaCh := { DmaCh.init with desc := u.fld (DMA_CH_DESC k) DMA_CH_DESC_addr }
    (st = 0 → s.blkOn 13 = true → Does (.dmaGo k) s
      (let u := started (if s.bit (DMA_CH_CTRL k) DMA_CH_CTRL_pause = true then 3 else 1); u.setDma k (first u))) ∧
    (st ≠ 0 ∨ s.blkOn 13 = false → Does (.dmaGo k) s s) ∧
    (st = 0 → Does (.dmaAbort k) s s) ∧
    (st ≠ 0 → c.burst.isSome = true → Does (.dmaAbort k) s (s.setDma k { c with abort := true })) ∧
    (st ≠ 0 → c.burst = none → Does (.dmaAbort k) s ((dmaIdle s k).setBit r DMA_CH_STAT_aborted true)) ∧
    (let paused := s.setBit (DMA_CH_CTRL k) DMA_CH_CTRL_pause true
     (paused.dmaState k = 0 ∨ (paused.dmaCh k).burst.isSome = true → Does (.dmaPause k) s paused) ∧
     (paused.dmaState k ≠ 0 → (paused.dmaCh k).burst = none → Does (.dmaPause k) s (setDmaState paused k 3))) ∧
    (let on := s.setBit (DMA_CH_CTRL k) DMA_CH_CTRL_pause false
     (on.dmaState k ≠ 3 → Does (.dmaResume k) s on) ∧
     (on.dmaState k = 3 → (on.dmaCh k).phase ≠ .lineStart → Does (.dmaResume k) s (setDmaState on k 1)) ∧
     (on.dmaState k = 3 → (on.dmaCh k).phase = .lineStart → Does (.dmaResume k) s (dmaAwait (setDmaState on k 1) k))) ∧
    Does (.dmaTrigSw k) s (dmaOccurrence s k 63) ∧
    (∀ t : Nat,
      let takes : Prop := c.words ≠ [] ∧ c.trigMode ≠ 0
      let hears : Prop := (¬ takes ∧ t = 63) ∨ (takes ∧ c.trig = t)
      (¬ hears → dmaOccurrence s k t = s) ∧
      (hears →
        (st = 2 → dmaOccurrence s k t = (setDmaState s k 1).setDma k { c with phase := .move }) ∧
        (st ≠ 2 → s.bit r DMA_CH_STAT_trig_pend = false → dmaOccurrence s k t = s.setBit r DMA_CH_STAT_trig_pend true) ∧
        (st ≠ 2 → s.bit r DMA_CH_STAT_trig_pend = true → dmaOccurrence s k t = s.setBit r DMA_CH_STAT_trig_ovr true))) ∧
    (∀ t : Fin 64,
      (1 ≤ t.val → t.val ≤ 41 → Does (.dmaTrigger t) s ((List.range 16).foldl (fun s k => dmaOccurrence s k t)
        (if s.blk.wait = .trig t then { s with blk := { s.blk with wait := .hit } } else s))) ∧
      (t.val = 0 ∨ 41 < t.val → Does (.dmaTrigger t) s s)) ∧
    (st ≠ 1 ∨ c.phase ≠ .load ∨ s.blkOn 13 = false → Does (.dmaDescLoad k seen) s s) ∧
    (st = 1 → c.phase = .load → s.blkOn 13 = true →
      let g := busRead s iniDma (c.desc * 32) 32 seen
      let d : DmaCh := { g.s.dmaCh k with
        words := (List.range 8).map (fun i => leOf ((g.data.drop (4 * i)).take 4)), waited := 0, burst := none, carry := [] }
      let noted := if d.overlap = true then g.s.setBit r DMA_CH_STAT_overlap true else g.s
      let ready := (noted.setReg (DMA_CH_POS k) 0).setDma k { d with phase := .move, undef := d.overlap }
      ((g.err || g.poison) = true → Does (.dmaDescLoad k seen) s (dmaError g.s k 5)) ∧
      ((g.err || g.poison) = false → d.bad = true → Does (.dmaDescLoad k seen) s (dmaError g.s k 4)) ∧
      ((g.err || g.poison) = false → d.bad = false → d.trigMode = 0 → Does (.dmaDescLoad k seen) s ready) ∧
      ((g.err || g.poison) = false → d.bad = false → d.trigMode ≠ 0 → Does (.dmaDescLoad k seen) s (dmaAwait ready k))) ∧
    (∀ j, s.dmaSize j ≤ 256 ∧ ((s.dmaCh j).dstFix = false →
      let into := dmaAddr (s.dmaCh j).dst (s.dmaCh j).dstStride (s.fld (DMA_CH_POS j) DMA_CH_POS_line) (s.fld (DMA_CH_POS j) DMA_CH_POS_byte) false
      into % 256 + s.dmaSize j ≤ 256)) ∧
    (∀ j, s.dmaNext = some j → s.dmaReady j = true) ∧
    (s.blkOn 13 = false ∨ s.dmaNext = none → Does .dmaBurst s s) ∧
    (∀ j, s.blkOn 13 = true → s.dmaNext = some j →
      let waited := ((List.range 16).filter s.dmaReady).foldl (fun s j => s.setDma j { s.dmaCh j with waited := (s.dmaCh j).waited + 1 }) s
      let issued := waited.setDma j { waited.dmaCh j with
        burst := some (waited.dmaSize j), waited := 0, opened := waited.passes (waited.dmaFrom j), via := (waited.target (waited.dmaFrom j)).block }
      Does .dmaBurst s { issued with dmaLast := smSet (fun _ => 15) issued.dmaLast (issued.dmaPrio j) j }) ∧
    (c.burst = none → Does (.dmaBurstDone k seen) s s) ∧
    (∀ n, c.burst = some n →
      let line := s.fld (DMA_CH_POS k) DMA_CH_POS_line
      let byte := s.fld (DMA_CH_POS k) DMA_CH_POS_byte
      let a := dmaAddr c.src c.srcStride line byte c.srcFix
      let into := dmaAddr c.dst c.dstStride line byte c.dstFix
      let fixed := readFixed s c.opened a ((n - c.carry.length + 3) / 4)
      let g : Access := if c.srcFix = true then { fixed with data := (c.carry ++ fixed.data).take n } else busFinish s c.opened iniDma a n seen
      let left := if c.srcFix = true then (c.carry ++ fixed.data).drop n else []
      let m := dmaMix c g.s into g.data
      let p := if c.dstFix = true then writeFixed m.1 into (n / 4) m.2 else busWrite m.1 iniDma into m.2 []
      (g.err = true → Does (.dmaBurstDone k seen) s (dmaError g.s k 1)) ∧
      (g.err = false → g.poison = true → Does (.dmaBurstDone k seen) s (dmaError g.s k 3)) ∧
      (g.err = false → g.poison = false → p.err = true → Does (.dmaBurstDone k seen) s (dmaError p.s k 2)) ∧
      (g.err = false → g.poison = false → p.err = false →
        Does (.dmaBurstDone k seen) s (dmaAfter (p.s.setDma k { p.s.dmaCh k with burst := none, carry := left }) k line (byte + n)))) ∧
    ((st ≠ 1 ∧ st ≠ 3) ∨ c.phase ≠ .ended → Does (.dmaDescEnd k) s s) ∧
    (st = 1 ∨ st = 3 → c.phase = .ended →
      let told := if c.w 5 3 3 = 1 then s.setFld DMA_INT_STAT DMA_INT_STAT_done (s.fld DMA_INT_STAT DMA_INT_STAT_done ||| 2 ^ k.val) else s
      (c.w 5 4 4 = 1 → Does (.dmaDescEnd k) s (told.setDma k { DmaCh.init with desc := c.w 5 31 5, words := c.words })) ∧
      (c.w 5 4 4 ≠ 1 → Does (.dmaDescEnd k) s (dmaIdle told k)))

/-- AUDIO_BLOCK_BOUNDARY, AUDIO_RENDER_DONE, VOICE_KEY_ON, VOICE_KEY_OFF, AUDIO_PORT_LOCK, AUDIO_PORT_LOCK_LOSS and AUDIO_FIFO_ACCESS (R194 to R196,
R200, R210, R211). -/
def Obligations.AudioBoundariesKeysAndPorts : Prop :=
  ∀ (s : State) (k : Fin 4) (w : Word),
    (∀ m : Nat, s.blkOn 15 = false → Does (.audioBlockBoundary m) s s) ∧
    (∀ m : Nat, s.blkOn 15 = true → Does (.audioBlockBoundary m) s
      (let ported := (List.range 4).foldl portBlock s
       let counted := ported.setReg AUD_BLOCK (ported.reg AUD_BLOCK + 1)
       let b := (counted.reg AUD_BLOCK).toNat
       let next := (b + 2) % 2 ^ 32
       let due := { counted with aud := { counted.aud with
         jobs := counted.aud.jobs.filter (fun j => j.block != b), done := counted.aud.done.filter (fun d => d.1 == prevBlock b || (blocksAhead d.1 b).isSome) } }
       let played := (counted.aud.jobs.filter (fun j => j.block == b)).foldl (fun s j => lateBlock s j m) due
       let keyed := (List.range 128).foldl latchKeys played
       let job : AudJob := ⟨next, keyed.audRegs, (List.range 64).map (fun i => (i, s.slotIn (i / 16) (i % 16))),
         (List.range 4).foldl (fun n k => if keyed.portLive keyed.audRegs k then n + 2 ^ k else n) 0⟩
       let latched := pdmBlock { keyed with aud := { keyed.aud with latches := keyed.aud.latches.filter (fun l => (blocksAhead l.1 b).isSome) ++ [(next, job.vals)] } }
       let cleared := (List.range 128).foldl
         (fun s v => (s.setBit (AUD_V_CTRL v) AUD_V_CTRL_key_on false).setBit (AUD_V_CTRL v) AUD_V_CTRL_key_off false) latched
       audRestate { cleared with aud := { cleared.aud with jobs := cleared.aud.jobs ++ [job] } })) ∧
    (∀ p : Nat, s.spCfg p AUD_SP_CFG_master = 1 → portBlock s p =
      s.setPort p { s.port p with past := (s.port p).got, got := [], idx := 0, phIn := 0, phOut := 0, line := [] }) ∧
    (∀ a b : Nat, a < 2 ^ 32 → b < 2 ^ 32 → ∀ d < 2 ^ 31, (blocksAhead a b = some d ↔ a = (b + d) % 2 ^ 32)) ∧
    (s.aud.jobs = [] ∨ s.blkOn 15 = false → Does .audioRenderDone s s) ∧
    (∀ j rest, s.blkOn 15 = true → s.aud.jobs = j :: rest →
      let r := renderBlock { s with aud := { s.aud with jobs := rest } } j 32
      Does .audioRenderDone s (audRestate (keepBlock r.1 j.block r.2))) ∧
    (∀ v : Fin 128, Does (.voiceKeyOn v) s (s.setBit (AUD_V_CTRL v) AUD_V_CTRL_key_on true) ∧
      Does (.voiceKeyOff v) s (s.setBit (AUD_V_CTRL v) AUD_V_CTRL_key_off true)) ∧
    (let slave : Prop := s.spCfg k AUD_SP_CFG_enable = 1 ∧ s.spCfg k AUD_SP_CFG_master = 0 ∧ s.blkOn 15 = true ∧
       s.inputLive (16 + 3 * k) = true ∧ s.inputLive (17 + 3 * k) = true
     let off := (signed 16 (w.toNat % 65536)).natAbs
     (slave → off ≤ 2000 → Does (.audioPortLock k w) s
       ((s.setBit (AUD_SP_TRACK k) AUD_SP_TRACK_locked true).setFld (AUD_SP_TRACK k) AUD_SP_TRACK_err_ppm (w.toNat % 65536))) ∧
     (slave → 2000 < off → s.bit (AUD_SP_TRACK k) AUD_SP_TRACK_locked = true → Does (.audioPortLock k w) s
       ((s.setBit (AUD_SP_TRACK k) AUD_SP_TRACK_locked false).setBit (AUD_SP_TRACK k) AUD_SP_TRACK_lost true)) ∧
     (slave → 2000 < off → s.bit (AUD_SP_TRACK k) AUD_SP_TRACK_locked = false → Does (.audioPortLock k w) s s) ∧
     (¬ slave → Does (.audioPortLock k w) s s)) ∧
    (s.bit (AUD_SP_TRACK k) AUD_SP_TRACK_locked = true → Does (.audioPortLockLoss k) s
      ((s.setBit (AUD_SP_TRACK k) AUD_SP_TRACK_locked false).setBit (AUD_SP_TRACK k) AUD_SP_TRACK_lost true)) ∧
    (s.bit (AUD_SP_TRACK k) AUD_SP_TRACK_locked = false → Does (.audioPortLockLoss k) s s) ∧
    (s.portRaw k = false ∨ 64 ≤ (s.port k).tx.length → Does (.audioFifoAccess k (some w)) s s) ∧
    (s.portRaw k = true → (s.port k).tx.length < 64 →
      Does (.audioFifoAccess k (some w)) s (fifoTrigger (s.setPort k { s.port k with tx := (s.port k).tx ++ [w.toNat] }) k)) ∧
    (∀ v rest, s.portRaw k = true → (s.port k).rx = v :: rest →
      Does (.audioFifoAccess k none) s (hostSees (fifoTrigger (s.setPort k { s.port k with rx := rest }) k) (v % 2 ^ 32) false false)) ∧
    (s.portRaw k = false ∨ (s.port k).rx = [] →
      Does (.audioFifoAccess k none) s (hostSees s.draw.2 s.draw.1.toNat false false))

/-- FX_MULK, FX_MACK, FX_MUL, FX_ADD, FX_SUB, FX_DRD, FX_DWR, FX_SAT, FX_LDK and FX_END (R206 to R208). Where a MULK or MUL product does not fit, the
spec states no result, and the model's value is free. -/
def Obligations.EffectInstructionsComputeTheirTable : Prop :=
  ∀ (s : State) (b : Fin 16) (d a c : Fin 32) (imm : BitVec 16),
    let A := (s.fx b a).toInt
    let C := (s.fx b c).toInt
    let D := (s.fx b d).toInt
    let puts (i : Instr) (v : Int) : Prop := Completes i s (fun t =>
      (t.fx b d).toInt = v ∧ (∀ (b' : Fin 16) (r : Fin 32), ¬ (b' = b ∧ r = d) → t.fx b' r = s.fx b' r) ∧ SameMem s t ∧ RegsBut [] s t ∧
      t.aud.wp = s.aud.wp ∧ t.aud.dwr = s.aud.dwr)
    let lo : Int := -2147483648
    let hi : Int := 2147483647
    puts (.fxAdd b d a c) (max lo (min hi (A + C))) ∧
    puts (.fxSub b d a c) (max lo (min hi (A - C))) ∧
    puts (.fxMack b d a imm) (max lo (min hi (D + A * imm.toInt / 32768))) ∧
    puts (.fxSat b d a) (max (-8388608) (min 8388607 A)) ∧
    puts (.fxLdk b d imm) (imm.toInt * 256) ∧
    (lo ≤ A * imm.toInt / 32768 → A * imm.toInt / 32768 ≤ hi → puts (.fxMulk b d a imm) (A * imm.toInt / 32768)) ∧
    (lo ≤ A * C / 8388608 → A * C / 8388608 ≤ hi → puts (.fxMul b d a c) (A * C / 8388608)) ∧
    Does (.fxDwr b a) s { s with aud := { s.aud with dwr := smInsert b.val (s.fx b a) (smErase s.aud.dwr b) } } ∧
    (let len := max 1 (latched s.fxVals (AUD_BUS_DLYLEN b) AUD_BUS_DLYLEN_len)
     let base := latched s.fxVals (AUD_BUS_DLY b) AUD_BUS_DLY_base * 256
     let r := audFetch s (base + 4 * ((s.ringWp b + len - max imm.toNat 32 % len) % len)) 4
     let wp := s.ringWp b % len
     let step (u : State) : State := { u with aud := { u.aud with dwr := smErase u.aud.dwr b, wp := smSet (fun _ => 0) u.aud.wp b ((wp + 1) % len) } }
     ((r.err || r.poison) = true → Does (.fxDrd b d imm) s ((r.s.count AUD_CNT AUD_CNT_fault).setFx b d 0)) ∧
     ((r.err || r.poison) = false → Does (.fxDrd b d imm) s (r.s.setFx b d (BitVec.ofNat 32 (leOf r.data)))) ∧
     (s.aud.dwr.lookup b.val = none → Does (.fxEnd b) s (step s)) ∧
     (∀ w, s.aud.dwr.lookup b.val = some w →
       let p := audStore s (base + 4 * wp) (leBytes 4 w.toNat)
       (p.err = true → Does (.fxEnd b) s (step (p.s.count AUD_CNT AUD_CNT_fault))) ∧ (p.err = false → Does (.fxEnd b) s (step p.s))))

/-- MOV, ADD, SUB, AND, OR, XOR, CMP, TST, MOVI, ADDI, CMPI, LSL, LSR, ASR, NOT, NEG, ADC, SBC, RSB, BIC, MVN, MUL, SHV, CLZ, SUBI, ANDI, ORI, XORI,
MOVW, MOVT, LEA and ADR (R220 to R224). -/
def Obligations.RegisterInstructionsWriteResultAndFlags : Prop :=
  ∀ (s : State) (a : Agent),
    let g := s.regsOf a
    let fl := s.flagsOf a
    let pc := s.pcOf a
    let W (c : Instr) (i : Ins) (reg : Option (Nat × Word)) (flags : Option Flags) : Prop := s.issues a i → Does c s (wrote s a i reg flags)
    let ask (f : Bool) (x : Flags) : Option Flags := if f = true then some x else none
    let diff (x y : Word) : Flags := ⟨(x - y).msb, x == y, decide (y.toNat ≤ x.toNat), decide (x.toInt - y.toInt ≠ (x - y).toInt)⟩
    let sum (x y : Word) : Flags := ⟨(x + y).msb, x + y == 0, decide (2 ^ 32 ≤ x.toNat + y.toNat), decide (x.toInt + y.toInt ≠ (x + y).toInt)⟩
    let carry (x y : Word) : Flags := let r := x + y + BitVec.ofNat 32 (cond fl.c 1 0)
      ⟨r.msb, r == 0, decide (2 ^ 32 ≤ x.toNat + y.toNat + cond fl.c 1 0), decide (x.toInt + y.toInt + cond fl.c 1 0 ≠ r.toInt)⟩
    let logic (x : Word) (out : Option Bool) : Flags := ⟨x.msb, x == 0, out.getD fl.c, fl.v⟩
    (∀ f : Form,
      let R (op5 op6 : Nat) := (Form.ins f op5 op6).rForm g
      W (.mov a f) (Form.ins f 0x00 0x09) (some ((R 0x00 0x09).d, (R 0x00 0x09).b)) (ask (R 0x00 0x09).f (logic (R 0x00 0x09).b (R 0x00 0x09).out)) ∧
      W (.add a f) (Form.ins f 0x01 0x00) (some ((R 0x01 0x00).d, (R 0x01 0x00).a + (R 0x01 0x00).b)) (ask (R 0x01 0x00).f (sum (R 0x01 0x00).a (R 0x01 0x00).b)) ∧
      W (.sub a f) (Form.ins f 0x02 0x02) (some ((R 0x02 0x02).d, (R 0x02 0x02).a - (R 0x02 0x02).b)) (ask (R 0x02 0x02).f (diff (R 0x02 0x02).a (R 0x02 0x02).b)) ∧
      W (.and a f) (Form.ins f 0x03 0x05) (some ((R 0x03 0x05).d, (R 0x03 0x05).a &&& (R 0x03 0x05).b))
        (ask (R 0x03 0x05).f (logic ((R 0x03 0x05).a &&& (R 0x03 0x05).b) (R 0x03 0x05).out)) ∧
      W (.or a f) (Form.ins f 0x04 0x06) (some ((R 0x04 0x06).d, (R 0x04 0x06).a ||| (R 0x04 0x06).b))
        (ask (R 0x04 0x06).f (logic ((R 0x04 0x06).a ||| (R 0x04 0x06).b) (R 0x04 0x06).out)) ∧
      W (.xor a f) (Form.ins f 0x05 0x07) (some ((R 0x05 0x07).d, (R 0x05 0x07).a ^^^ (R 0x05 0x07).b))
        (ask (R 0x05 0x07).f (logic ((R 0x05 0x07).a ^^^ (R 0x05 0x07).b) (R 0x05 0x07).out)) ∧
      W (.cmp a f) (Form.ins f 0x06 0x0B) none (some (diff (R 0x06 0x0B).a (R 0x06 0x0B).b)) ∧
      W (.tst a f) (Form.ins f 0x15 0x0C) none (some (logic ((R 0x15 0x0C).a &&& (R 0x15 0x0C).b) (R 0x15 0x0C).out))) ∧
    (∀ (cc : BitVec 2) (arg : BitVec 9) (regs : BitVec 8),
      let i5 (op5 : Nat) : Ins := Form.ins (.short cc arg) op5 0
      let sh (op5 kind : Nat) := shiftOut (g (i5 op5).rs16) kind (i5 op5).imm5
      let neg : Ins := Form.ins (.short cc (1#1 ++ regs)) 0x14 0
      let inv : Ins := Form.ins (.short cc (0#1 ++ regs)) 0x14 0
      W (.movi a cc arg) (i5 0x07) (some ((i5 0x07).rs16, BitVec.ofNat 32 (i5 0x07).imm5)) none ∧
      W (.addi a (.short cc arg)) (i5 0x08) (some ((i5 0x08).rs16, g (i5 0x08).rs16 + (i5 0x08).imm5S)) (some (sum (g (i5 0x08).rs16) (i5 0x08).imm5S)) ∧
      W (.cmpi a (.short cc arg)) (i5 0x09) none (some (diff (g (i5 0x09).rs16) (i5 0x09).imm5S)) ∧
      W (.lsl a cc arg) (i5 0x0A) (some ((i5 0x0A).rs16, (sh 0x0A 0).1)) (some (logic (sh 0x0A 0).1 (sh 0x0A 0).2)) ∧
      W (.lsr a cc arg) (i5 0x0B) (some ((i5 0x0B).rs16, (sh 0x0B 1).1)) (some (logic (sh 0x0B 1).1 (sh 0x0B 1).2)) ∧
      W (.asr a cc arg) (i5 0x0C) (some ((i5 0x0C).rs16, (sh 0x0C 2).1)) (some (logic (sh 0x0C 2).1 (sh 0x0C 2).2)) ∧
      W (.not a cc regs) inv (some (inv.rd16, ~~~(g inv.rs16))) (some (logic (~~~(g inv.rs16)) none)) ∧
      W (.neg a cc regs) neg (some (neg.rd16, 0 - g neg.rs16)) (some (diff 0 (g neg.rs16)))) ∧
    (∀ (cc : BitVec 4) (arg : BitVec 20),
      let i (op6 : Nat) : Ins := Form.ins (.long cc arg) 0 op6
      let addi : Ins := Form.ins (.long cc arg) 0x08 0x10
      let cmpi : Ins := Form.ins (.long cc arg) 0x09 0x15
      let y (op6 : Nat) : Word := (i op6).shRb g |>.1
      let x (op6 : Nat) : Word := g (i op6).ra
      let out (op6 : Nat) : Option Bool := ((i op6).shRb g).2
      let into (op6 : Nat) (w : Word) : Option (Nat × Word) := some ((i op6).rd, w)
      let shv := shiftOut (x 0x0E) ((i 0x0E).bits 10 9) ((g (i 0x0E).rb).toNat % 32)
      W (.addi a (.long cc arg)) addi (some (addi.rd, g addi.ra + addi.immS)) none ∧
      W (.cmpi a (.long cc arg)) cmpi none (some (diff (g cmpi.ra) cmpi.immS)) ∧
      W (.adc a cc arg) (i 0x01) (into 0x01 (x 0x01 + y 0x01 + BitVec.ofNat 32 (cond fl.c 1 0))) (ask (i 0x01).f (carry (x 0x01) (y 0x01))) ∧
      W (.sbc a cc arg) (i 0x03) (into 0x03 (x 0x03 + ~~~(y 0x03) + BitVec.ofNat 32 (cond fl.c 1 0))) (ask (i 0x03).f (carry (x 0x03) (~~~(y 0x03)))) ∧
      W (.rsb a cc arg) (i 0x04) (into 0x04 (y 0x04 - x 0x04)) (ask (i 0x04).f (diff (y 0x04) (x 0x04))) ∧
      W (.bic a cc arg) (i 0x08) (into 0x08 (x 0x08 &&& ~~~(y 0x08))) (ask (i 0x08).f (logic (x 0x08 &&& ~~~(y 0x08)) (out 0x08))) ∧
      W (.mvn a cc arg) (i 0x0A) (into 0x0A (~~~(y 0x0A))) (ask (i 0x0A).f (logic (~~~(y 0x0A)) (out 0x0A))) ∧
      W (.mul a cc arg) (i 0x0D) (into 0x0D (x 0x0D * g (i 0x0D).rb)) (ask (i 0x0D).f (logic (x 0x0D * g (i 0x0D).rb) none)) ∧
      W (.shv a cc arg) (i 0x0E) (into 0x0E shv.1) (ask (i 0x0E).f (logic shv.1 shv.2)) ∧
      W (.clz a cc arg) (i 0x0F) (into 0x0F (BitVec.ofNat 32 (leadingZeros (g (i 0x0F).rb))))
        (ask (i 0x0F).f (logic (BitVec.ofNat 32 (leadingZeros (g (i 0x0F).rb))) none)) ∧
      W (.subi a cc arg) (i 0x11) (into 0x11 (x 0x11 - (i 0x11).immS)) none ∧
      W (.andi a cc arg) (i 0x12) (into 0x12 (x 0x12 &&& (i 0x12).immZ)) none ∧
      W (.ori a cc arg) (i 0x13) (into 0x13 (x 0x13 ||| (i 0x13).immZ)) none ∧
      W (.xori a cc arg) (i 0x14) (into 0x14 (x 0x14 ^^^ (i 0x14).immZ)) none ∧
      W (.movw a cc arg) (i 0x16) (into 0x16 (BitVec.ofNat 32 (i 0x16).imm16)) none ∧
      W (.movt a cc arg) (i 0x17) (into 0x17 (BitVec.ofNat 32 ((i 0x17).imm16 * 2 ^ 16 + (g (i 0x17).rd).toNat % 2 ^ 16))) none ∧
      W (.lea a cc arg) (i 0x20) (into 0x20 ((i 0x20).ea g 1).1) none ∧
      W (.adr a cc arg) (i 0x29) (into 0x29 (pc + BitVec.ofInt 32 (2 * signed 16 (i 0x29).word))) none)

/-- B, CALL, JR and NOP (R222, R225, R227, R234). -/
def Obligations.BranchesCallsAndNop : Prop :=
  ∀ (s : State) (a : Agent) (f : Form),
    let g := s.regsOf a
    let pc := s.pcOf a
    let leapt (i : Ins) (link : Bool) (target : Word) : State :=
      let u := if link = true then setRegOf (s.began a) a 14 (pc + BitVec.ofNat 32 i.len) else s.began a
      match a with
      | .kiln => kjump u i target
      | .thread t => threadDone (setTpc u t target i.len) t i.len
    let jump (c : Instr) (i : Ins) (link : Bool) (target : Word) : Prop :=
      s.issues a i → target.getLsbD 0 = false →
        Does c s (leapt i link target) ∧
        (a ≠ .kiln ∨ s.bit DBG_TRACE_CTRL DBG_TRACE_CTRL_enable = false → (leapt i link target).pcOf a = target)
    let jr := Form.ins f 0x13 0x2C
    let target := g (if jr.isLong = true then jr.rb else jr.rs16)
    jump (.branch a f) (Form.ins f 0x11 0x2A) false ((Form.ins f 0x11 0x2A).target pc) ∧
    jump (.call a f) (Form.ins f 0x12 0x2B) true ((Form.ins f 0x12 0x2B).target pc) ∧
    jump (.jr a f) jr (if jr.isLong = true then jr.f else jr.f16) target ∧
    (s.issues a jr → target.getLsbD 0 = true → Does (.jr a f) s
      (match a with | .kiln => kfault s 3 target | .thread t => threadFault s.slotUsed t 2)) ∧
    (s.issues a (Form.sys f 0) → Does (.nop a f) s (completed (s.began a) a (Form.sys f 0)))

/-- LD, ST, LDSP, STSP, LDW, LDH, LDHS, LDB, LDBS, STW, STH and STB (R220, R222, R224 to R226, R243 to R245, R259, R271). -/
def Obligations.LoadsAndStoresAccessTheirAddress : Prop :=
  ∀ (s : State) (a : Agent) (cc : BitVec 2) (arg : BitVec 9) (cc4 : BitVec 4) (arg20 : BitVec 20),
    let g := s.regsOf a
    let short (op5 : Nat) : Ins := Form.ins (.short cc arg) op5 0
    let long (op6 : Nat) : Ins := Form.ins (.long cc4 arg20) 0 op6
    let rows : List (Instr × Ins × MemOp) := [
      (.ld a cc arg, short 0x0D, (short 0x0D).memA g true), (.st a cc arg, short 0x0E, (short 0x0E).memA g false),
      (.ldsp a cc arg, short 0x0F, (short 0x0F).memSp g true), (.stsp a cc arg, short 0x10, (short 0x10).memSp g false),
      (.ldw a cc4 arg20, long 0x18, (long 0x18).memM g 4 true false), (.ldh a cc4 arg20, long 0x19, (long 0x19).memM g 2 true false),
      (.ldhs a cc4 arg20, long 0x1A, (long 0x1A).memM g 2 true true), (.ldb a cc4 arg20, long 0x1B, (long 0x1B).memM g 1 true false),
      (.ldbs a cc4 arg20, long 0x1C, (long 0x1C).memM g 1 true true), (.stw a cc4 arg20, long 0x1D, (long 0x1D).memM g 4 false false),
      (.sth a cc4 arg20, long 0x1E, (long 0x1E).memM g 2 false false), (.stb a cc4 arg20, long 0x1F, (long 0x1F).memM g 1 false false)]
    ∀ r ∈ rows,
      let c := r.1
      let i := r.2.1
      let m := r.2.2
      let at_ := m.addr.toNat
      let back (u : State) : State := match m.base with | some (b, w) => setRegOf u a b w | none => u
      s.issues a i →
      match a with
      | .thread t =>
        (at_ % m.size ≠ 0 → Does c s (threadFault s.slotUsed t 2)) ∧
        (at_ % m.size = 0 → 0x80000 < at_ + m.size → Does c s (threadFault s.slotUsed t 3)) ∧
        (at_ % m.size = 0 → at_ + m.size ≤ 0x80000 → m.load = true →
          Does c s (threadDone ((back s.slotUsed).setTreg t m.reg (extend m.size m.sext (leOf (s.tbytes t (0x12000000 + at_) m.size)))) t i.len)) ∧
        (at_ % m.size = 0 → at_ + m.size ≤ 0x80000 → m.load = false →
          Does c s (threadDone (back (threadStore s.slotUsed t (0x12000000 + at_) (leBytes m.size (s.treg t m.reg).toNat))) t i.len))
      | .kiln =>
        (at_ % m.size ≠ 0 → Does c s (kfault s 3 m.addr)) ∧
        (at_ % m.size = 0 → inRegs at_ = true → s.ksup = false → Does c s (kfault s 2 (BitVec.ofNat 32 i.word))) ∧
        (at_ % m.size = 0 → inRegs at_ = false ∨ s.ksup = true → s.wpMatch (!m.load) at_ m.size = none →
          (m.load = true → inTcm at_ = true →
            Does c s (kdone ((back s).setKreg m.reg (extend m.size m.sext (leOf (s.bytes at_ m.size)))) i.len)) ∧
          (∀ bs, m.load = true → inTcm at_ = false → s.forwarded at_ m.size = some bs →
            Does c s (kdone ((back s).setKreg m.reg (extend m.size m.sext (leOf bs))) i.len)) ∧
          (m.load = true → inTcm at_ = false → s.forwarded at_ m.size = none →
            let asks := !s.buffered at_ m.size
            Does c s (s.setKiln { s.kiln with
              load := some ⟨at_, m.size, m.sext, m.reg, m.base, i.len, asks, asks && s.passes at_, if asks then (s.target at_).block else none, false⟩ })) ∧
          (m.load = false → inTcm at_ = true →
            Does c s (kdone (back ((keepFetched s i.len at_ m.size).setBytes at_ (leBytes m.size (s.kreg m.reg).toNat))) i.len)) ∧
          (m.load = false → inTcm at_ = false →
            let fetched := keepFetched s i.len at_ m.size
            let roomy := if 8 ≤ fetched.kiln.sb.length then storeIssue fetched [] else fetched
            Does c s (kdone (back (roomy.setKiln { roomy.kiln with sb := roomy.kiln.sb ++ [(at_, leBytes m.size (s.kreg m.reg).toNat)] })) i.len)))

/-- R226. -/
def Obligations.WriteBackToTheDataRegister : Prop :=
  ∀ (s : State) (cc : BitVec 4) (arg : BitVec 20),
    let long (op6 : Nat) : Ins := Form.ins (.long cc arg) 0 op6
    let loads : List ((Agent → Instr) × Nat × Nat × Bool) := [(fun a => .ldw a cc arg, 0x18, 4, false), (fun a => .ldh a cc arg, 0x19, 2, false),
      (fun a => .ldhs a cc arg, 0x1A, 2, true), (fun a => .ldb a cc arg, 0x1B, 1, false), (fun a => .ldbs a cc arg, 0x1C, 1, true)]
    let stores : List ((Agent → Instr) × Nat × Nat) := [(fun a => .stw a cc arg, 0x1D, 4), (fun a => .sth a cc arg, 0x1E, 2), (fun a => .stb a cc arg, 0x1F, 1)]
    (∀ l ∈ loads,
      let i := long l.2.1
      let n := l.2.2.1
      let ea (g : Regs) : Nat := ((i.memM g n true l.2.2.2).addr).toNat
      i.kind = 1 ∨ i.kind = 2 → i.rd = i.ra →
        (∀ t : Fin 64, s.issues (.thread t) i → ea (s.treg t) % n = 0 → ea (s.treg t) + n ≤ 0x80000 →
          Completes (l.1 (.thread t)) s (fun u => u.treg t i.rd = extend n l.2.2.2 (leOf (s.tbytes t (0x12000000 + ea (s.treg t)) n)))) ∧
        (s.issues .kiln i → ea s.kreg % n = 0 → inTcm (ea s.kreg) = true → s.wpMatch false (ea s.kreg) n = none →
          Completes (l.1 .kiln) s (fun u => u.kreg i.rd = extend n l.2.2.2 (leOf (s.bytes (ea s.kreg) n))))) ∧
    (∀ (l : KLoad) (w : Word) (seen : List Nat), s.kiln.load = some l → l.base = some (l.rd, w) →
      let r := busFinish s l.opened iniKiln l.addr l.size seen
      let u := r.s.setKiln { r.s.kiln with load := none }
      l.failed = false → s.kiln.lockup = false → s.ember.phase = .run → s.buffered l.addr l.size = false → r.err = false → r.poison = false →
      (loadWrite u l (leOf r.data)).kiln.haltReq = false → (loadWrite u l (leOf r.data)).kiln.step = false →
      Completes (.loadDataReturn seen) s (fun t => t.kreg l.rd = extend l.size l.sext (leOf r.data))) ∧
    (∀ c ∈ stores,
      let i := long c.2.1
      let n := c.2.2
      let ea (g : Regs) : Nat := ((i.memM g n false false).addr).toNat
      i.kind = 1 ∨ i.kind = 2 → i.rd = i.ra →
        (∀ t : Fin 64, s.issues (.thread t) i → ea (s.treg t) % n = 0 → ea (s.treg t) + n ≤ 0x80000 →
          Completes (c.1 (.thread t)) s (fun u => u.tbytes t (0x12000000 + ea (s.treg t)) n = leBytes n (s.treg t i.ra).toNat)) ∧
        (s.issues .kiln i → ea s.kreg % n = 0 → inRegs (ea s.kreg) = false ∨ s.ksup = true → s.wpMatch true (ea s.kreg) n = none →
          (inTcm (ea s.kreg) = true → Completes (c.1 .kiln) s (fun u => u.bytes (ea s.kreg) n = leBytes n (s.kreg i.ra).toNat)) ∧
          (inTcm (ea s.kreg) = false → Completes (c.1 .kiln) s (fun u => u.kiln.sb.getLast? = some (ea s.kreg, leBytes n (s.kreg i.ra).toNat)))))

/-- Every instruction of chapters 11 and 13 (R216, R218, R219, R252). -/
def Obligations.IssueFollowsTurnEncodingAndCondition : Prop :=
  ∀ (s : State) (a : Agent) (f : Form) (c2 : BitVec 2) (a9 : BitVec 9) (regs : BitVec 8) (c4 : BitVec 4) (a20 : BitVec 20) (limit : Nat),
    let both : List (Instr × Ins) := [
      (.mov a f, Form.ins f 0x00 0x09), (.add a f, Form.ins f 0x01 0x00), (.sub a f, Form.ins f 0x02 0x02), (.and a f, Form.ins f 0x03 0x05),
      (.or a f, Form.ins f 0x04 0x06), (.xor a f, Form.ins f 0x05 0x07), (.cmp a f, Form.ins f 0x06 0x0B), (.tst a f, Form.ins f 0x15 0x0C),
      (.movi a c2 a9, Form.ins (.short c2 a9) 0x07 0), (.addi a f, Form.ins f 0x08 0x10), (.cmpi a f, Form.ins f 0x09 0x15),
      (.lsl a c2 a9, Form.ins (.short c2 a9) 0x0A 0), (.lsr a c2 a9, Form.ins (.short c2 a9) 0x0B 0), (.asr a c2 a9, Form.ins (.short c2 a9) 0x0C 0),
      (.ld a c2 a9, Form.ins (.short c2 a9) 0x0D 0), (.st a c2 a9, Form.ins (.short c2 a9) 0x0E 0), (.ldsp a c2 a9, Form.ins (.short c2 a9) 0x0F 0),
      (.stsp a c2 a9, Form.ins (.short c2 a9) 0x10 0), (.branch a f, Form.ins f 0x11 0x2A), (.call a f, Form.ins f 0x12 0x2B),
      (.jr a f, Form.ins f 0x13 0x2C), (.not a c2 regs, Form.ins (.short c2 (0#1 ++ regs)) 0x14 0),
      (.neg a c2 regs, Form.ins (.short c2 (1#1 ++ regs)) 0x14 0), (.adc a c4 a20, Form.ins (.long c4 a20) 0 0x01),
      (.sbc a c4 a20, Form.ins (.long c4 a20) 0 0x03), (.rsb a c4 a20, Form.ins (.long c4 a20) 0 0x04), (.bic a c4 a20, Form.ins (.long c4 a20) 0 0x08),
      (.mvn a c4 a20, Form.ins (.long c4 a20) 0 0x0A), (.mul a c4 a20, Form.ins (.long c4 a20) 0 0x0D), (.shv a c4 a20, Form.ins (.long c4 a20) 0 0x0E),
      (.clz a c4 a20, Form.ins (.long c4 a20) 0 0x0F), (.subi a c4 a20, Form.ins (.long c4 a20) 0 0x11), (.andi a c4 a20, Form.ins (.long c4 a20) 0 0x12),
      (.ori a c4 a20, Form.ins (.long c4 a20) 0 0x13), (.xori a c4 a20, Form.ins (.long c4 a20) 0 0x14), (.movw a c4 a20, Form.ins (.long c4 a20) 0 0x16),
      (.movt a c4 a20, Form.ins (.long c4 a20) 0 0x17), (.ldw a c4 a20, Form.ins (.long c4 a20) 0 0x18), (.ldh a c4 a20, Form.ins (.long c4 a20) 0 0x19),
      (.ldhs a c4 a20, Form.ins (.long c4 a20) 0 0x1A), (.ldb a c4 a20, Form.ins (.long c4 a20) 0 0x1B), (.ldbs a c4 a20, Form.ins (.long c4 a20) 0 0x1C),
      (.stw a c4 a20, Form.ins (.long c4 a20) 0 0x1D), (.sth a c4 a20, Form.ins (.long c4 a20) 0 0x1E), (.stb a c4 a20, Form.ins (.long c4 a20) 0 0x1F),
      (.lea a c4 a20, Form.ins (.long c4 a20) 0 0x20), (.adr a c4 a20, Form.ins (.long c4 a20) 0 0x29), (.nop a f, Form.sys f 0)]
    let kilnOnly : List (Instr × Ins) := [
      (.ldm a c4 a20 limit, Form.ins (.long c4 a20) 0 0x21), (.stm a c4 a20 limit, Form.ins (.long c4 a20) 0 0x22),
      (.bmov a c4 a20 limit, Form.ins (.long c4 a20) 0 0x23), (.bfill a c4 a20 limit, Form.ins (.long c4 a20) 0 0x24),
      (.bcrc a c4 a20 limit, Form.ins (.long c4 a20) 0 0x25), (.div a c4 a20, Form.ins (.long c4 a20) 0 0x26),
      (.modr a c4 a20, Form.ins (.long c4 a20) 0 0x27), (.mul64 a c4 a20, Form.ins (.long c4 a20) 0 0x28),
      (.svc a c4 a20, Form.ins (.long c4 a20) 0 0x2D), (.mrs a c4 a20, Form.ins (.long c4 a20) 0 0x2F), (.msr a c4 a20, Form.ins (.long c4 a20) 0 0x30),
      (.barrier a f, Form.sys f 1), (.iflush a f, Form.sys f 2), (.wait a f, Form.sys f 3), (.eret a f, Form.sys f 4), (.brk a f, Form.sys f 5)]
    let threadOnly : List (Instr × Ins) := [
      (.portIn a c4 a20, threadOp c4 a20 0x38 0 0), (.portOut a c4 a20, threadOp c4 a20 0x39 0 0), (.pcfgMode a c4 a20, threadOp c4 a20 0x3A 0xF 0),
      (.pcfgCondition a c4 a20, threadOp c4 a20 0x3A 0xF 1), (.pcfgCompare a c4 a20, threadOp c4 a20 0x3A 0xF 2),
      (.pcfgOutputTime a c4 a20, threadOp c4 a20 0x3A 0xF 3), (.pcfgClock a c4 a20, threadOp c4 a20 0x3A 0xF 4),
      (.pcfgWidth a c4 a20, threadOp c4 a20 0x3A 0xF 5), (.pcfgCbSource a c4 a20, threadOp c4 a20 0x3A 0xF 0),
      (.pcfgCbGate a c4 a20, threadOp c4 a20 0x3A 0xF 1), (.pcfgCbHigh a c4 a20, threadOp c4 a20 0x3A 0xF 2),
      (.pcfgCbLow a c4 a20, threadOp c4 a20 0x3A 0xF 3), (.pts a c4 a20, threadOp c4 a20 0x3B 0 0), (.cinData a c4 a20, threadOp c4 a20 0x3C 8 0),
      (.cinControl a c4 a20, threadOp c4 a20 0x3C 0xC 8), (.coutData a c4 a20, threadOp c4 a20 0x3D 8 0),
      (.coutControl a c4 a20, threadOp c4 a20 0x3D 0xC 8), (.coutEnd a c4 a20, threadOp c4 a20 0x3D 0xC 0xC),
      (.fork a c4 a20, threadOp c4 a20 0x3E 0xF 0), (.join a c4 a20, threadOp c4 a20 0x3E 0xF 1), (.lock a c4 a20, threadOp c4 a20 0x3E 0xF 2),
      (.unlock a c4 a20, threadOp c4 a20 0x3E 0xF 3), (.texit a c4 a20, threadOp c4 a20 0x3E 0xF 4), (.tid a c4 a20, threadOp c4 a20 0x3E 0xF 5),
      (.getch a c4 a20, threadOp c4 a20 0x3E 0xF 6), (.freech a c4 a20, threadOp c4 a20 0x3E 0xF 7), (.route a c4 a20, threadOp c4 a20 0x3E 0xF 8),
      (.ewait a c4 a20, threadOp c4 a20 0x3F 0xF 0), (.earm a c4 a20, threadOp c4 a20 0x3F 0xF 1), (.edis a c4 a20, threadOp c4 a20 0x3F 0xF 2),
      (.eclr a c4 a20, threadOp c4 a20 0x3F 0xF 3)]
    let lacks : List (Instr × Ins) := match a with | .kiln => threadOnly | .thread _ => kilnOnly
    (∀ r ∈ both ++ kilnOnly ++ threadOnly,
      let c := r.1
      let i := r.2
      match a with
      | .thread t =>
        (s.kind.slot ≠ some t.val → Does c s s) ∧
        (s.kind.slot = some t.val → undefIns false i = true → Does c s (threadFault s.slotUsed t 1)) ∧
        (s.kind.slot = some t.val → undefIns false i = false → condPasses (s.thr t).flags i.cond = false → Does c s (threadDone s.slotUsed t i.len))
      | .kiln =>
        (s.kilnRuns = false ∨ s.kiln.load.isSome = true → Does c s s) ∧
        (s.kilnReady → undefIns true i = true → Does c s (kfault s 1 (BitVec.ofNat 32 i.word))) ∧
        (s.kilnReady → undefIns true i = false → condPasses s.kflags i.cond = false →
          let past := s.setKiln { s.kiln with pc := (s.kiln.pc + BitVec.ofNat 32 i.len) &&& 0xFFFFFFFE }
          Does c s (if i.isLong = true ∧ 0x21 ≤ i.op ∧ i.op ≤ 0x25 then setProg past 0 else past))) ∧
    (∀ r ∈ lacks,
      let c := r.1
      let i := r.2
      match a with
      | .kiln => s.kilnReady → Does c s (kfault s 1 (BitVec.ofNat 32 i.word))
      | .thread t => s.kind.slot = some t.val → Does c s (threadFault s.slotUsed t 1))

/-- R238 (with the register list and the reserved values of R264). -/
def Obligations.SystemRegistersAndPrivilege : Prop :=
  ∀ (s : State) (f : Form) (cc : BitVec 4) (arg : BitVec 20),
    let k := s.kiln
    let mrs : Ins := Form.ins (.long cc arg) 0 0x2F
    let msr : Ins := Form.ins (.long cc arg) 0 0x30
    let n := arg.toNat % 4096
    let values : List Word := [k.status, k.vbar, k.usp, k.ssp, k.svcPc, k.svcStatus, k.svcNum, k.svcVec, k.origin, k.sidePc]
    let w := s.kreg msr.ra
    let depth := if w.toNat / 2 ^ 28 ≤ 8 then w.toNat / 2 ^ 28 else k.origin.toNat / 2 ^ 28
    let keep := BitVec.ofNat 32 (2 ^ depth - 1)
    let after : List Kiln := [{ k with status := w &&& 0xFFFF0F9F }, { k with vbar := if w.toNat % 64 ≤ 0x3E then w &&& 0x3F else k.vbar }, { k with usp := w },
      { k with ssp := w }, { k with svcPc := w }, { k with svcStatus := w &&& 0xFFFF0F9F }, k, { k with svcVec := w },
      { k with origin := BitVec.ofNat 32 (depth * 2 ^ 28) ||| (w &&& (keep ||| (keep <<< 8))) }, k]
    let pcNext := (k.pc + 4) &&& 0xFFFFFFFE
    (s.issues .kiln mrs →
      (9 < n → Does (.mrs .kiln cc arg) s (kfault s 1 (BitVec.ofNat 32 mrs.word))) ∧
      (n ≤ 9 → n ≠ 0 → s.ksup = false → Does (.mrs .kiln cc arg) s (kfault s 2 (BitVec.ofNat 32 mrs.word))) ∧
      (n ≤ 9 → n = 0 ∨ s.ksup = true → Does (.mrs .kiln cc arg) s (kdone (s.setKreg mrs.rd (values.getD n 0)) 4))) ∧
    (s.issues .kiln msr →
      (9 < n → Does (.msr .kiln cc arg) s (kfault s 1 (BitVec.ofNat 32 msr.word))) ∧
      (n ≤ 9 → n ≠ 0 → s.ksup = false → Does (.msr .kiln cc arg) s (kfault s 2 (BitVec.ofNat 32 msr.word))) ∧
      (n = 0 → s.ksup = false → Does (.msr .kiln cc arg) s (kdone (s.setKiln { k with status := (k.status &&& 0xFFFFFFF0) ||| (w &&& 0xF) }) 4)) ∧
      (n = 0 → s.ksup = true → Does (.msr .kiln cc arg) s (s.setKiln { k with pc := pcNext, status := w &&& 0xFFFF0F9F })) ∧
      (n ≤ 9 → n ≠ 0 → s.ksup = true → Does (.msr .kiln cc arg) s (kdone (s.setKiln (after.getD n k)) 4))) ∧
    (s.ksup = false →
      (s.issues .kiln (Form.sys f 4) → Does (.eret .kiln f) s (kfault s 2 (BitVec.ofNat 32 (Form.sys f 4).word))) ∧
      (s.issues .kiln (Form.sys f 3) → Does (.wait .kiln f) s (kfault s 2 (BitVec.ofNat 32 (Form.sys f 3).word))) ∧
      (s.issues .kiln (Form.sys f 2) → Does (.iflush .kiln f) s (kfault s 2 (BitVec.ofNat 32 (Form.sys f 2).word))))

/-- DIV, MODR, MUL64, SIDE_UNIT_COMPLETE, BARRIER, IFLUSH, WAIT and BRK (R233, R235 to R237, R244, R246, R248 to R250, R528). -/
def Obligations.SideUnitBarriersAndWaits : Prop :=
  ∀ (s : State) (f : Form) (cc : BitVec 4) (arg : BitVec 20),
    let long (op6 : Nat) : Ins := Form.ins (.long cc arg) 0 op6
    let taken (i : Ins) : State := kdone (s.setKiln { s.kiln with side := some ⟨BitVec.ofNat 32 i.word, s.kreg i.ra, s.kreg i.rb, s.kiln.pc, true, s.ksup⟩ }) 4
    (s.issues .kiln (long 0x26) → Does (.div .kiln cc arg) s (taken (long 0x26))) ∧
    (s.issues .kiln (long 0x27) → Does (.modr .kiln cc arg) s (taken (long 0x27))) ∧
    (s.issues .kiln (long 0x28) → Does (.mul64 .kiln cc arg) s (taken (long 0x28))) ∧
    (s.ember.phase ≠ .run ∨ s.kiln.side = none → Does .sideUnitComplete s s) ∧
    (∀ op : KSide, s.ember.phase = .run → s.kiln.side = some op →
      let i : Ins := ⟨op.word.toNat, 4⟩
      let free := s.setKiln { s.kiln with side := none }
      let prod : BitVec 64 := if i.f = true then BitVec.ofNat 64 (op.ra.toNat * op.rb.toNat) else BitVec.ofInt 64 (op.ra.toInt * op.rb.toInt)
      (i.op = 0x26 → op.rb ≠ 0 → Does .sideUnitComplete s
        (free.setKregAt op.sup i.rd (if i.f = true then BitVec.ofNat 32 (op.ra.toNat / op.rb.toNat) else BitVec.ofInt 32 (op.ra.toInt.tdiv op.rb.toInt)))) ∧
      (i.op = 0x27 → op.rb ≠ 0 → Does .sideUnitComplete s
        (free.setKregAt op.sup i.rd (if i.f = true then BitVec.ofNat 32 (op.ra.toNat % op.rb.toNat) else BitVec.ofInt 32 (op.ra.toInt.tmod op.rb.toInt)))) ∧
      (i.op = 0x28 → Does .sideUnitComplete s ((free.setKregAt op.sup i.rd (prod.setWidth 32)).setKregAt op.sup i.rh ((prod >>> 32).setWidth 32))) ∧
      (i.op = 0x26 ∨ i.op = 0x27 → op.rb = 0 → Does .sideUnitComplete s
        (s.setKiln { s.kiln with side := none, sidePc := op.addr, zeroFresh := op.fresh, late := s.kiln.late ++ [(6, 0, op.addr)] }))) ∧
    (s.issues .kiln (Form.sys f 1) →
      ((drainAll s).kiln.late = [] → Does (.barrier .kiln f) s (kdone (drainAll s) (Form.sys f 1).len)) ∧
      (∀ (l : Nat × Word × Word) (rest : List (Nat × Word × Word)), (drainAll s).kiln.late = l :: rest →
        l.1 ≠ 6 ∨ (drainAll s).kiln.zeroFresh = false → Does (.barrier .kiln f) s (takeLate (drainAll s) true))) ∧
    (∀ op : KSide, s.kiln.side = some op → op.rb = 0 → s.kiln.sb = [] → (s.setKiln { s.kiln with side := none }).issues .kiln (Form.sys f 1) →
      let i : Ins := ⟨op.word.toNat, 4⟩
      i.op = 0x26 ∨ i.op = 0x27 →
        Does (.barrier .kiln f) s (takeLate (s.setKiln { s.kiln with side := none, sidePc := op.addr, zeroFresh := op.fresh, late := [(6, 0, op.addr)] }) (!op.fresh))) ∧
    (s.ksup = true → s.issues .kiln (Form.sys f 2) → Does (.iflush .kiln f) s (kdone (unfetch (drainAll s)) (Form.sys f 2).len)) ∧
    (s.ksup = true → s.issues .kiln (Form.sys f 3) →
      Does (.wait .kiln f) s (if s.wakes = true then kdone s (Form.sys f 3).len else s.setKiln { s.kiln with waiting := true, waitLen := (Form.sys f 3).len })) ∧
    (s.issues .kiln (Form.sys f 5) →
      Does (.brk .kiln f) s (if s.unlocked = true ∧ s.bit DBG_CTRL DBG_CTRL_brk_halt = true then haltNow s else kfault s 9 0))

/-- SVC, BRK and EXCEPTION_ENTRY (R253 to R258, R260, R262, R263). -/
def Obligations.EntriesSaveTheirFrame : Prop :=
  ∀ (s : State) (f : Form) (cc : BitVec 4) (arg : BitVec 20) (n : Nat),
    let svc : Ins := Form.ins (.long cc arg) 0 0x2D
    let next := s.kiln.pc + 4
    let pushed (u : State) (fast : Bool) : Word := BitVec.ofNat 32 ((u.originDepth + 1) * 2 ^ 28 +
      (u.kiln.origin.toNat % 2 ^ 28 + (if fast = true then 2 ^ (8 + u.originDepth) else 0) + (if u.ksup = true then 2 ^ u.originDepth else 0)))
    let vector (u : State) (e : Nat) : Nat := u.peekLE (0x200000 + u.kiln.vbar.toNat % 64 * 2048 + 4 * e) 4
    let base (u : State) : Nat := (u.kiln.ssp - 32).toNat
    let fine (u : State) (e : Nat) : Prop := u.originDepth < 8 ∧ vector u e % 2 = 0 ∧ u.kiln.ssp.toNat % 8 = 0 ∧
      ((0x100000 ≤ base u ∧ base u + 32 ≤ 0x120000) ∨ (0x200000 ≤ base u ∧ base u + 32 ≤ 0x220000))
    let bad (u : State) (e : Nat) : Prop := 8 ≤ u.originDepth ∨ vector u e % 2 = 1 ∨ u.kiln.ssp.toNat % 8 ≠ 0
    let entered (u : State) (e : Nat) (pc info : Word) : State :=
      let words : List Word := [pc, u.kiln.status, BitVec.ofNat 32 e, info, 0, Config.freeWord u.free, Config.freeWord (u.free + 1), Config.freeWord (u.free + 2)]
      let k : Kiln := { u.kiln with
        waiting := false, load := none, zeroFresh := false, held := [], status := (u.kiln.status &&& 0x0F0F) ||| 0x10, origin := pushed u false, ssp := u.kiln.ssp - 32,
        pc := BitVec.ofNat 32 (vector u e) &&& 0xFFFFFFFE }
      trace (({ u with free := u.free + 3 }.setBytes (base u) (words.flatMap (fun (w : Word) => leBytes 4 w.toNat))).setKiln k) 2 0 e pc.toNat
    let lockedUp (c : Instr) : Prop := Completes c s (fun t => t.kiln.lockup = true)
    let interrupts : Prop := s.kilnRuns = true ∧ s.kiln.load = none ∧ s.kiln.haltReq = false ∧ s.kiln.waiting = false ∧ s.kiln.step = false ∧
      s.kiln.late = [] ∧ s.kiln.side = none ∧ s.recognisable = some n
    (s.issues .kiln svc → s.ksup = true →
      (fine s 7 → Does (.svc .kiln cc arg) s (entered s 7 next svc.immZ)) ∧ (bad s 7 → lockedUp (.svc .kiln cc arg))) ∧
    (s.issues .kiln (Form.sys f 5) → s.unlocked = false ∨ s.bit DBG_CTRL DBG_CTRL_brk_halt = false →
      (fine s 9 → Does (.brk .kiln f) s (entered s 9 s.kiln.pc 0)) ∧ (bad s 9 → lockedUp (.brk .kiln f))) ∧
    (interrupts →
      let u := intcTake (s.setKiln { s.kiln with waiting := false, load := none, zeroFresh := false, held := [] }) n
      (fine u (32 + n) → Does .exceptionEntry s (entered u (32 + n) s.kiln.pc 0)) ∧ (bad u (32 + n) → lockedUp .exceptionEntry)) ∧
    (s.issues .kiln svc → s.ksup = false →
      (s.originDepth < 8 → Does (.svc .kiln cc arg) s (s.setKiln { s.kiln with
        svcPc := next, svcStatus := s.kiln.status, svcNum := svc.immZ, status := (s.kiln.status &&& 0xFFFF) ||| 0x10, origin := pushed s true,
        pc := s.kiln.svcVec &&& 0xFFFFFFFE, held := [] })) ∧
      (8 ≤ s.originDepth → lockedUp (.svc .kiln cc arg)))

/-- ERET (R261, R262). -/
def Obligations.ReturnsRestoreOrTakePrivReturn : Prop :=
  ∀ (s : State) (f : Form), s.ksup = true → s.issues .kiln (Form.sys f 4) →
    let c : Instr := .eret .kiln f
    let k := s.kiln
    let d := k.origin.toNat / 2 ^ 28
    let popped : Word := BitVec.ofNat 32 ((d - 1) * 2 ^ 28) ||| (k.origin &&& BitVec.ofNat 32 ((2 ^ (d - 1) - 1) * 257))
    let fast : Prop := d ≠ 0 ∧ k.origin.getLsbD (8 + d - 1) = true
    let framed : Prop := d ≠ 0 ∧ k.origin.getLsbD (8 + d - 1) = false
    let top := k.origin.getLsbD (d - 1)
    let a := k.ssp.toNat
    let inTcms : Prop := (0x100000 ≤ a ∧ a + 32 ≤ 0x120000) ∨ (0x200000 ≤ a ∧ a + 32 ≤ 0x220000)
    let w (j : Nat) : Word := BitVec.ofNat 32 (leOf (s.bytes (a + 4 * j) 4))
    let sideOp : Ins := ⟨(w 4).toNat, 4⟩
    let isSide : Prop := sideOp.bits 31 30 = 3 ∧ 0x26 ≤ sideOp.op ∧ sideOp.op ≤ 0x28 ∧ undefIns true sideOp = false
    let back (status pc : Word) : Kiln := { k with status := status, origin := popped, pc := pc &&& 0xFFFFFFFE, held := [] }
    (d = 0 → Does c s (kfault s 8 k.ssp)) ∧
    (fast → (k.svcStatus &&& statusBits).getLsbD 4 = top → Does c s (trace (s.setKiln (back (k.svcStatus &&& statusBits) k.svcPc)) 3 0 0 k.svcPc.toNat)) ∧
    (fast → (k.svcStatus &&& statusBits).getLsbD 4 ≠ top → Does c s (kfault s 8 0)) ∧
    (framed → a % 4 ≠ 0 → Does c s (kfault s 3 k.ssp)) ∧
    (framed → a % 4 = 0 → inTcms →
      ((w 1 &&& statusBits).getLsbD 4 ≠ top → Does c s (kfault s 8 k.ssp)) ∧
      ((w 1 &&& statusBits).getLsbD 4 = top →
        (w 4 = 0 → Does c s (trace (s.setKiln { back (w 1 &&& statusBits) (w 0) with ssp := k.ssp + 32 }) 3 0 0 (w 0).toNat)) ∧
        (w 4 ≠ 0 → isSide →
          Does c s (trace (s.setKiln { back (w 1 &&& statusBits) (w 0) with ssp := k.ssp + 32, side := some ⟨w 4, w 5, w 6, w 7, w 7 + 4 == w 0, top⟩ }) 3 0 0 (w 0).toNat)) ∧
        (w 4 ≠ 0 → ¬ isSide → Does c s (kfault s 1 (BitVec.ofNat 32 (Form.sys f 4).word)))))

/-- LDM, STM, BMOV, BFILL and BCRC (R225, R229 to R232, R255, R259). -/
def Obligations.LongBlocksGoElementByElement : Prop :=
  ∀ (s : State) (cc : BitVec 4) (arg : BitVec 20) (limit : Nat),
    let long (op6 : Nat) : Ins := Form.ins (.long cc arg) 0 op6
    let g := s.kreg
    let at_ (r : Nat) : Nat := (g r).toNat
    let moved (u : State) (r : Nat) (by_ : Word) : State := u.setKreg r (u.kreg r + by_)
    let size (i : Ins) : Nat := 2 ^ i.kind
    let ldm := long 0x21
    let stm := long 0x22
    let bmov := long 0x23
    let bfill := long 0x24
    let bcrc := long 0x25
    let many (i : Ins) : Nat := (g i.rb).toNat % 2 ^ 16
    let left (_ : Ins) (count : Nat) (masked : Bool) : Nat := if s.prog = 0 then count else if masked = true then min s.prog count else s.prog
    let ldmReg := (ldm.mask.drop (ldm.mask.length - left ldm ldm.mask.length true)).headD 0
    let stmReg := (stm.mask.take (left stm stm.mask.length true)).getLastD 0
    let value (i : Ins) (r : Nat) : Nat := leOf (s.bytes (at_ r) (size i))
    let fold (acc b : Nat) : Nat := match bcrc.kind with
      | 0 => reflFold 0x82F63B78 acc b
      | 1 => reflFold 0xEDB88320 acc b
      | _ => reflFold 0x8408 (acc % 2 ^ 16) b
    let none4 (a b : Nat) (n : Nat) : Option Word := if at_ a % n ≠ 0 then some (g a) else if at_ b % n ≠ 0 then some (g b) else none
    let stmAt := (g stm.ra - 4).toNat
    -- the command of a limit, its instruction, its fresh count, whether it has a mask, a misaligned pointer, its first access, whether that one writes,
    -- its size, whether a second access lies in a TCM too, and what one element makes of the state
    let rows : List ((Nat → Instr) × Ins × Nat × Bool × Option Word × (Nat × Bool × Nat) × Prop × State) := [
      (fun l => .ldm .kiln cc arg l, ldm, ldm.mask.length, true, none4 ldm.ra ldm.ra 4, (at_ ldm.ra, false, 4), True,
        moved (s.setKreg ldmReg (BitVec.ofNat 32 (leOf (s.bytes (at_ ldm.ra) 4)))) ldm.ra 4),
      (fun l => .stm .kiln cc arg l, stm, stm.mask.length, true, none4 stm.ra stm.ra 4, (stmAt, true, 4), True,
        moved ((keepFetched s 4 stmAt 4).setBytes stmAt (leBytes 4 (g stmReg).toNat)) stm.ra (-4)),
      (fun l => .bmov .kiln cc arg l, bmov, many bmov, false, none4 bmov.ra bmov.rd (size bmov), (at_ bmov.ra, false, size bmov),
        inTcm (at_ bmov.rd) = true ∧ s.wpMatch true (at_ bmov.rd) (size bmov) = none,
        moved (moved ((keepFetched s 4 (at_ bmov.rd) (size bmov)).setBytes (at_ bmov.rd) (leBytes (size bmov) (value bmov bmov.ra))) bmov.rd (BitVec.ofNat 32 (size bmov))) bmov.ra (BitVec.ofNat 32 (size bmov))),
      (fun l => .bfill .kiln cc arg l, bfill, many bfill, false, none4 bfill.rd bfill.rd (size bfill), (at_ bfill.rd, true, size bfill), True,
        moved ((keepFetched s 4 (at_ bfill.rd) (size bfill)).setBytes (at_ bfill.rd) (leBytes (size bfill) (at_ bfill.ra))) bfill.rd (BitVec.ofNat 32 (size bfill))),
      (fun l => .bcrc .kiln cc arg l, bcrc, many bcrc, false, none, (at_ bcrc.ra, false, 1), True,
        moved (s.setKreg bcrc.rd (BitVec.ofNat 32 (fold (at_ bcrc.rd) (leOf (s.bytes (at_ bcrc.ra) 1))))) bcrc.ra 1)]
    ∀ r ∈ rows,
      let c := r.1
      let i := r.2.1
      let count := r.2.2.1
      let n := left i count r.2.2.2.1
      let bad := r.2.2.2.2.1
      let access := r.2.2.2.2.2.1
      let second := r.2.2.2.2.2.2.1
      let one := r.2.2.2.2.2.2.2
      s.issues .kiln i →
      (count = 0 → s.prog = 0 → Does (c limit) s (kdone s 4)) ∧
      (∀ w, bad = some w → count ≠ 0 ∨ s.prog ≠ 0 → Does (c limit) s (kfault s 3 w)) ∧
      (bad = none → n ≠ 0 → Does (c 0) s (setProg s n)) ∧
      (bad = none → n ≠ 0 → inRegs access.1 = true → s.ksup = false → Does (c (limit + 1)) s (kfault (setProg s n) 2 (BitVec.ofNat 32 i.word))) ∧
      (bad = none → inTcm access.1 = true → s.wpMatch access.2.1 access.1 access.2.2 = none → second →
        (n = 1 → Does (c (limit + 1)) s (kdone one 4)) ∧ (1 < n → Does (c 1) s (setProg one (n - 1))))

/-- STORE_BUFFER_ISSUE and LOAD_DATA_RETURN (R226, R243 to R246). -/
def Obligations.BuffersAndReturnsFollowProgramOrder : Prop :=
  ∀ (s : State) (seen : List Nat),
    (s.ember.phase ≠ .run ∨ s.kiln.sb = [] → Does (.storeBufferIssue seen) s s) ∧
    (∀ (a : Nat) (bs : List Byte) (rest : List (Nat × List Byte)), s.ember.phase = .run → s.kiln.sb = (a, bs) :: rest →
      let r := busWrite (s.setKiln { s.kiln with sb := rest }) iniKiln a bs seen
      (r.err = false → Does (.storeBufferIssue seen) s (loadAsks r.s)) ∧
      (r.err = true → Does (.storeBufferIssue seen) s (loadAsks (r.s.setKiln { r.s.kiln with late := r.s.kiln.late ++ [(4, BitVec.ofNat 32 a, 0)] })))) ∧
    (s.kiln.load = none → loadAsks s = s) ∧
    (∀ l : KLoad, s.kiln.load = some l →
      (l.asked = true ∨ s.buffered l.addr l.size = true → loadAsks s = s) ∧
      (l.asked = false → s.buffered l.addr l.size = false → loadAsks s = s.setKiln { s.kiln with
        load := some { l with asked := true, opened := s.passes l.addr, via := (s.target l.addr).block } })) ∧
    (s.kiln.load = none → Does (.loadDataReturn seen) s s) ∧
    (∀ l : KLoad, s.kiln.load = some l →
      let r : Access := if l.failed = true then .error s else busFinish s l.opened iniKiln l.addr l.size seen
      let u := r.s.setKiln { r.s.kiln with load := none }
      let based (v : State) : State := match l.base with | some (b, w) => v.setKreg b w | none => v
      let t := if r.err = true then kfault u 4 (BitVec.ofNat 32 l.addr) else if r.poison = true then kfault u 5 (BitVec.ofNat 32 l.addr)
        else kdone ((based u).setKreg l.rd (extend l.size l.sext (leOf r.data))) l.len
      (s.kiln.lockup = true ∨ s.ember.phase ≠ .run ∨ s.buffered l.addr l.size = true → Does (.loadDataReturn seen) s s) ∧
      (s.kiln.lockup = false → s.ember.phase = .run → s.buffered l.addr l.size = false → t.kiln.haltReq = false → t.kiln.step = false →
        Does (.loadDataReturn seen) s t))

/-- IN, OUT, PTS, PCFG_MODE, PCFG_CONDITION, PCFG_COMPARE, PCFG_OUTPUT_TIME, PCFG_CLOCK, PCFG_WIDTH, PCFG_CB_SOURCE, PCFG_CB_GATE, PCFG_CB_HIGH and
PCFG_CB_LOW (R272, R286, R292 to R307, R309, R311). -/
def Obligations.PortInstructionsReadDriveAndConfigure : Prop :=
  ∀ (s : State) (t : Fin 64) (cc : BitVec 4) (arg : BitVec 20),
    let a : Agent := .thread t
    let u := s.slotUsed
    let pcfg (sub : Nat) : Ins := threadOp cc arg 0x3A 0xF sub
    let in_ := threadOp cc arg 0x38 0 0
    let out := threadOp cc arg 0x39 0 0
    let pts := threadOp cc arg 0x3B 0 0
    let id (i : Ins) : Nat := (s.treg t i.ra).toNat
    let val (i : Ins) : Word := s.treg t i.rb
    let fails (c : Nat) : State := threadFault u t c
    let done (v : State) : State := threadDone v t 4
    let gives (v : State) (i : Ins) (w : Word) : State := done (v.setTreg t i.rd w)
    let waits (i : Ins) : State := threadBlock u t 6 (id i)
    let enabled (n : Nat) : Bool := (s.reg (KPORT_EN (n / 16))).getLsbD (n % 16)
    let others (n : Nat) : Prop := s.bit (KPORT_CFG n) KPORT_CFG_owned = true ∧ s.fld (KPORT_CFG n) KPORT_CFG_owner ≠ t.val
    let usable (i : Ins) (n : Nat) : Prop := id i = 256 + n ∧ n < 96 ∧ enabled n = true ∧ ¬ others n
    let port (n : Nat) : Port := s.kport n
    let x (i : Ins) : Nat := (val i).toNat
    let onPort : List (Instr × Ins) := [(.portIn a cc arg, in_), (.portOut a cc arg, out), (.pts a cc arg, pts), (.pcfgMode a cc arg, pcfg 0),
      (.pcfgCondition a cc arg, pcfg 1), (.pcfgCompare a cc arg, pcfg 2), (.pcfgOutputTime a cc arg, pcfg 3), (.pcfgClock a cc arg, pcfg 4),
      (.pcfgWidth a cc arg, pcfg 5)]
    let onBlock : List (Instr × Nat) := [(.pcfgCbSource a cc arg, 0), (.pcfgCbGate a cc arg, 1), (.pcfgCbHigh a cc arg, 2), (.pcfgCbLow a cc arg, 3)]
    (∀ r ∈ onPort, s.issues a r.2 →
      (id r.2 / 256 ≠ 1 ∧ id r.2 / 256 ≠ 5 ∨ id r.2 / 256 = 1 ∧ 96 ≤ id r.2 % 256 → Does r.1 s (fails 4)) ∧
      (∀ n, id r.2 = 256 + n → n < 96 → enabled n = false → Does r.1 s (fails 11)) ∧
      (∀ n, id r.2 = 256 + n → n < 96 → enabled n = true → others n → Does r.1 s (fails 12))) ∧
    (∀ n, s.issues a in_ → usable in_ n →
      let c : Instr := .portIn a cc arg
      let level : Word := if s.portLevel n = true then 1 else 0
      (s.portMode n = 0 ∨ s.portMode n = 4 → Does c s (fails 14)) ∧
      (s.portDrives n = true → Does c s (gives u in_ level)) ∧
      (s.portMode n = 1 → s.portWidth n = 0 → s.portCond n = 0 → Does c s (gives u in_ level)) ∧
      (∀ (b : Bool) (k : Capture), s.portMode n = 1 → s.portWidth n = 0 → s.portCond n ≠ 0 → (port n).met = some (b, k) →
        Does c s (gives ((u.setKport n { port n with met := none, latch := some k }).setFld (KPORT_CFG n) KPORT_CFG_cond 0) in_ (if b = true then 1 else 0))) ∧
      (s.portMode n = 1 → s.portWidth n = 0 → s.portCond n ≠ 0 → (port n).met = none → Does c s (waits in_)) ∧
      (∀ w, s.portMode n = 1 → s.portWidth n ≠ 0 → (port n).xfer = some w →
        Does c s (gives (u.setKport n { port n with xfer := none, latch := (port n).xcap }) in_ (BitVec.ofNat 32 w))) ∧
      (s.portMode n = 1 → s.portWidth n ≠ 0 → (port n).xfer = none → Does c s (waits in_))) ∧
    (∀ n, s.issues a out → usable out n →
      let c : Instr := .portOut a cc arg
      let free : Prop := (port n).pend = none ∧ (s.portWidth n ≠ 0 → (port n).outTime = none → (port n).xfer = none) ∧
        (s.portWidth n = 0 → s.gateMet n = true)
      let held : Prop := s.outHeld n = true
      let v := if s.portWidth n = 0 then u.setFld (KPORT_CFG n) KPORT_CFG_cond 0 else u
      (s.portDrives n = false → Does c s (fails 14)) ∧
      (s.portDrives n = true → held → Does c s (done (v.setKport n { port n with outTime := none }))) ∧
      (s.portDrives n = true → ¬ held → ¬ free → Does c s (waits out)) ∧
      (s.portDrives n = true → ¬ held → free → (port n).outTime = none → Does c s (done (applyOut v n (x out)))) ∧
      (∀ time, s.portDrives n = true → ¬ held → free → (port n).outTime = some time → Does c s (done (timedOut v n time (x out))))) ∧
    (∀ (w : State) (n time word : Nat),
      let d := w.timeAhead n time
      let set := w.setKport n { w.kport n with outTime := none }
      (d = 0 → timedOut w n time word = placeOut set n time word) ∧
      (32768 ≤ d → timedOut w n time word = placeOut (portLate set n) n time word) ∧
      (0 < d → d < 32768 → timedOut w n time word = set.setKport n { set.kport n with pend := some (time, word) })) ∧
    (∀ n, s.issues a pts → usable pts n →
      let c : Instr := .pts a cc arg
      (s.portMode n = 0 → Does c s (fails 14)) ∧
      (∀ k : Capture, s.portMode n ≠ 0 → (if s.portDrives n = true then (port n).outCap else (port n).latch) = some k →
        Does c s (gives u pts (BitVec.ofNat 32 (k.tb * 65536 + k.timer)))) ∧
      (s.portMode n ≠ 0 → (if s.portDrives n = true then (port n).outCap else (port n).latch) = none →
        Does c s (gives { u with free := s.free + 1 } pts (Config.freeWord s.free)))) ∧
    (∀ n, s.issues a (pcfg 0) → usable (pcfg 0) n →
      let c : Instr := .pcfgMode a cc arg
      let bad := 5 ≤ x (pcfg 0) % 8 ∨ x (pcfg 0) / 64 % 4 ≠ 0 ∨ 2 ^ 15 ≤ x (pcfg 0)
      (bad → Does c s (fails 13)) ∧
      (¬ bad → Completes c s (fun v => v.fld (KPORT_CFG n) KPORT_CFG_mode = x (pcfg 0) % 8 ∧ v.fld (KPORT_CFG n) KPORT_CFG_cond = 0 ∧
        (v.thr t).pc = (s.thr t).pc + 4))) ∧
    (∀ n, s.issues a (pcfg 1) → usable (pcfg 1) n →
      let c : Instr := .pcfgCondition a cc arg
      let fits := x (pcfg 1) ≤ 5 ∧ (x (pcfg 1) = 0 ∨ s.portMode n = 1 ∧ s.portWidth n = 0 ∨ s.portDrives n = true ∧ s.portWidth n = 0 ∧ x (pcfg 1) < 3)
      (¬ fits → Does c s (fails 13)) ∧
      (fits → Does c s (done (armCond ((u.setFld (KPORT_CFG n) KPORT_CFG_cond (x (pcfg 1))).setKport n { port n with met := none }) n)))) ∧
    (∀ n, s.issues a (pcfg 2) → usable (pcfg 2) n →
      let c : Instr := .pcfgCompare a cc arg
      let w := x (pcfg 2)
      let bad := w / 2 % 128 ≠ 0 ∨ w.testBit 15 = true ∨ 96 ≤ w / 256 % 128
      (bad → Does c s (fails 13)) ∧
      (¬ bad → Does c s (done (armCond (u.setKport n { port n with cmpLevel := w.testBit 0, cmpGate := w / 256 % 128, cmpTime := w / 65536 % 65536 }) n)))) ∧
    (∀ n, s.issues a (pcfg 3) → usable (pcfg 3) n →
      let c : Instr := .pcfgOutputTime a cc arg
      (2 ^ 16 ≤ x (pcfg 3) ∨ s.portDrives n = false → Does c s (fails 13)) ∧
      (x (pcfg 3) < 2 ^ 16 → s.portDrives n = true → (port n).pend ≠ none → Does c s (waits (pcfg 3))) ∧
      (x (pcfg 3) < 2 ^ 16 → s.portDrives n = true → (port n).pend = none →
        Does c s (done (u.setKport n { port n with outTime := some (x (pcfg 3)) })))) ∧
    (∀ n, s.issues a (pcfg 4) → usable (pcfg 4) n →
      (8 < x (pcfg 4) → Does (.pcfgClock a cc arg) s (fails 13)) ∧
      (x (pcfg 4) ≤ 8 → Does (.pcfgClock a cc arg) s (done (setPortTimer ((portRestart u n).setFld (KPORT_CFG n) KPORT_CFG_clock (x (pcfg 4))) n (s.portTimer n))))) ∧
    (∀ n, s.issues a (pcfg 5) → usable (pcfg 5) n →
      (3 < x (pcfg 5) → Does (.pcfgWidth a cc arg) s (fails 13)) ∧
      (x (pcfg 5) ≤ 3 → Does (.pcfgWidth a cc arg) s (done ((portRestart u n).setFld (KPORT_CFG n) KPORT_CFG_width (x (pcfg 5)))))) ∧
    (∀ r ∈ onBlock, s.issues a (pcfg r.2) → id (pcfg r.2) / 256 = 5 → 8 ≤ id (pcfg r.2) % 256 → Does r.1 s (fails 4)) ∧
    (∀ r ∈ onBlock, ∀ k < 8, s.issues a (pcfg r.2) → id (pcfg r.2) = 1280 + k →
      let w := x (pcfg r.2)
      let busy := s.clockBusy k = true ∧ r.2 ≠ 1
      let bad := match r.2 with
        | 0 => w / 128 % 32 ≠ 0 ∨ 2 ^ 16 ≤ w ∨ 96 ≤ w % 128 ∨ (w.testBit 14 = true ∧ s.portMode (w % 128) ≠ 1)
        | 1 => 256 ≤ w ∨ w.testBit 7 = true ∧ 96 ≤ w % 128
        | _ => w < 4 ∨ 32767 < w
      let set := match r.2 with
        | 0 =>
          let cut := if w.testBit 14 = true ∧ s.bit (KPORT_CB k) KPORT_CB_pin_src = false then u.setClk k { u.clk k with phase := none, stop := false } else u
          clockRun (((cut.setBit (KPORT_CB k) KPORT_CB_pin_src (w.testBit 14)).setFld (KPORT_CB k) KPORT_CB_pre (w / 4096 % 4)).setFld
            (KPORT_CB k) KPORT_CB_src_port (w % 128)) k (w.testBit 15)
        | 1 => u.setFld (KPORT_CB k) KPORT_CB_gate_port (if w.testBit 7 = true then w % 128 else 0x7F)
        | 2 => u.setFld (KPORT_CB_TIME k) KPORT_CB_TIME_hi w
        | _ => u.setFld (KPORT_CB_TIME k) KPORT_CB_TIME_lo w
      (bad → Does r.1 s (fails 13)) ∧ (¬ bad → busy → Does r.1 s (fails 15)) ∧ (¬ bad → ¬ busy → Does r.1 s (done set)))

/-- CIN_DATA, CIN_CONTROL, COUT_DATA, COUT_CONTROL, COUT_END, GETCH, FREECH and ROUTE (R272, R277 to R282, R286). -/
def Obligations.ChannelInstructionsMoveTokens : Prop :=
  ∀ (s : State) (t : Fin 64) (cc : BitVec 4) (arg : BitVec 20),
    let a : Agent := .thread t
    let u := s.slotUsed
    let cd := threadOp cc arg 0x3C 8 0
    let ck := threadOp cc arg 0x3C 0xC 8
    let od := threadOp cc arg 0x3D 8 0
    let ok := threadOp cc arg 0x3D 0xC 8
    let oe := threadOp cc arg 0x3D 0xC 0xC
    let gc := threadOp cc arg 0x3E 0xF 6
    let fc := threadOp cc arg 0x3E 0xF 7
    let ro := threadOp cc arg 0x3E 0xF 8
    let id (i : Ins) : Nat := (s.treg t i.ra).toNat
    let val (i : Ins) : Nat := (s.treg t i.rb).toNat
    let fails (c : Nat) : State := threadFault u t c
    let done (v : State) : State := threadDone v t 4
    let waits (v : State) (code : Nat) (i : Ins) : State := threadBlock v t code (id i)
    let owned (i : Ins) (e : Nat) : Prop := id i = 512 + e ∧ e < 128 ∧ (s.chEnd e).alloc = true ∧ (s.chEnd e).owner = t.val
    let after (e : Nat) (buf : List Nat) : State := pumpAborts (u.setEnd e { s.chEnd e with buf := buf })
    let gives (v : State) (i : Ins) (w : Nat) (z : Bool) : State :=
      let v := v.setTreg t i.rd (BitVec.ofNat 32 w)
      done (setTflags v t { (v.thr t).flags with z := z })
    let data (e : Nat) : List Nat := (s.chEnd e).buf.takeWhile (fun w => tokClass w == 0)
    let need : Nat := if cd.kind = 0 then 4 else 1
    let onEnd : List (Instr × Ins) := [(.cinData a cc arg, cd), (.cinControl a cc arg, ck), (.coutData a cc arg, od), (.coutControl a cc arg, ok),
      (.coutEnd a cc arg, oe), (.freech a cc arg, fc), (.route a cc arg, ro)]
    let sends : List (Instr × Ins × List Nat) := [(.coutData a cc arg, od, if od.kind = 0 then (leBytes 4 (val od)).map BitVec.toNat else [val od % 256]),
      (.coutControl a cc arg, ok, [0x100 + val ok]), (.coutEnd a cc arg, oe, [0x200])]
    (∀ r ∈ onEnd, s.issues a r.2 →
      (id r.2 / 256 ≠ 2 ∨ 128 ≤ id r.2 % 256 → Does r.1 s (fails 4)) ∧
      (∀ e < 128, id r.2 = 512 + e → (s.chEnd e).alloc = false ∨ (s.chEnd e).owner ≠ t.val → Does r.1 s (fails 5))) ∧
    (∀ e, s.issues a cd → owned cd e →
      (need ≤ (data e).length → Does (.cinData a cc arg) s
        (gives (after e ((s.chEnd e).buf.drop need)) cd (leOf (((data e).take need).map (BitVec.ofNat 8))) false)) ∧
      ((data e).length < need → (data e).length < (s.chEnd e).buf.length → Does (.cinData a cc arg) s
        (gives (after e ((s.chEnd e).buf.drop (data e).length)) cd 0 true)) ∧
      ((data e).length < need → (data e).length = (s.chEnd e).buf.length → Does (.cinData a cc arg) s (waits u 1 cd))) ∧
    (∀ e, s.issues a ck → owned ck e →
      ((s.chEnd e).buf = [] → Does (.cinControl a cc arg) s (waits u 1 ck)) ∧
      (∀ w rest, (s.chEnd e).buf = w :: rest →
        (tokClass w = 0 → Does (.cinControl a cc arg) s (gives u ck 0 true)) ∧
        (tokClass w ≠ 0 → Does (.cinControl a cc arg) s (gives (after e rest) ck w false)))) ∧
    (∀ e, s.issues a ok → owned ok e → 256 ≤ val ok → Does (.coutControl a cc arg) s (fails 6)) ∧
    (∀ r ∈ sends, ∀ e, s.issues a r.2.1 → owned r.2.1 e → ¬ (r.2.1 = ok ∧ 256 ≤ val ok) →
      let x := s.chEnd e
      (x.dest = none → Does r.1 s (fails 4)) ∧
      (∀ v, x.dest = some v →
        let d := destOf v
        let unheld := x.out = false ∧ d < 256 ∧ (s.chEnd d).alloc = false
        let p := takeDest u e d r.2.2.length
        let sent := noteSource (launch p.1 e (some t.val) d r.2.2) d e
        (unheld → Does r.1 s (fails 5)) ∧
        (¬ unheld → p.2 = false → Does r.1 s (waits p.1 2 r.2.1)) ∧
        (¬ unheld → p.2 = true → Does r.1 s (done (if r.2.2.any isMarker = true then closeOut sent e else sent.setEnd e { sent.chEnd e with out := true }))))) ∧
    (s.issues a gc →
      let open_ (e : Nat) : Prop := (s.chEnd e).alloc = false ∧ s.routeInto e = none ∧ (s.chEnd e).out = false
      (∀ e < 128, open_ e → (∀ f < e, ¬ open_ f) →
        Does (.getch a cc arg) s (done ((u.setEnd e { ChEnd.init with alloc := true, owner := t }).setTreg t gc.rd (BitVec.ofNat 32 (512 + e))))) ∧
      ((∀ e < 128, ¬ open_ e) → Does (.getch a cc arg) s (done (u.setTreg t gc.rd 0xFFFFFFFF)))) ∧
    (∀ e, s.issues a fc → owned fc e →
      (s.endBusy e = true → Does (.freech a cc arg) s (fails 10)) ∧ (s.endBusy e = false → Does (.freech a cc arg) s (done (freeEnd u e)))) ∧
    (∀ e, s.issues a ro → owned ro e →
      let v := val ro
      let bad := v.testBit 8 = true ∧ v - v % 16 ≠ 256 ∨ v.testBit 8 = false ∧ 128 ≤ v ∨ v = e
      (bad → Does (.route a cc arg) s (fails 4)) ∧
      (¬ bad → (s.chEnd e).out = true → Does (.route a cc arg) s (done (u.setEnd e { s.chEnd e with held := some v }))) ∧
      (¬ bad → (s.chEnd e).out = false → Does (.route a cc arg) s (done ((dropSender u e).setEnd e { s.chEnd e with dest := some v }))))

/-- FORK, JOIN, LOCK, UNLOCK, TEXIT, TID, EWAIT, EARM, EDIS and ECLR (R239, R272 to R275, R284 to R286, R307, R346). -/
def Obligations.ThreadsForkJoinLockAndWaitForEvents : Prop :=
  ∀ (s : State) (t : Fin 64) (cc : BitVec 4) (arg : BitVec 20),
    let a : Agent := .thread t
    let u := s.slotUsed
    let sub (n : Nat) : Ins := threadOp cc arg 0x3E 0xF n
    let ev (n : Nat) : Ins := threadOp cc arg 0x3F 0xF n
    let ra (i : Ins) : Nat := (s.treg t i.ra).toNat
    let fails (c : Nat) : State := threadFault u t c
    let done (v : State) : State := threadDone v t 4
    let gives (v : State) (i : Ins) (w : Word) : State := done (v.setTreg t i.rd w)
    let waits (v : State) (code res : Nat) : State := threadBlock v t code res
    (s.issues a (sub 0) →
      let pooled (n : Nat) : Prop := (s.reg (if n < 32 then KIND_POOL_LO else KIND_POOL_HI)).getLsbD (n % 32) = true ∧ (s.thr n).state = .free
      let regs : List (Nat × Word) := smSet (fun _ => 0) (smSet (fun _ => 0) [] 0 (BitVec.ofNat 32 (1024 + t))) 13 (s.treg t (sub 0).rb)
      let child (n : Nat) : Thr := { Thr.init with state := .ready, pc := s.treg t (sub 0).ra &&& 0xFFFFFFFE, parent := some t, issued := (s.thr n).issued, g := regs }
      (∀ n < 64, pooled n → (∀ m < n, ¬ pooled m) → Does (.fork a cc arg) s (gives (u.setThr n (child n)) (sub 0) (BitVec.ofNat 32 (1024 + n)))) ∧
      ((∀ n < 64, ¬ pooled n) → Does (.fork a cc arg) s (gives u (sub 0) 0xFFFFFFFF))) ∧
    (s.issues a (sub 1) →
      let id := ra (sub 1)
      (id / 256 ≠ 4 ∨ 64 ≤ id % 256 → Does (.join a cc arg) s (fails 4)) ∧
      (∀ n < 64, id = 1024 + n → (s.thr n).parent ≠ some t.val → Does (.join a cc arg) s (fails 8)) ∧
      (∀ n < 64, id = 1024 + n → (s.thr n).parent = some t.val → (s.thr n).state = .free → Does (.join a cc arg) s (done u)) ∧
      (∀ n < 64, id = 1024 + n → (s.thr n).parent = some t.val → (s.thr n).state ≠ .free → Does (.join a cc arg) s (waits u 4 id))) ∧
    (s.issues a (sub 2) →
      let id := ra (sub 2)
      (id / 256 ≠ 3 ∨ 32 ≤ id % 256 → Does (.lock a cc arg) s (fails 4)) ∧
      (∀ l < 32, id = 768 + l →
        let x := s.lock l
        let waited := (s.thr t).wait = 3 ∧ (s.thr t).res = id
        (x.holder = some t.val → waited → Does (.lock a cc arg) s (done u)) ∧
        (x.holder = some t.val → ¬ waited → Does (.lock a cc arg) s (fails 7)) ∧
        (x.holder = none → Does (.lock a cc arg) s (done (u.setLock l ⟨some t, x.waiters.filter (· != t.val)⟩))) ∧
        (∀ o, x.holder = some o → o ≠ t.val →
          Does (.lock a cc arg) s (waits (u.setLock l ⟨some o, if t.val ∈ x.waiters then x.waiters else x.waiters ++ [t.val]⟩) 3 id)))) ∧
    (s.issues a (sub 3) →
      let id := ra (sub 3)
      (id / 256 ≠ 3 ∨ 32 ≤ id % 256 → Does (.unlock a cc arg) s (fails 4)) ∧
      (∀ l < 32, id = 768 + l →
        ((s.lock l).holder ≠ some t.val → Does (.unlock a cc arg) s (fails 7)) ∧
        ((s.lock l).holder = some t.val → Does (.unlock a cc arg) s (done (u.setLock l ⟨(s.lock l).waiters.head?, (s.lock l).waiters.drop 1⟩))))) ∧
    (s.issues a (sub 4) →
      let holds := (∃ l < 32, (s.lock l).holder = some t.val) ∨ ∃ e < 128, (s.chEnd e).alloc = true ∧ (s.chEnd e).owner = t.val ∧ s.endBusy e = true
      (holds → Does (.texit a cc arg) s (fails 10)) ∧
      (¬ holds → ∃ v, v = (threadFree u t).count (KIND_T_ISSUE t) KIND_T_ISSUE_count ∧ (v.thr t).state = .free ∧ (v.thr t).parent = (s.thr t).parent ∧
        Does (.texit a cc arg) s { v with kind := { v.kind with armed := true } })) ∧
    (s.issues a (sub 5) → Does (.tid a cc arg) s (gives u (sub 5) (BitVec.ofNat 32 (1024 + t)))) ∧
    (s.issues a (ev 0) →
      let armed := (s.thr t).events
      (armed = [] → Does (.ewait a cc arg) s (fails 9)) ∧
      (armed ≠ [] → (∀ e ∈ armed, s.eventReady e.1 = false) → Does (.ewait a cc arg) s (waits u 5 0)) ∧
      (∀ pre id vec post, armed = pre ++ (id, vec) :: post → (∀ e ∈ pre, s.eventReady e.1 = false) → s.eventReady id = true →
        Does (.ewait a cc arg) s
          (gives (if id / 256 = 7 then u.setReg KIND_DB (s.reg KIND_DB &&& ~~~(1#32 <<< (id % 256))) else u) (ev 0) vec))) ∧
    (
      let x := s.thr t
      (∀ c, s.issues a (ev 1) → armUse s t (s.treg t (ev 1).ra) true = .error c → Does (.earm a cc arg) s (fails c)) ∧
      (∀ id, s.issues a (ev 1) → armUse s t (s.treg t (ev 1).ra) true = .ok id → 8 ≤ (smErase x.events id).length → Does (.earm a cc arg) s (fails 9)) ∧
      (∀ id, s.issues a (ev 1) → armUse s t (s.treg t (ev 1).ra) true = .ok id → (smErase x.events id).length < 8 →
        Does (.earm a cc arg) s (done (u.setThr t { x with events := smInsert id (s.treg t (ev 1).rb) (smErase x.events id) }))) ∧
      (∀ c, s.issues a (ev 2) → armUse s t (s.treg t (ev 2).ra) false = .error c → Does (.edis a cc arg) s (fails c)) ∧
      (∀ id, s.issues a (ev 2) → armUse s t (s.treg t (ev 2).ra) false = .ok id → Does (.edis a cc arg) s (done (u.setThr t { x with events := smErase x.events id }))) ∧
      (s.issues a (ev 3) → Does (.eclr a cc arg) s (done (u.setThr t { x with events := [] }))))

/-- SLOT_ISSUE, SLOT_TABLE_SWITCH, THREAD_START, THREAD_FREE, TOKEN_DELIVER, KEND_RX_READ, KEND_TX_WRITE, KEND_TX_SEND, CHANNEL_ABANDON and
STALL_DETECT (R267 to R269, R276, R280, R281, R283, R287, R289 to R291, R553). -/
def Obligations.KindlingSlotsThreadsAndTokensMove : Prop :=
  ∀ s : State,
    let on : Prop := s.blkOn 14 = true
    let next := s.fld KIND_CTRL KIND_CTRL_next
    let c := slotTableSwitch (clockCycle (landStores (stallCount s) (fun e => e.due ≤ s.kind.cyc)))
    let cyc := c.kind.cyc
    let slotted (t : Nat) (b : Bool) : State := { c with kind := { c.kind with borrower := if b = true then t else c.kind.borrower, cyc := cyc + 1 } }
    (¬ on → Does .slotIssue s s ∧ Does .slotTableSwitch s s) ∧
    (∀ t, c.slotEntry c.curTable cyc = some t → c.eligible t = true → c.slotFor = some (t, false)) ∧
    (on → c.slotFor = none → Does .slotIssue s { c with kind := { c.kind with slot := none, cyc := cyc + 1 } }) ∧
    (∀ t b, on → c.slotFor = some (t, b) → (c.thr t).halt = true →
      let v := (slotted t b).setThr t { c.thr t with state := .halted, before := (c.thr t).state, halt := false }
      Does .slotIssue s { v with kind := { v.kind with slot := none } }) ∧
    (∀ t b, on → c.slotFor = some (t, b) → (c.thr t).halt = false →
      let v := (slotted t b).setThr t { c.thr t with issued := some cyc }
      let g : State := { v with kind := { v.kind with slot := some t } }
      (g.threadFetchFault t = none → Does .slotIssue s g) ∧
      (∀ w, g.threadFetchFault t = some w → Does .slotIssue s (threadFault { g with kind := { g.kind with slot := none } } t w))) ∧
    (s.kind.cyc % 128 ≠ 0 ∨ next = s.curTable → Does .slotTableSwitch s s) ∧
    (on → s.kind.cyc % 128 = 0 → next ≠ s.curTable → s.tableOk next = true → Does .slotTableSwitch s (s.setFld KIND_CTRL KIND_CTRL_cur next)) ∧
    (on → s.kind.cyc % 128 = 0 → next ≠ s.curTable → s.tableOk next = false → Does .slotTableSwitch s (s.setBit KIND_CTRL KIND_CTRL_bad_table true)) ∧
    (∀ t : Fin 64,
      let x := s.thr t
      let regs : List (Nat × Word) := smSet (fun _ => 0) (smSet (fun _ => 0) [] 0 0xFFFFFFFF) 13 (s.reg (KIND_T_SP t))
      (x.state = .free → on → Does (.threadStart t) s
        (s.setThr t { Thr.init with state := .ready, pc := s.reg (KIND_T_PC t) &&& 0xFFFFFFFE, parent := none, issued := x.issued, g := regs })) ∧
      (x.state ≠ .free ∨ ¬ on → Does (.threadStart t) s (s.setBit (KIND_T_CTRL t) KIND_T_CTRL_refused true)) ∧
      (x.state = .halted ∨ x.state = .faulted → Completes (.threadFree t) s (fun v => (v.thr t).state = .free ∧ (v.thr t).parent = x.parent ∧
        (v.reg (if t.val < 32 then KIND_FAULTED_LO else KIND_FAULTED_HI)).getLsbD (t % 32) = false ∧ ∀ l < 32, (v.lock l).holder ≠ some t.val)) ∧
      (x.state ≠ .halted → x.state ≠ .faulted → Does (.threadFree t) s (s.setBit (KIND_T_CTRL t) KIND_T_CTRL_refused true))) ∧
    (∀ d : Fin 272, takeFirst d s.kind.flight = none → Does (.tokenDeliver d) s s) ∧
    (∀ (d : Fin 272) (f : Flying) rest, takeFirst d s.kind.flight = some (f, rest) →
      let w := f.tok
      let v := landStores { s with kind := { s.kind with flight := rest } } (fun e => f.thr == some e.thr && decide (e.num < f.after))
      let freed (q : State) : State := pumpAborts (if isMarker w = true ∧ q.keepsDest f.src d = false then grantNext q d else q)
      let k := d.val - 256
      let id := 16 + f.thr.getD (v.chEnd f.src).owner
      let q := trace (v.setKEnd k { v.kEnd k with rx := (v.kEnd k).rx ++ [w], ids := (v.kEnd k).ids ++ (if isMarker w = true then [id] else []) }) 4 k w 0
      let told : State := { q with kind := { q.kind with arrived := enterArrival q.kind.arrived ⟨k, f.src, q.fw.bind.lookup f.src, q.kind.cyc⟩ } }
      (d.val < 256 → (v.chEnd d).alloc = true →
        Does (.tokenDeliver d) s (freed (v.setEnd d { v.chEnd d with buf := (v.chEnd d).buf ++ [w] }))) ∧
      (d.val < 256 → (v.chEnd d).alloc = false → Does (.tokenDeliver d) s (freed v)) ∧
      (256 ≤ d.val → isMarker w = true ∧ q.agentOn k = false → Does (.tokenDeliver d) s (freed (raisePulse told 70))) ∧
      (256 ≤ d.val → ¬ (isMarker w = true ∧ q.agentOn k = false) → Does (.tokenDeliver d) s (freed q))) ∧
    (∀ k : Fin 16,
      let x := s.kEnd k
      (s.agentOn k = true ∨ x.rx = [] → Does (.kendRxRead k) s (hostSees s 0x80000000 false false)) ∧
      (∀ w rest, s.agentOn k = false → x.rx = w :: rest →
        let taken := pumpAborts (s.setKEnd k { x with rx := rest, ids := if isMarker w = true then x.ids.drop 1 else x.ids })
        Does (.kendRxRead k) s (hostSees (if isMarker w = true then { taken with kind := { taken.kind with
          arrived := taken.kind.arrived.eraseP (fun a => a.kend == k.val) } } else taken) (BitVec.ofNat 32 w).toNat false false)) ∧
      (∀ w : BitVec 10,
        let full := s.agentOn k = true ∨ 64 ≤ x.tx.length ∨ tokClass w.toNat = 3
        (full → Does (.kendTxWrite k w) s (s.setBit (KIND_KEND_STAT k) KIND_KEND_STAT_tx_ovf true)) ∧
        (¬ full → Does (.kendTxWrite k w) s (s.setKEnd k { x with tx := x.tx ++ [w.toNat] }))) ∧
      (x.tx = [] → Does (.kendTxSend k) s s) ∧
      (∀ w rest, x.tx = w :: rest →
        let d := s.kendDest k
        let p := takeDest s (128 + k) d 1
        let closed := x.out = false ∧ (s.chEnd d).alloc = false
        (closed → s.agentOn k = false → Does (.kendTxSend k) s s) ∧
        (closed → s.agentOn k = true → Does (.kendTxSend k) s
          ((s.setKEnd k { x with tx := (x.tx.dropWhile (fun w => !isMarker w)).drop 1 }).count MBX_AGENT MBX_AGENT_bad)) ∧
        (¬ closed → p.2 = false → Does (.kendTxSend k) s p.1) ∧
        (¬ closed → p.2 = true → Does (.kendTxSend k) s ((launch p.1 (128 + k) none d [w]).setKEnd k { x with tx := rest, dest := d, out := !isMarker w })))) ∧
    (∀ e : Fin 128,
      let x := s.chEnd e
      let may := x.alloc = true ∧ x.out = true ∧ ((s.thr x.owner).state = .halted ∨ (s.thr x.owner).state = .faulted)
      (may → Does (.channelAbandon e) s (pumpAborts (s.setEnd e { x with abort := true }))) ∧
      (¬ may → Does (.channelAbandon e) s (s.setBit KIND_ABANDON KIND_ABANDON_refused true))) ∧
    (let live (t : Nat) : Prop := t < 64 ∧ (s.thr t).state ≠ .free
     let stalled := on ∧ s.bit KIND_CTRL KIND_CTRL_stall_en = true ∧ s.kind.armed = true ∧ (∃ t, live t) ∧
       ∀ t, live t → s.stallBlocked t = true ∧ 1024 ≤ (s.thr t).calm
     (¬ stalled → Does .stallDetect s s) ∧
     (stalled → Completes .stallDetect s (fun v => v.bit KIND_STALL KIND_STALL_fired = true ∧ v.kind.armed = false ∧
       ∀ t < 64, v.reg (KIND_SNAP t) = s.threadStat t)))

/-- PORT_CONDITION_MET, PORT_WORD_IN, PORT_WORD_BOUNDARY, PORT_TIMED_OUTPUT, FILTER_PULSE_LOST, PORT_CONTENTION, ACTUATOR_TRIP and KPORT_LOCK_SET
(R298 to R306, R309, R310). -/
def Obligations.PortEventsMeetConditionsAndTimes : Prop :=
  ∀ (s : State) (n : Fin 96) (timer : BitVec 16),
    let p := s.kport n
    let ticks := s.portTicks n = true
    let at_ := setPortTimer s n timer.toNat
    let q := at_.kport n
    let miss (v : State) : State := v.count (KPORT_MISS n) KPORT_MISS_port_miss
    let now : Capture := ⟨timer.toNat, s.tb % 65536⟩
    (at_.captureNow n = now) ∧
    (∀ pin : Bool,
      let level := pin && s.pinSeen 1 n
      let c := s.portCond n
      let seen := portNow s n timer.toNat level
      let meets := s.portMode n = 1 ∧ s.portWidth n = 0 ∧ c ≠ 0 ∧ p.met = none ∧
        (((c = 1 ∨ c = 4) ∧ level = p.cmpLevel) ∨ ((c = 2 ∨ c = 5) ∧ level ≠ p.cmpLevel) ∨ (3 ≤ c ∧ seen.portTimer n = p.cmpTime))
      (¬ ticks → Does (.portConditionMet n timer pin) s s) ∧
      (s.portLevel n = level → seen = padSeen (at_.setKport n { q with level := level }) n level ∧ seen.captureNow n = now) ∧
      (ticks → meets → Does (.portConditionMet n timer pin) s (seen.setKport n { seen.kport n with met := some (level, seen.captureNow n) })) ∧
      (ticks → ¬ meets → Does (.portConditionMet n timer pin) s seen)) ∧
    (∀ bits : List Bool,
      let fits := ticks ∧ s.portMode n = 1 ∧ s.portWidth n ≠ 0 ∧ bits.length = s.portBits n
      let w := inWord (s.bit (KPORT_CFG n) KPORT_CFG_msb_first) (bits.map (· && s.pinSeen 1 n))
      (¬ fits → Does (.portWordIn n timer bits) s s) ∧
      (fits → p.xfer ≠ none → Does (.portWordIn n timer bits) s (miss (at_.setBit (KPORT_STAT n) KPORT_STAT_overrun true))) ∧
      (fits → p.xfer = none → Does (.portWordIn n timer bits) s (at_.setKport n { q with xfer := some w, xcap := some now }))) ∧
    (let out : Prop := ticks ∧ s.portDrives n = true ∧ s.portWidth n ≠ 0
     let last (w : Nat) := some (s.sentBit n w (s.portBits n - 1))
     (¬ out ∨ p.shift = none → Does (.portWordBoundary n timer) s s) ∧
     (∀ w started next, out → p.shift = some (w, started) → p.xfer = some next →
       let u := loadShift (at_.setKport n { q with shift := none, xfer := none, drive := last w }) n next
       (p.due = false ∨ p.pend = none → Does (.portWordBoundary n timer) s u) ∧
       (∀ time late, p.due = true → p.pend = some (time, late) →
         (u.kport n).due = true ∧ (u.kport n).pend = some (time, late) ∧
         Does (.portWordBoundary n timer) s (bufferOut (u.setKport n { u.kport n with pend := none, due := false }) n late))) ∧
     (∀ w started, out → p.shift = some (w, started) → p.xfer = none →
       let u := at_.setKport n { q with shift := none, drive := last w }
       (s.gatedOn n = true → Does (.portWordBoundary n timer) s u) ∧
       (s.gatedOn n = false → Does (.portWordBoundary n timer) s (miss (u.setBit (KPORT_STAT n) KPORT_STAT_underrun true))))) ∧
    (¬ ticks ∨ p.due = true ∨ p.pend = none → Does (.portTimedOutput n) s s) ∧
    (∀ time w, ticks → p.due = false → p.pend = some (time, w) → Does (.portTimedOutput n) s (placeOut (setPortTimer s n time) n time w)) ∧
    (∀ (v : State) (time w : Nat),
      let full := v.portWidth n ≠ 0 ∧ (v.kport n).xfer ≠ none
      (full → placeOut v n time w = v.setKport n { v.kport n with pend := some (time, w), due := true }) ∧
      (¬ full → placeOut v n time w = applyOut (v.setKport n { v.kport n with pend := none, due := false }) n w)) ∧
    (let counts := s.portMode n ≠ 0 ∧ s.pinSeen 1 n = true ∧ ticks
     (¬ counts → Does (.filterPulseLost n) s s) ∧ (counts → Does (.filterPulseLost n) s (miss s))) ∧
    (∀ level : Bool,
      let differs := s.portDrives n = true ∧ s.fld (PIN_CFG n) PIN_CFG_func = 1 ∧ s.padDrive n = some (!level)
      (differs → Does (.portContention n level) s
        (raisePulse ((s.setBit (KPORT_STAT n) KPORT_STAT_contend true).count (KPORT_MISS n) KPORT_MISS_contend) 73)) ∧
      (¬ differs → Does (.portContention n level) s s)) ∧
    (let trips := s.isActuator n = true ∧ s.fld (PIN_CFG n) PIN_CFG_func = 1 ∧ s.fld (KPORT_ACT n) KPORT_ACT_maxon ≠ 0 ∧
       s.padDrive n = some (s.bit (KPORT_ACT n) KPORT_ACT_level)
     (trips → Does (.actuatorTrip n) s
       (raisePulse (((s.setBit (KPORT_STAT n) KPORT_STAT_trip true).count (KPORT_MISS n) KPORT_MISS_trips).setKport n { p.emptied with stopped := true }) 73)) ∧
     (¬ trips → Does (.actuatorTrip n) s s)) ∧
    Does .kportLockSet s (s.setBit KPORT_LOCK KPORT_LOCK_lock true)

/-- Pins, guards, banks, timebase, timers and monitor ADC (R317, R318, R320 to R324, R328, R329, R331, R333 to R335, R337, R338). That an operand gives the
levels of pins, the time for which they stand, the code of a conversion
and the pin-control cycles before a timer access is the model's form (assumptions 1, 34, 115 and 116). -/
def Obligations.PinsTimersAndAdcFollowTheirEvents : Prop :=
  ∀ (s : State) (n : Fin 96) (l : Fin 16) (g : Fin 4) (b : Fin 6) (v : Fin 4) (k : Fin 16) (p : Fin 4) (w : Word) (code : BitVec 12) (own other : Bool)
    (held after c d : Nat) (rest : List Nat),
    let st := PIN_GUARD_STAT
    let put (f : Fld) (on : Bool) : State := s.setFld st f (setBitOf (s.fld st f) g on)
    let pad := 16 * s.fld (PIN_EXTL l) PIN_EXTL_bank + l
    let lvl := s.bit (PIN_CFG pad) PIN_CFG_analog
    let shown := padSeen s pad own
    (s.pinOwner n = s.fld (PIN_CFG n) PIN_CFG_func → Does (.pinFunctionSwitch n) s s) ∧
    (s.pinOwner n ≠ s.fld (PIN_CFG n) PIN_CFG_func → Completes (.pinFunctionSwitch n) s (fun t =>
      t.fld (PIN_CFG n) PIN_CFG_func = s.pinOwner n ∧ t.bit (PIN_CFG n) PIN_CFG_retained = false ∧ RegsBut [PIN_CFG n] s t ∧ SameMem s t)) ∧
    (Completes (.bankSupplyChange b v) s (fun t => t.fld (PIN_BANK b) PIN_BANK_vdet = v.val ∧
      t.bit (PIN_BANK b) PIN_BANK_bad = (s.fld (PIN_BANK b) PIN_BANK_vsel != v.val) ∧ RegsBut [PIN_BANK b] s t ∧ SameMem s t)) ∧
    (lvl = false → Does (.extlLevelChange l own true) s (s.count (PIN_EXTL l) PIN_EXTL_miss)) ∧
    (lvl = false → own ≠ s.extLevel l → s.bit (PIN_EXTL l) PIN_EXTL_enable = false →
      Does (.extlLevelChange l own false) s { shown with extl := smSet (fun _ => false) s.extl l own }) ∧
    (lvl = false → own ≠ s.extLevel l → s.bit (PIN_EXTL l) PIN_EXTL_enable = true → 2 ≤ s.fld (INTC_SRC (32 + l)) INTC_SRC_sense →
      Does (.extlLevelChange l own false) s (edgeFire { shown with extl := smSet (fun _ => false) s.extl l own } (32 + l) own)) ∧
    (own = s.extLevel l → lvl = false → Does (.extlLevelChange l own false) s shown) ∧
    ((s.reg PIN_GUARD_CFG).getLsbD (8 * g + 7) = false → Does (.guardTrip g) s (put PIN_GUARD_STAT_level true)) ∧
    ((s.reg PIN_GUARD_CFG).getLsbD (8 * g + 7) = true → Completes (.guardTrip g) s (fun t =>
      (t.fld st PIN_GUARD_STAT_tripped).testBit g = true ∧ (t.fld st PIN_GUARD_STAT_level).testBit g = true ∧
      t.fld st PIN_GUARD_STAT_trips = (if (s.fld st PIN_GUARD_STAT_tripped).testBit g = true then s.fld st PIN_GUARD_STAT_trips else min 255 (s.fld st PIN_GUARD_STAT_trips + 1)) ∧
      (∀ m : Fin 96, s.isActuator m = true → (t.kport m).inactive = true) ∧ t.bit PIN_SAFE PIN_SAFE_safe_n = false ∧ RegsBut [st] s t ∧ SameMem s t)) ∧
    (Does (.guardInputInactive g) s (put PIN_GUARD_STAT_level false)) ∧
    (Does (.guardClear g) s (if (s.fld st PIN_GUARD_STAT_level).testBit g = true then put PIN_GUARD_STAT_clr_refused true else put PIN_GUARD_STAT_tripped false)) ∧
    (Completes .guardLock s (fun t => t.bit PIN_SAFE PIN_SAFE_lock = true ∧ RegsBut [] s t ∧ SameMem s t)) ∧
    (s.fld st PIN_GUARD_STAT_tripped ≠ 0 → Does (.safeReleaseWrite true) s s) ∧
    (own = false ∨ s.fld st PIN_GUARD_STAT_tripped = 0 → Completes (.safeReleaseWrite own) s (fun t => t.bit PIN_SAFE PIN_SAFE_release = own ∧ RegsBut [] s t ∧ SameMem s t)) ∧
    (s.bit TB_CTRL TB_CTRL_mono = true → w.msb = true → Does (.timebaseStep w) s (s.setBit TB_CTRL TB_CTRL_step_refused true)) ∧
    (s.bit TB_CTRL TB_CTRL_mono = false ∨ w.msb = false → Does (.timebaseStep w) s
      { s with tbSteps := s.tbSteps ++ [w.toInt] }) ∧
    (Completes (.timebasePairRead p) s (fun t => t.rd = ⟨s.tb % 2 ^ 32, false, false⟩ ∧ t.reg (TB_HI p) = BitVec.ofNat 32 (s.tb / 2 ^ 32) ∧ RegsBut [TB_HI p] s t ∧ SameMem s t)) ∧
    (let quiet := s.fld (TMR_CTRL k) TMR_CTRL_out_mode = 0
     let no (ev : Nat) := s.fld (TMR_CTRL k) TMR_CTRL_trig_sel ≠ ev
     let on := s.blkOn 37 = true
     let cnt := s.reg (TMR_CNT k)
     let top := s.reg (TMR_TOP k)
     let matched (u : State) : State := u.setBit (TMR_STAT k) TMR_STAT_match true
     let meets := on ∧ cnt = s.reg (TMR_CMP k) ∧ s.reg (TMR_CMP k) ≤ top
     let wrapped := (s.setReg (TMR_CNT k) 0).setBit (TMR_STAT k) TMR_STAT_wrap true
     (¬ meets → Does (.timerMatch k) s s) ∧ (meets → quiet → no 0 → Does (.timerMatch k) s (matched s)) ∧
     (s.tmrRun k = false ∨ cnt ≠ top → Does (.timerWrap k) s s) ∧
     (s.tmrRun k = true → cnt = top → quiet → no 1 → s.tmrSrc (k + 1) ≠ 3 →
       (s.reg (TMR_CMP k) ≠ 0 → Does (.timerWrap k) s wrapped) ∧ (s.reg (TMR_CMP k) = 0 → no 0 → Does (.timerWrap k) s (matched wrapped))) ∧
     (let u := pinCycles s after
      let on := u.blkOn 37 = true
      let cnt := u.reg (TMR_CNT k)
      let top := u.reg (TMR_TOP k)
      let late := u.bit (TMR_CTRL k) TMR_CTRL_late_fire = true
      let plain := u.fld (TMR_CTRL k) TMR_CTRL_out_mode = 0 ∧ u.fld (TMR_CTRL k) TMR_CTRL_trig_sel ≠ 0
      (on → w ≤ cnt → w ≤ top → late → plain →
        Does (.timerCmpWrite k w after) s (matched ((u.setReg (TMR_CMP k) w).setBit (TMR_STAT k) TMR_STAT_late true))) ∧
      (on → w = cnt → w ≤ top → ¬ late → plain → Does (.timerCmpWrite k w after) s (matched (u.setReg (TMR_CMP k) w))) ∧
      (¬ on ∨ cnt < w ∨ top < w ∨ (¬ late ∧ w ≠ cnt) → Does (.timerCmpWrite k w after) s (u.setReg (TMR_CMP k) w)) ∧
      (u.bit (TMR_STAT k) TMR_STAT_pending = true → Does (.timerCntRead k after) s
        { u.setBit (TMR_STAT k) TMR_STAT_pending false with rd := ⟨(u.timer k).shadow.toNat, false, false⟩ }) ∧
      (u.bit (TMR_STAT k) TMR_STAT_pending = false → u.tmrSrc (k + 1) ≠ 3 → Does (.timerCntRead k after) s { u with rd := ⟨cnt.toNat, false, false⟩ })) ∧
     (let period := 10 * 10 ^ s.fld (TMR_IN k) TMR_IN_fclk
      let samples := s.fld (TMR_IN k) TMR_IN_filt + 1
      let live := on ∧ s.inputLive k = true
      let edges := (s.timer k).edges + 1
      let due := edges % 2 ^ s.fld (TMR_IN k) TMR_IN_prescale = 0
      let caught (t : State) : Prop := t.reg (TMR_CAP k) = cnt ∧ (t.timer k).capTb = BitVec.ofNat 32 s.tb ∧ (t.timer k).edges = 0 ∧
        t.bit (TMR_STAT k) TMR_STAT_cap_full = true ∧
        t.bit (TMR_STAT k) TMR_STAT_cap_ovr = (s.bit (TMR_STAT k) TMR_STAT_cap_ovr || s.bit (TMR_STAT k) TMR_STAT_cap_full) ∧ SameMem s t
      (¬ live → Does (.timerCapture k ⟨own, other, held⟩) s s ∧ Does (.edgeOverrun k) s s) ∧
      (live → held < samples * period → held ≤ (samples - 1) * period →
        Does (.timerCapture k ⟨own, other, held⟩) s (s.setBit (TMR_STAT k) TMR_STAT_edge_ovr true)) ∧
      (live → samples * period ≤ held →
        (s.edgeSeen k own other = false → Does (.timerCapture k ⟨own, other, held⟩) s s) ∧
        (s.edgeSeen k own other = true → ¬ due → Does (.timerCapture k ⟨own, other, held⟩) s (s.setTimer k { s.timer k with edges := edges })) ∧
        (s.edgeSeen k own other = true → due → no 2 →
          (s.tmrRun k = false ∨ s.tmrSrc k ≠ 1 → Completes (.timerCapture k ⟨own, other, held⟩) s (fun t => caught t ∧ RegsBut [TMR_CAP k, TMR_STAT k] s t)) ∧
          (s.tmrRun k = true → s.tmrSrc k = 1 → cnt ≠ top → cnt + 1 ≠ s.reg (TMR_CMP k) → Completes (.timerCapture k ⟨own, other, held⟩) s (fun t =>
            caught t ∧ t.reg (TMR_CNT k) = cnt + 1 ∧ RegsBut [TMR_CAP k, TMR_CNT k, TMR_STAT k] s t)))) ∧
      (live → Does (.edgeOverrun k) s (s.setBit (TMR_STAT k) TMR_STAT_edge_ovr true))) ∧
     (Completes (.timerCapRead k) s (fun t => t.rd = ⟨(s.reg (TMR_CAP k)).toNat, false, false⟩ ∧ t.reg (TMR_CAP_TB k) = (s.timer k).capTb ∧
       t.bit (TMR_STAT k) TMR_STAT_cap_full = false ∧ RegsBut [TMR_CAP_TB k, TMR_STAT k] s t ∧ SameMem s t))) ∧
    (let busy := s.bit ADC_CTRL ADC_CTRL_busy
     (s.blkOn 38 = false → Does .adcStart s s) ∧
     (s.blkOn 38 = true → busy = false → s.adcMask ≠ [] → Does .adcStart s ({ s with adcTodo := s.adcMask }.setBit ADC_CTRL ADC_CTRL_busy true)) ∧
     (s.blkOn 38 = true → busy = true → Does .adcStart s (if s.adcHeld = true then s.setBit ADC_CTRL ADC_CTRL_seq_ovr true else { s with adcHeld := true })) ∧
     (s.adcTodo = [] → Does (.adcConversionDone code) s s) ∧
     (s.adcTodo = c :: d :: rest → c < 21 →
       let v := s.adcValue c code.toNat
       let inside := signed 16 (s.fld (ADC_LIM c) ADC_LIM_lo) ≤ signed 16 v ∧ signed 16 v ≤ signed 16 (s.fld (ADC_LIM c) ADC_LIM_hi)
       Completes (.adcConversionDone code) s (fun t => t.fld (ADC_RES c) ADC_RES_value = v ∧ t.bit (ADC_RES c) ADC_RES_valid = true ∧
         t.bit (ADC_RES c) ADC_RES_ovr = (s.bit (ADC_RES c) ADC_RES_ovr || s.bit (ADC_RES c) ADC_RES_valid) ∧ t.adcTodo = d :: rest ∧
         (inside → t.reg ADC_LIMIT = s.reg ADC_LIMIT) ∧ (¬ inside → t.reg ADC_LIMIT = s.reg ADC_LIMIT ||| (1#32 <<< c)) ∧
         RegsBut [ADC_RES c, ADC_LIMIT] s t ∧ SameMem s t)))

/-- Interrupt sources, mailboxes, their locks and agent, and doorbells (R341, R343, R344, R348 to R352). -/
def Obligations.InterruptsMailboxesAndDoorbells : Prop :=
  ∀ (s : State) (n : Fin 256) (g : Fin 16) (host : Bool) (m : Fin 8) (k : Fin 16) (b : Fin 2) (v : Fin 32) (len : Fin 32) (w : Word)
    (reply c : Nat) (bs : List Nat),
    let src := INTC_SRC n
    let st := s.fld src INTC_SRC_state
    let mine := s.fld src INTC_SRC_dest = 0
    let quiet := s.bit src INTC_SRC_storm = true
    let pend := s.setFld src INTC_SRC_state 1
    (s.isEdge n = false → st ≤ 1 → s.asserted n = false → Does (.interruptSourceFire n) s (s.setFld src INTC_SRC_state 0)) ∧
    (s.isEdge n = false → 2 ≤ st → Does (.interruptSourceFire n) s s) ∧
    (s.isEdge n = false → st = 0 → s.asserted n = true → mine →
      Does (.interruptSourceFire n) s (if quiet then pend
        else if 1023 ≤ s.firings n then ((pend.setFirings n (s.firings n + 1)).setBit src INTC_SRC_storm true).count INTC_STAT INTC_STAT_storms
        else pend.setFirings n (s.firings n + 1))) ∧
    (s.isEdge n = false → st = 0 → s.pulsed n = true → ¬ quiet → s.firings n < 1023 → s.bit src INTC_SRC_enable = true → s.bit src INTC_SRC_hold_en = false →
      let u := { pend.setFirings n (s.firings n + 1) with pulse := if n.val = 164 ∨ n.val = 165 then s.pulse else smSet (fun _ => false) s.pulse n false }
      let bit := 1#32 <<< s.fld src INTC_SRC_db
      (s.fld src INTC_SRC_dest = 1 → Does (.interruptSourceFire n) s ((u.setReg KIND_DB (u.reg KIND_DB ||| bit)).setFld src INTC_SRC_state 0)) ∧
      (s.fld src INTC_SRC_dest = 2 → s.reg HOST_DB_MASK &&& bit = 0 → s.reg HOST_DB &&& bit = 0 →
        Does (.interruptSourceFire n) s ((u.setReg HOST_DB (u.reg HOST_DB ||| bit)).setFld src INTC_SRC_state 0))) ∧
    (st ≤ 1 → Does (.intcEoi n) s s) ∧
    (st = 2 → s.asserted n = false ∨ s.isEdge n = true → Does (.intcEoi n) s (s.setFld src INTC_SRC_state 0)) ∧
    (st = 3 → mine → quiet → Does (.intcEoi n) s pend) ∧
    (st = 3 → mine → ¬ quiet → s.firings n < 1023 → Does (.intcEoi n) s (pend.setFirings n (s.firings n + 1))) ∧
    (let clear := (s.setBit src INTC_SRC_storm false).setFirings n 0
     (mine → s.uncounted n = false → Does (.stormClear n) s clear) ∧
     (mine → s.uncounted n = true → Does (.stormClear n) s ((clear.setFld src INTC_SRC_state 1).setFirings n 1))) ∧
    (Completes (.stormWindowExpire n) s (fun t => t.firings n = 0 ∧ (∀ j : Fin 256, j ≠ n → t.firings j = s.firings j) ∧ RegsBut [] s t ∧ SameMem s t)) ∧
    ((∀ j : Fin 256, s.fld (INTC_SRC j) INTC_SRC_group = g → s.srcPending j = true → s.fld (INTC_SRC j) INTC_SRC_dest = 0) →
      Completes (.holdoffExpire g) s (fun t => t.bit (INTC_HOLD g) INTC_HOLD_running = false ∧
        RegsBut ([INTC_HOLD g, INTC_STAT] ++ (List.range 256).map INTC_SRC) s t ∧ SameMem s t ∧
        (∀ j : Fin 256, s.fld (INTC_SRC j) INTC_SRC_group = g → s.fld (INTC_SRC j) INTC_SRC_dest = 0 →
          t.presented j = (s.srcPending j && s.bit (INTC_SRC j) INTC_SRC_enable && !s.bit (INTC_SRC j) INTC_SRC_storm &&
            !(s.uncounted j && decide (1023 ≤ s.firings j)))))) ∧
    (let id : Nat := if host = true then 1 else 2
     let reached := host = false ∨ (s.barsOpen = true ∧ m.val < 6)
     let sends := if host = true then m.val < 4 else m.val = 4 ∨ m.val = 5 ∨ m.val = 7
     let owner := s.fld (MBX_STAT m) MBX_STAT_holder
     let busy := s.bit (MBX_CTRL m) MBX_CTRL_go = true
     let refused := s.setBit (MBX_STAT m) MBX_STAT_refused true
     let freed := s.setFld (MBX_STAT m) MBX_STAT_holder 0
     let force := bitOf w MBX_LOCK_force = true
     let posted := ({ s with fw := { s.fw with goes := if m.val < 4 then s.fw.goes ++ [m.val] else s.fw.goes } }.setFld (MBX_CTRL m) MBX_CTRL_len len).setBit (MBX_CTRL m) MBX_CTRL_go true
     let taken := s.setBit (MBX_CTRL m) MBX_CTRL_go false
     let rang (u : State) (r i : Nat) : State := u.setReg r (u.reg r ||| (1#32 <<< i))
     (reached → owner ≠ 0 → Does (.mbxLockRead host m) s { s with rd := ⟨owner, false, false⟩ }) ∧
     (reached → owner = 0 → sends → Does (.mbxLockRead host m) s { s.setFld (MBX_STAT m) MBX_STAT_holder id with rd := ⟨0, false, false⟩ }) ∧
     (reached → owner = 0 → ¬ sends → Does (.mbxLockRead host m) s { s with rd := ⟨0xFF, false, false⟩ }) ∧
     (reached → ¬ force → getF w MBX_LOCK_owner = 0 → owner = id → Does (.mbxLockWrite host m w) s freed) ∧
     (host = false → force → Does (.mbxLockWrite host m w) s freed) ∧
     (reached → (force ∧ host = true) ∨ (¬ force ∧ (getF w MBX_LOCK_owner ≠ 0 ∨ owner ≠ id)) → Does (.mbxLockWrite host m w) s refused) ∧
     (reached → owner = id → ¬ busy → Does (.mbxDataWrite host m k w) s (s.setReg (MBX_DATA m k) w)) ∧
     (reached → owner ≠ id ∨ busy → Does (.mbxDataWrite host m k w) s refused ∧ Does (.mbxGo host m len) s refused) ∧
     (reached → owner = id → ¬ busy → len.val ≤ 16 →
       (m.val < 4 → Does (.mbxGo host m len) s (rang posted KILN_DB m)) ∧ (m.val = 6 → Does (.mbxGo host m len) s (rang posted KILN_DB 6)) ∧
       (m.val = 7 → Does (.mbxGo host m len) s (rang posted KIND_DB 1)) ∧ (m.val = 4 ∨ m.val = 5 → Does (.mbxGo host m len) s (hostDbSet posted (m - 4)))) ∧
     (host = false → busy → m.val < 4 → Does (.mbxAck host m) s (hostDbSet taken (8 + m))) ∧
     (host = false → busy → m.val = 6 → Does (.mbxAck host m) s (rang taken KIND_DB 0)) ∧
     (host = true → s.barsOpen = true → busy → (m.val = 4 ∧ s.fw.resps = []) ∨ (m.val = 5 ∧ s.fw.notes = []) → Does (.mbxAck host m) s (rang taken KILN_DB m)) ∧
     (reached → ¬ busy ∨ (if host = true then m.val ≠ 4 ∧ m.val ≠ 5 else ¬ (m.val < 4 ∨ m.val = 6)) → Does (.mbxAck host m) s refused)) ∧
    (let a : Nat := 6 + b
     let owner := s.fld (MBX_STAT a) MBX_STAT_holder
     let busy := s.bit (MBX_CTRL a) MBX_CTRL_go = true
     let was := s.bit (MBX_STAT a) MBX_STAT_refused
     let asked (op : Nat) : Prop := s.agentBusy a = false ∧ s.agentRequest a = some (op :: reply :: bs) ∧ reply < 128 ∧ (s.chEnd reply).alloc = true ∧
       firstMessage (s.kEnd (a + 8)).rx = some ([op, reply] ++ bs, ctEnd, [])
     let said (t : State) (bytes : List Nat) : Prop := (t.kEnd (a + 8)).tx = bytes ++ [ctEnd] ∧ (t.kEnd (a + 8)).dest = reply ∧ (t.kEnd (a + 8)).rx = [] ∧
       t.bit (MBX_STAT a) MBX_STAT_refused = (was || bytes == [0xFF]) ∧ SameMem s t
     let id := s.agentId a
     (asked 1 → Completes (.agentLock b) s (fun t =>
       (owner ≠ 0 → said t [owner] ∧ RegsBut [KIND_KEND_STAT (a + 8)] s t) ∧
       (owner = 0 → b.val = 0 → said t [0] ∧ t.fld (MBX_STAT a) MBX_STAT_holder = id % 256) ∧ (owner = 0 → b.val = 1 → t.fld (MBX_STAT a) MBX_STAT_holder = 0))) ∧
     (asked 2 → owner = id → Completes (.agentUnlock b) s (fun t => said t [0] ∧ t.fld (MBX_STAT a) MBX_STAT_holder = 0)) ∧
     (asked 2 → owner ≠ id → Completes (.agentUnlock b) s (fun t => said t [0xFF] ∧ t.fld (MBX_STAT a) MBX_STAT_holder = owner)) ∧
     (asked 3 → bs.length = 2 + 4 * c → bs.getD 1 0 = c → c ≠ 0 → bs.getD 0 0 + c ≤ 16 → owner = id → ¬ busy → Completes (.agentWrite b) s (fun t => said t [0] ∧
       ∀ j : Fin 16, j.val < c → t.reg (MBX_DATA a (bs.getD 0 0 + j)) = BitVec.ofNat 32 ((wordsOf (bs.drop 2)).getD j 0))) ∧
     (asked 3 → bs.length < 2 + 4 * bs.getD 1 0 → Completes (.agentWrite b) s (fun t => said t [0xFE])) ∧
     (asked 4 → bs.length = 2 → bs.getD 1 0 = c → c ≠ 0 → bs.getD 0 0 + c ≤ 16 → Completes (.agentRead b) s (fun t =>
       said t ((List.range c).flatMap (fun i => (leBytes 4 (s.reg (MBX_DATA a (bs.getD 0 0 + i))).toNat).map BitVec.toNat)))) ∧
     (asked 5 → bs.length = 1 → bs.getD 0 0 ≤ 16 → owner = id → ¬ busy → Completes (.agentGo b) s (fun t => said t [0] ∧ t.bit (MBX_CTRL a) MBX_CTRL_go = true ∧
       t.fld (MBX_CTRL a) MBX_CTRL_len = bs.getD 0 0 ∧ (if b.val = 0 then (t.reg KILN_DB).getLsbD 6 = true else (t.reg KIND_DB).getLsbD 1 = true))) ∧
     (asked 6 → b.val = 1 → busy → Completes (.agentAck b) s (fun t => said t [0] ∧ t.bit (MBX_CTRL a) MBX_CTRL_go = false ∧ (t.reg KILN_DB).getLsbD 7 = true)) ∧
     (asked 6 → b.val = 0 ∨ ¬ busy → Completes (.agentAck b) s (fun t => said t [0xFF])) ∧
     (asked 7 → bs.length = 4 → Completes (.agentRing b) s (fun t => said t [0] ∧ t.reg KILN_DB = s.reg KILN_DB ||| BitVec.ofNat 32 ((wordsOf bs).getD 0 0))) ∧
     (asked 7 → bs.length < 4 → Completes (.agentRing b) s (fun t => said t [0xFE] ∧ t.reg KILN_DB = s.reg KILN_DB))) ∧
    (let due (t : State) (i : Nat) : Prop :=
       if s.bit HOST_LINK HOST_LINK_up = true ∧ s.host.d0 = true ∧ (s.msix i).masked = false then t.msixSent i = s.msixSent i + 1 ∧ t.pba i = s.pba i
       else t.pba i = true ∧ t.msixSent i = s.msixSent i
     let kept (t : State) (i : Nat) : Prop := t.msixSent i = s.msixSent i ∧ t.pba i = s.pba i
     let open_ := host = false ∨ s.barsOpen = true
     let stays : Word := (if s.kiln.lockup = true then 0x80000000 else 0) ||| (if s.bit SYS_WDOG_CTRL SYS_WDOG_CTRL_expired = true then 0x40000000 else 0)
     (open_ → Completes (.doorbellSet host 0 w) s (fun t => t.reg HOST_DB = s.reg HOST_DB ||| w ∧ RegsBut [HOST_DB] s t ∧ SameMem s t ∧
       ∀ i : Fin 32, if w.getLsbD i = true ∧ (s.reg HOST_DB).getLsbD i = false ∧ (s.reg HOST_DB_MASK).getLsbD i = true then due t i else kept t i)) ∧
     (host = false → Does (.doorbellSet host 1 w) s (s.setReg KILN_DB (s.reg KILN_DB ||| w)) ∧ Does (.doorbellSet host 2 w) s (s.setReg KIND_DB (s.reg KIND_DB ||| w)) ∧
       Does (.doorbellClear host 1 w) s (s.setReg KILN_DB (s.reg KILN_DB &&& ~~~w)) ∧ Does (.doorbellClear host 2 w) s (s.setReg KIND_DB (s.reg KIND_DB &&& ~~~w))) ∧
     (host = true → s.barsOpen = true → Does (.doorbellSet host 1 w) s (s.setReg KILN_DB (s.reg KILN_DB ||| (w &&& 0xFFFF0000))) ∧
       Does (.doorbellSet host 2 w) s s ∧ Does (.doorbellClear host 1 w) s s ∧ Does (.doorbellClear host 2 w) s s) ∧
     (open_ → Completes (.doorbellClear host 0 w) s (fun t => t.reg HOST_DB = s.reg HOST_DB &&& ~~~(w &&& ~~~stays) ∧ RegsBut [HOST_DB] s t ∧ SameMem s t ∧
       ∀ i : Fin 32, t.msixSent i = s.msixSent i ∧ t.pba i = (s.pba i && !(w &&& ~~~stays).getLsbD i))) ∧
     (open_ → Completes (.doorbellMaskWrite host w) s (fun t => t.reg HOST_DB_MASK = w ∧ RegsBut [HOST_DB_MASK] s t ∧ SameMem s t ∧
       ∀ i : Fin 32, if w.getLsbD i = true ∧ (s.reg HOST_DB_MASK).getLsbD i = false ∧ (s.reg HOST_DB).getLsbD i = true then due t i else kept t i)) ∧
     (s.barsOpen = false → Does (.msixUnmask v) s s) ∧
     (s.barsOpen = true → Completes (.msixUnmask v) s (fun t => (t.msix v).masked = false ∧ RegsBut [] s t ∧ SameMem s t ∧
       (if s.pba v = true ∧ (s.reg HOST_DB).getLsbD v = true then t.pba v = false ∧ t.msixSent v = s.msixSent v + 1 else t.pba v = s.pba v ∧ t.msixSent v = s.msixSent v))))

/-- The commands of the ledger island, their rings, the Seen table, the Cord, sessions and keys (R353, R354, R356, R359 to R361, R364 to R367, R369 to R372,
R377, R379, R380, R392, R457, R504). `c` is the one command in the island, and it runs. -/
def Obligations.LedgerCommandsEndWithTheirStatus : Prop :=
  ∀ (s : State) (c : LCmd) (m g e text : List Byte) (x : Sess) (p : Nat) (index : BitVec 16) (alt : Bool) (j : Fin 4) (w : Word) (res : Nat × Nat × Option Nat) (y : Xl) (ctr : Nat),
    let begun (op : Nat) : Prop := s.led.cmds = [c] ∧ c.started = true ∧ c.res = none ∧ c.op = op
    let ended (t : State) (status detail : Nat) (val : Option Nat) : Prop := t.led.cmds = [{ c with res := some (status, detail, val), eng := none }]
    let u := (ledSrc s c).1
    let src (bs : List Byte) : Prop := (ledSrc s c).2 = some bs
    let aux (n : Nat) (bs : List Byte) : Prop := (ledRead u (c.w 6) n).2 = some bs
    let u' (n : Nat) : State := (ledRead u (c.w 6) n).1
    let us := (signedSrc s c).1
    let signed : Prop := (signedSrc s c).2 = some (m, g)
    let shut : Prop := s.cordShut = true
    (c.own = none → signedSrc s c = ((ledRead (ledRead s (c.w 2) c.srcLen).1 (c.w 6) 64).1,
      (ledRead s (c.w 2) c.srcLen).2.bind (fun r => (ledRead (ledRead s (c.w 2) c.srcLen).1 (c.w 6) 64).2.map (fun q => (r, q))))) ∧
    (c.own = some (m ++ g) → g.length = 64 → us = s ∧ signed) ∧
    (shut → c.held = none → (begun 2 → Completes (.ledgerSeal 0) s (fun t => ended t 10 0 none ∧ t.led.seq = s.led.seq)) ∧
      (begun 3 → Completes (.ledgerAdmit 0) s (fun t => ended t 10 0 none ∧ t.led.seq = s.led.seq)) ∧
      (begun 4 → Completes (.ledgerBatch 0) s (fun t => ended t 10 0 none ∧ t.led.seq = s.led.seq))) ∧
    (begun 0 → Completes (.ledgerNop 0) s (fun t => ended t 0 0 none ∧ RegsBut [] s t ∧ SameMem s t)) ∧
    (begun 1 → signed → c.a ≠ 0xFFFF → c.peer = some e → peerAlg e = c.b →
      Completes (.ledgerVerify 0) s (fun t => ended t (if peerVerify c.b (e.take 64) m g = true then 0 else 3) 0 none)) ∧
    (begun 1 → signed → c.a = 0xFFFF → (ledRead us (c.w 4) 64).2 = some e →
      Completes (.ledgerVerify 0) s (fun t => ended t (if peerVerify c.b e m g = true then 0 else 3) 0 none)) ∧
    (begun 1 → signed → c.a ≠ 0xFFFF → c.peer = none ∨ (c.peer = some e ∧ peerAlg e ≠ c.b) → Completes (.ledgerVerify 0) s (fun t => ended t 2 0 none)) ∧
    (let salt := c.salt
     let txid := if c.op = 2 ∨ c.op = 3 then recTxid m else c.w 8 + c.w 9 * 2 ^ 32
     let before := if c.op = 2 then u else if c.op = 3 then us else s
     let look := seenLook before c.ctx salt txid
     let v := look.1
     let new := look.2.1 = 0
     let place := v.seenPlace c.ctx look.2.2
     let h := if v.led.seq = 0 then (m.drop 32).take 32 else v.chainValue
     let r := v.chainFill m true
     let sealed := r ++ v.sealOf r
     let put (entry : List Byte) : State × Bool := cordStore v entry
     let went (entry : List Byte) : Prop := (put entry).2 = true ∧ place.map (fun q => (seenPut (put entry).1 c.ctx salt txid q).2) = some true
     (begun 2 → ¬ shut → src m → recTxid m = 0 → Completes (.ledgerSeal 0) s (fun t => ended t 1 0 none ∧ t.led.seq = s.led.seq)) ∧
     (begun 2 → ¬ shut → src m → recTxid m ≠ 0 → ¬ new → Completes (.ledgerSeal 0) s (fun t => ended t look.2.1 0 none ∧ t.led.seq = s.led.seq)) ∧
     (begun 2 → ¬ shut → src m → recTxid m ≠ 0 → new → v.cordNoRoom = true → Completes (.ledgerSeal 0) s (fun t => ended t 10 0 none ∧ t.led.seq = s.led.seq)) ∧
     (begun 2 → ¬ shut → src m → recTxid m ≠ 0 → new → v.cordNoRoom = false → v.led.dev.isSome = true → place.isSome = true → went sealed → c.own.isSome = true →
       Completes (.ledgerSeal 0) s (fun t => ended t 0 0 (some s.led.seq) ∧ t.led.seq = s.led.seq + 1 ∧ t.led.chain = sha256 (h ++ sealed))) ∧
     (begun 3 → ¬ shut → c.held = none → signed → recTxid m / 2 ^ 54 ≠ c.a → Completes (.ledgerAdmit 0) s (fun t => ended t 12 0 none ∧ t.led.seq = s.led.seq)) ∧
     (begun 3 → ¬ shut → c.held = none → signed → recTxid m / 2 ^ 54 = c.a → recTxid m ≠ 0 → c.peer = some e → peerSealOk e m g = false →
       Completes (.ledgerAdmit 0) s (fun t => ended t 3 0 none ∧ t.led.seq = s.led.seq)) ∧
     (begun 3 → ¬ shut → c.held = none → signed → recTxid m / 2 ^ 54 = c.a → recTxid m ≠ 0 → c.peer = some e → peerSealOk e m g = true → new → v.cordNoRoom = false →
       place.isSome = true → went (m ++ g) →
       Completes (.ledgerAdmit 0) s (fun t => ended t 0 0 (some s.led.seq) ∧ t.led.seq = s.led.seq + 1 ∧ t.led.chain = sha256 (v.chainValue ++ (m ++ g)))) ∧
     (begun 5 → Completes (.seenCheck 0) s (fun t => ended t look.2.1 0 none ∧ t.led.victims = s.led.victims ∧ t.led.seq = s.led.seq)) ∧
     (begun 6 → ¬ new → Completes (.seenInsert 0) s (fun t => ended t look.2.1 0 none ∧ t.led.victims = s.led.victims)) ∧
     (begun 6 → new → look.2.2.findIdx? (· == 0) = some p → (ledWrite v (v.bucketAt c.ctx salt txid + 8 * p) (leBytes 8 txid)).2 = true →
       Completes (.seenInsert 0) s (fun t => ended t 0 0 none ∧ t.led.victims = s.led.victims ∧
         SameMem (ledWrite v (v.bucketAt c.ctx salt txid + 8 * p) (leBytes 8 txid)).1 t)) ∧
     (begun 6 → new → place.isNone = true → Completes (.seenInsert 0) s (fun t => ended t 6 0 none ∧ t.bit LEDGER_SEEN_STAT LEDGER_SEEN_STAT_full = true))) ∧
    (begun 4 → ¬ shut → src m → u.cordNoRoom = true → Completes (.ledgerBatch 0) s (fun t => ended t 10 0 none ∧ t.led.seq = s.led.seq)) ∧
    (let r := u.chainFill (u.batchRecord m) false
     let entry := r ++ u.sealOf r
     begun 4 → ¬ shut → src m → u.cordNoRoom = false → u.led.dev.isSome = true → (cordStore u entry).2 = true → c.own.isSome = true →
       Completes (.ledgerBatch 0) s (fun t => ended t 0 0 (some s.led.seq) ∧ t.led.seq = s.led.seq + 1 ∧ t.led.chain = sha256 (u.chainValue ++ entry) ∧
         SameMem (cordStore u entry).1 t)) ∧
    (let digest := if c.b = 0 then sha256 m else if c.b = 1 then sha512 m else sha3 m
     begun 7 → src m → (ledWrite u (c.w 4) digest).2 = true → Completes (.ledgerHash 0) s (fun t => ended t 0 0 none ∧ SameMem (ledWrite u (c.w 4) digest).1 t)) ∧
    (let out := gcmSeal x.key (x.iv ++ beBytes 8 ctr) g m
     begun 8 → c.sess = some x → s.sess c.a = some { x with ctr := ctr } → src m → aux c.auxLen g → ctr < 2 ^ 64 - 1 →
       (ledWrite (u' c.auxLen) (c.w 4) out).2 = true →
       Completes (.frameSeal 0) s (fun t => ended t 0 0 (some ctr) ∧ t.sess c.a = some { x with ctr := ctr + 1 } ∧ SameMem (ledWrite (u' c.auxLen) (c.w 4) out).1 t)) ∧
    (begun 8 ∨ begun 9 → c.sess = none →
      (begun 8 → Completes (.frameSeal 0) s (fun t => ended t 2 0 none)) ∧ (begun 9 → Completes (.frameOpen 0) s (fun t => ended t 2 0 none))) ∧
    (let iv := (leBytes 4 (c.w 8) ++ leBytes 4 (c.w 9)) ++ leBytes 4 (c.w 10)
     (begun 9 → c.sess = some x → src m → aux c.auxLen g → gcmOpen x.key iv g m = none → Completes (.frameOpen 0) s (fun t => ended t 7 0 none ∧ SameMem (u' c.auxLen) t)) ∧
     (begun 9 → c.sess = some x → src m → aux c.auxLen g → gcmOpen x.key iv g m = some text → (ledWrite (u' c.auxLen) (c.w 4) text).2 = true →
       Completes (.frameOpen 0) s (fun t => ended t 0 0 none ∧ SameMem (ledWrite (u' c.auxLen) (c.w 4) text).1 t))) ∧
    (begun 10 → src m → aux c.auxLen g → c.peer = some e → ∀ d ∈ s.led.dev.toList,
      let made := sessionOf d.2 ((e.drop 64).take 32) m g
      Completes (.sessionDerive 0) s (fun t => ended t (if made.isSome = true then 0 else 2) 0 none ∧ t.sess c.a = if made.isSome = true then made else s.sess c.a)) ∧
    (begun 11 → Completes (.sessionClear 0) s (fun t => ended t 0 0 none ∧ t.sess c.a = none ∧ RegsBut [] s t ∧ SameMem s t)) ∧
    (begun 12 → src m → peerAlg m ≤ 1 → (m.drop 97).all (· == 0) = true → Completes (.keyPut 0) s (fun t => ended t 0 0 none ∧ t.peer c.a = some m)) ∧
    (begun 12 → src m → 1 < peerAlg m ∨ (m.drop 97).any (· != 0) = true → Completes (.keyPut 0) s (fun t => ended t 1 0 none ∧ t.led.peers = s.led.peers)) ∧
    (let en := xlEngine s (c.eng.getD 12 - 12)
     let z := xlRun en.1.xlWord ((Config.freeWord en.1.free).toNat + (Config.freeWord (en.1.free + 1)).toNat * 2 ^ 32) 4097 y
     begun 13 → en.2 = some y → ∀ n ∈ z.stop.toList,
       (n.1 ≠ 0 → Completes (.xlate 0) s (fun t => ended t n.1 n.2 none ∧ SameMem en.1 t)) ∧
       (n.1 = 0 → (ledWrite { en.1 with free := en.1.free + 2 } (c.w 4) z.out).2 = true →
         Completes (.xlate 0) s (fun t => ended t 0 n.2 none ∧ SameMem (ledWrite { en.1 with free := en.1.free + 2 } (c.w 4) z.out).1 t))) ∧
    ((s.fwServes = false ∨ c.own = none) → s.led.cmds = [c] → c.res = some res → s.cqFull = false → s.fld LEDGER_SQ_HEAD LEDGER_SQ_HEAD_index = s.fld LEDGER_SQ_TAIL LEDGER_SQ_TAIL_index →
      let tail := s.fld LEDGER_CQ_TAIL LEDGER_CQ_TAIL_index
      let entry := leBytes 4 (c.op * 2 ^ 24 + res.1 * 2 ^ 16 + c.tag) ++ leBytes 4 res.2.1 ++ leBytes 8 (res.2.2.getD s.tb)
      Completes (.ledgerCompletion 0) s (fun t => t.led.cmds = [] ∧ t.fld LEDGER_CQ_TAIL LEDGER_CQ_TAIL_index = (tail + 1) % s.cqSize % 65536 ∧
        SameMem (memWrite s 9 (s.fld LEDGER_CQ_BASE LEDGER_CQ_BASE_base * 64 + 16 * tail) entry []).s t)) ∧
    (let size := 2 ^ s.fld LEDGER_SQ_CFG LEDGER_SQ_CFG_log2
     let head := s.fld LEDGER_SQ_HEAD LEDGER_SQ_HEAD_index
     let tail := s.fld LEDGER_SQ_TAIL LEDGER_SQ_TAIL_index
     let full := size ≤ (tail + size - head % size) % size + (index.toNat % size + size - tail % size) % size
     let read := memRead (s.setFld LEDGER_SQ_TAIL LEDGER_SQ_TAIL_index (index.toNat % size)) 9 (s.fld LEDGER_SQ_BASE LEDGER_SQ_BASE_base * 64 + 64 * head) 64 []
     (full → Does (.ledgerSqTailWrite index) s (s.setBit LEDGER_SQ_CFG LEDGER_SQ_CFG_ovf true)) ∧
     (¬ full → s.led.cmds = [] → s.cqFull = true → Does (.ledgerSqTailWrite index) s (s.setFld LEDGER_SQ_TAIL LEDGER_SQ_TAIL_index (index.toNat % size))) ∧
     (¬ full → s.led.cmds = [] → s.cqFull = false → head = tail → 1 < size → size ≤ 65536 → index.toNat = (head + 1) % size → read.err = false → read.poison = false →
       Completes (.ledgerSqTailWrite index) s (fun t => t.fld LEDGER_SQ_HEAD LEDGER_SQ_HEAD_index = index.toNat ∧ t.led.cmds.map (·.words) = [wordsAt read.data 16] ∧
         (s.cmdOk (LCmd.enter (wordsAt read.data 16) none) = false → t.led.cmds = [{ LCmd.enter (wordsAt read.data 16) none with res := some (1, 0, none) }])))) ∧
    (let sel := s.floorSel
     let v := getF w LEDGER_FLOOR_HI_epoch * 2 ^ 34 + getF w LEDGER_FLOOR_HI_seq_hi * 2 ^ 32 + s.led.floorLo
     (bitOf w LEDGER_FLOOR_HI_refused = false → v < s.floorOf sel.1 sel.2 → Does (.floorWrite w) s (s.setBit LEDGER_FLOOR_HI LEDGER_FLOOR_HI_refused true)) ∧
     (bitOf w LEDGER_FLOOR_HI_refused = false → s.floorOf sel.1 sel.2 ≤ v → sel.1 = 0 → Does (.floorWrite w) s (resumeFor (floorRaise s 0 sel.2 v) stSeenFull)) ∧
     (bitOf w LEDGER_FLOOR_HI_refused = false → s.floorOf sel.1 sel.2 ≤ v → sel.1 ≠ 0 ∨ s.fw.jobs = [] → Completes (.floorWrite w) s (fun t => t.floorOf sel.1 sel.2 = v ∧ RegsBut [] s t ∧ SameMem s t ∧
       t.led.victims = s.led.victims.filter (fun e => !t.belowFloor e.1 e.2)))) ∧
    (let v := w.toNat * 2 ^ 32 + s.led.tailLo
     (s.led.tail ≤ v → v ≤ s.led.seq → Does (.cordTailWrite w) s { s with led := { s.led with tail := v } }) ∧
     (v < s.led.tail ∨ s.led.seq < v → Does (.cordTailWrite w) s s)) ∧
    (Does .cordSeqRead s { s.setReg LEDGER_CORD_SEQ_HI (BitVec.ofNat 32 (s.led.seq / 2 ^ 32)) with rd := ⟨s.led.seq % 2 ^ 32, false, false⟩ }) ∧
    (Does (.seenSaltWrite alt j w) s (s.setReg (if alt = true then LEDGER_SEEN_ALT_SALT j else LEDGER_SEEN_SALT j) w)) ∧
    (s.ember.phase = .run → Does .keyLoad s (if s.bit FUSE_STAT FUSE_STAT_loaded = true then { s with led := { s.led with dev := none, loading := true } }
      else { s with led := { s.led with dev := none, loading := false } }.setBit LEDGER_EVT LEDGER_EVT_key_fault true)) ∧
    (s.led.loading = true → s.led.cmds = [] → Does .keyLoadDone s { s with led := { s.led with dev := some s.deviceKeys, loading := false } }) ∧
    (s.led.loading = false → Does .keyLoadDone s s)

/-- The instructions of a translation engine, one step each (R373 to R375, Table 18-6). -/
def Obligations.TranslationEngineExecutesItsInstructions : Prop :=
  ∀ (s : State) (e : Fin 4) (x : Xl) (fe : XlField) (i : Nat),
    let w := (s.reg (LEDGER_XL_PROG x.pc)).toNat
    let bits (hi lo : Nat) : Nat := w / 2 ^ lo % 2 ^ (hi + 1 - lo)
    let op (k : Nat) : Prop := s.led.xl.find? (fun a => a.1 == e.val) = some (e.val, x) ∧ x.stop = none ∧ x.n < 4096 ∧ x.pc < 4096 ∧ bits 31 26 = k
    let goes (v : Xl) : State := { s with free := s.free + 2, led := { s.led with xl := smInsert e.val v (smErase s.led.xl e.val) } }
    let y := { x with n := x.n + 1 }
    let next (v : Xl) : State := goes { v with pc := x.pc + 1 }
    let fails (c : Nat) : State := goes { y with stop := some (9, c) }
    let set (r v : Nat) : List Nat := y.x.set r (v % 2 ^ 64)
    let xr := y.x.getD (bits 25 23) 0
    let enc := bits 12 11
    let digit (b : Byte) : Bool := if enc = 1 then decide (0x30 ≤ b.toNat ∧ b.toNat ≤ 0x39) else decide (0xF0 ≤ b.toNat ∧ b.toNat ≤ 0xF9)
    let field (f : Nat) : Option XlField := (x.f.find? (fun a => a.1 == f)).map (·.2)
    let stored (off : Nat) (bs : List Byte) : State :=
      if x.out.length < off + bs.length then fails 6 else next { y with out := x.out.take off ++ bs ++ x.out.drop (off + bs.length) }
    (op 0 → Does (.xlEnd e) s (goes { y with stop := some (0, bits 10 0) })) ∧
    (op 1 → Does (.xlFail e) s (fails (if bits 7 0 < 16 then 8 else bits 7 0))) ∧
    (let n := if enc = 0 then 2 else 4
     let bs := (x.input.drop x.cur).take n
     let ds := if enc = 0 then bs.flatMap (fun b => [b.toNat / 16, b.toNat % 16]) else bs.map (fun b => b.toNat % 16)
     let good := if enc = 0 then ds.all (· < 10) = true else bs.all digit = true
     (op 2 → enc = 3 → Does (.xlMti e) s (fails 8)) ∧
     (op 2 → enc ≠ 3 → x.input.length < x.cur + n → Does (.xlMti e) s (fails 1)) ∧
     (op 2 → enc ≠ 3 → x.cur + n ≤ x.input.length → ¬ good → Does (.xlMti e) s (fails 2)) ∧
     (op 2 → enc ≠ 3 → x.cur + n ≤ x.input.length → good → Does (.xlMti e) s
       (next { y with cur := x.cur + n, x := set (bits 25 23) (ds.foldl (fun v d => 10 * v + d) 0), f := smInsert 0 ⟨bs, ds, false⟩ (smErase x.f 0) }))) ∧
    (let bs := (x.input.drop x.cur).take 8
     (op 3 → enc = 0 ∨ enc = 3 → x.input.length < x.cur + 8 → Does (.xlBmap e) s (fails 1)) ∧
     (op 3 → enc = 0 ∨ enc = 3 → x.cur + 8 ≤ x.input.length → (bs.headD 0).toNat < 128 → Does (.xlBmap e) s
       (next { y with cur := x.cur + 8, maps := [1], set := ((List.range 64).filter (fun j => (beOf bs).testBit (63 - j))).map (· + 1) }))) ∧
    (let f := bits 22 15
     let n := bits 10 0
     let bs := (x.input.drop x.cur).take n
     let legal := 2 ≤ f ∧ f ≤ 192 ∧ bits 14 13 ≠ 3
     let early := x.set.any (fun g => g < f && !x.maps.contains g && (field g).isNone) = true
     (op 4 → ¬ legal → Does (.xlFld e) s (fails 8)) ∧
     (op 4 → legal → early → Does (.xlFld e) s (fails 3)) ∧
     (op 4 → legal → ¬ early → f ∉ x.set → Does (.xlFld e) s (next y)) ∧
     (op 4 → legal → ¬ early → f ∈ x.set → bits 14 13 = 0 → enc = 3 → x.input.length < x.cur + n → Does (.xlFld e) s (fails 1)) ∧
     (op 4 → legal → ¬ early → f ∈ x.set → bits 14 13 = 0 → enc = 3 → x.cur + n ≤ x.input.length → Completes (.xlFld e) s (fun t =>
       ∃ v ∈ ((t.led.xl.find? (fun a => a.1 == e.val)).map (·.2)).toList,
         v.cur = x.cur + n ∧ v.pc = x.pc + 1 ∧ v.n = x.n + 1 ∧ v.x = x.x ∧ v.out = x.out ∧ v.stop = none ∧
         ∃ r ∈ ((v.f.find? (fun a => a.1 == f)).map (·.2)).toList, r.raw = bs ∧ r.bin = true))) ∧
    (op 5 → Does (.xlJnb e) s (goes { y with pc := if bits 22 15 ∈ x.set then x.pc + 1 else bits 11 0 })) ∧
    (op 6 → bits 13 12 = 3 → Does (.xlJmp e) s (fails 8)) ∧
    (op 6 → bits 13 12 ≠ 3 → Does (.xlJmp e) s
      (goes { y with pc := if bits 13 12 = 0 ∨ (bits 13 12 = 1 ∧ x.t = true) ∨ (bits 13 12 = 2 ∧ x.t = false) then bits 11 0 else x.pc + 1 })) ∧
    (op 7 → Does (.xlCmpi e) s (next { y with t := xr == bits 15 0 })) ∧
    (op 8 → Does (.xlMovi e) s (next { y with x := set (bits 25 23) (bits 15 0) })) ∧
    (op 9 → field (bits 22 15) = none → Does (.xlNum e) s (fails 5)) ∧
    (op 9 → field (bits 22 15) = some fe → fe.bin = true → fe.raw ≠ [] → fe.raw.length ≤ 8 → Does (.xlNum e) s (next { y with x := set (bits 25 23) (beOf fe.raw) })) ∧
    (op 9 → field (bits 22 15) = some fe → fe.bin = false → fe.raw ≠ [] → fe.digits.length ≤ 19 → fe.digits.all (· < 10) = true →
      Does (.xlNum e) s (next { y with x := set (bits 25 23) (fe.digits.foldl (fun v d => 10 * v + d) 0) })) ∧
    (op 9 → field (bits 22 15) = some fe → fe.bin = false → fe.raw ≠ [] → fe.digits.any (10 ≤ ·) = true → Does (.xlNum e) s (fails 2)) ∧
    (let at_ := bits 11 0
     let cell (j : Nat) : Nat := (s.reg (LEDGER_XL_PROG j)).toNat
     let n := cell at_
     let fits := n ≤ 256 ∧ at_ + 1 + 2 * n ≤ 4096
     (op 10 → ¬ fits → Does (.xlLut e) s (fails 8)) ∧
     (op 10 → fits → (List.range n).all (fun j => cell (at_ + 1 + 2 * j) != xr) = true → Does (.xlLut e) s (fails 5)) ∧
     (op 10 → fits → i < n → cell (at_ + 1 + 2 * i) = xr → (List.range i).all (fun j => cell (at_ + 1 + 2 * j) != xr) = true →
       Does (.xlLut e) s (next { y with x := set (bits 25 23) (cell (at_ + 2 + 2 * i)) }))) ∧
    (op 11 → bits 3 0 = 0 ∨ 8 < bits 3 0 → Does (.xlPut e) s (fails 8)) ∧
    (op 11 → 1 ≤ bits 3 0 → bits 3 0 ≤ 8 → Does (.xlPut e) s (stored (bits 22 12) (leBytes (bits 3 0) xr))) ∧
    (op 12 → Does (.xlCpy e) s (stored (bits 17 8) ((((field (bits 25 18)).map (·.raw)).getD []).take (bits 7 0)))) ∧
    (op 13 → Does (.xlPhash e) s (stored (bits 22 12) (sha256 x.input))) ∧
    (s.led.xl.find? (fun a => a.1 == e.val) = some (e.val, x) → x.stop = none → bits 31 26 = 8 → 4096 ≤ x.n → Does (.xlMovi e) s (goes { x with stop := some (9, 7) })) ∧
    (s.led.xl.find? (fun a => a.1 == e.val) = some (e.val, x) → x.stop ≠ none → Does (.xlMovi e) s s)

/-- Transactions and the floor link (R16 to R20, R398 to R402, R405 to R408, R410, R412 to R416, R418 to R420, R422, R423, R503, R504). `cmd` is a command of Falornyr's own that
completes, and `g` the frame in a port's next receive descriptor. The contents of a money event as operands, and the other choices of assumptions 35, 36, 38, 39, 64, 96, 97,
122, 123 and 125, are the model's; what the IEEE 1588 servo does is free (R422). -/
def Obligations.TransactionsAndFloorFollowTheirEvents : Prop :=
  ∀ (s b0 : State) (k : Fin 16) (type currency ix : BitVec 16) (amount : Int) (time sfd id64 : BitVec 64) (undone : Option (BitVec 64)) (q : Fin 1024) (p : Fin 2) (w : Word)
    (f g body sig r v : List Byte) (toks rest : List Nat) (a : Arrival) (cmd : LCmd) (job : SealJob) (why : AskFor) (val : Option Nat) (es : List BatchEnt) (pe : Pend) (asm : Asm)
    (fr : FwFrame) (l : LinkReport) (i n d st dt ts : Nat) (box : List (Nat × Nat × List Byte)) (ok : Bool),
    let up := s.fwServes = true
    let m := etherPart g
    let h := hdrSrc m
    let z := rxBack b0 p
    let x := s.fsess q
    let fw := s.fw
    let heads (mark : Nat) (rx : List Nat) : Prop := firstMessage (s.kEnd k).rx = some (toks, mark, rx) ∧ s.kind.arrived = a :: s.kind.arrived.tail ∧ a.kend = k
    let inbox (t : Nat) : Prop := s.fw.inbox = (n, t, v) :: box
    let took := s.setFw { fw with inbox := box }
    let finds : Prop := rxFrame s p = (b0, some (g, ts))
    let comes (kind : Nat) : Prop := finds ∧ s.isFloor kind g = true
    (s.fwServes = false → Does (.moneyEvent k ⟨type, undone⟩ amount currency time) s s ∧ Does .batchClose s s ∧ Does .keeperSilence s s ∧ Does .recordReceived s s) ∧
    (up → heads ctAbort rest → Does (.moneyEvent k ⟨type, undone⟩ amount currency time) s (healthCount (takeArrival s k rest) 2 3)) ∧
    (up → heads ctEnd rest → s.takesMoney = false → Does (.moneyEvent k ⟨type, undone⟩ amount currency time) s s) ∧
    (up → heads ctEnd rest → s.takesMoney = true →
      let t := takeArrival s k rest
      let cell := item 2 (toks.flatMap (leBytes 2)) ++ (match undone with | some y => item 5 (leBytes 8 y.toNat) | none => [])
      let made (payload digest : List Byte) (flag : Nat) : State :=
        submitSeal (takeSeq t) (recordOf t.nextTxid type.toNat (flag + (if t.isBench = true then 8 else 0) + (if undone.isSome = true then 32 else 0)) amount currency.toNat time.toNat
          (List.replicate 32 0) (sha256 payload) digest) payload .event
      (type.toNat ∉ moneyTypes → Does (.moneyEvent k ⟨type, undone⟩ amount currency time) s t) ∧
      (type.toNat ∈ moneyTypes → t.hasHeads = false ∨ a.head = none → cell.length ≤ 320 →
        Does (.moneyEvent k ⟨type, undone⟩ amount currency time) s (made cell (List.replicate 16 0) 1)) ∧
      (type.toNat ∈ moneyTypes → t.witnessFor a.head time.toNat = none → cell.length ≤ 320 → Does (.moneyEvent k ⟨type, undone⟩ amount currency time) s (made cell (List.replicate 16 0) 1)) ∧
      (type.toNat ∈ moneyTypes → t.witnessFor a.head time.toNat = some (d, v) → (item 1 v ++ cell).length ≤ 320 →
        Does (.moneyEvent k ⟨type, undone⟩ amount currency time) s (made (item 1 v ++ cell) (v.take 16) (2 * d)))) ∧
    (up → fw.pend.find? (fun e => e.txid == id64.toNat) = none → Does (.transactionTimeout id64) s s) ∧
    (up → fw.pend.find? (fun e => e.txid == id64.toNat) = some pe →
      let e := { pe with tag := (fw.tagCtr + 1) % 2 ^ 24 * 256 + (pe.resends + 2) % 256, resends := pe.resends + 1 }
      let y := healthCount (s.setFw { fw with tagCtr := fw.tagCtr + 1, pend := fw.pend.map (fun o => if o.txid = id64.toNat then e else o) }) 5 0
      let t := if pe.resends = 7 then healthAlert y 5 0 else y
      Does (.transactionTimeout id64) s (if t.isActive = true then (if t.inBatch pe.txid = true then t else keeperOwn t pe.entry pe.payload) else sendRecord t e)) ∧
    (let mine (b : Asm) : Bool := b.peer == q.val && b.id == w.toNat
     let t := s.setFw { fw with asms := fw.asms.filter (fun b => !mine b) }
     let e := (t.peer q).getD (List.replicate 128 0)
     let text := if peerAlg e = 1 then sealMessage (e.take 64) r else sha256 (sealMessage (e.take 64) r)
     (up → fw.asms.find? mine = none → Does (.batchAckVerify q w) s s) ∧
     (up → fw.asms.find? mine = some asm → asm.whole = none → Does (.batchAckVerify q w) s s) ∧
     (up → fw.asms.find? mine = some asm → asm.whole = some (r, sig, body) → t.batchOk q r body = false → Does (.batchAckVerify q w) s (healthCount t 5 4)) ∧
     (up → fw.asms.find? mine = some asm → asm.whole = some (r, sig, body) → t.fw.keepers.any (fun e => e.1 == q.val) = false → Does (.batchAckVerify q w) s (healthCount t 5 4)) ∧
     (up → fw.asms.find? mine = some asm → asm.whole = some (r, sig, body) → t.batchOk q r body = true → Does (.batchAckVerify q w) s
       (completeLast (runLast (fwAsk t 1 0 [q * 2 ^ 16 + peerAlg e % 2, 0, text.length, 0, 0, 0, 64] (text ++ sig) (.verify body)) 1 opVerify))) ∧
     (up → fw.asms.any (fun b => mine b && b.whole.isNone) = false → Does (.batchIdTimeout q w) s s) ∧
     (up → fw.asms.any (fun b => mine b && b.whole.isNone) = true → Does (.batchIdTimeout q w) s (healthCount t 5 4))) ∧
    (let es := (fw.batch.filter s.batchReady).take 256
     let all := es.flatMap batchBytes
     let t := s.setFw { fw with batch := fw.batch.filter (fun e => !es.contains e) }
     (up → s.isActive = false ∨ es = [] → Does .batchClose s s) ∧
     (up → s.isActive = true → es ≠ [] → Does .batchClose s (completeLast (runLast (fwAsk t 4 0 [0, 0, all.length, 0, 64] all (.batch es all)) 4 opBatch)))) ∧
    (let c := takeEntry (ledgerComplete s i) (s.fld LEDGER_CQ_TAIL LEDGER_CQ_TAIL_index)
     let done := c.setFw { c.fw with asks := c.fw.asks.filter (fun b => b.tag != cmd.tag) }
     let y := c.setFw { c.fw with jobs := c.fw.jobs.filter (fun b => b.tag != cmd.tag) }
     let fails := healthCount y 3 0
     let waits (t : State) : State := t.setFw { t.fw with jobs := { job with wait := some st, due := t.tb + 2500000 } :: t.fw.jobs }
     let entry := c.cordEntry (val.getD 0)
     let ends : Prop := s.mayComplete i = true ∧ s.ledCmd i = some cmd ∧ cmd.own.isSome = true ∧ cmd.res = some (st, dt, val)
     let answers : Prop := (ledgerComplete s i).fwServes = true ∧ ends
     let asked : Prop := answers ∧ c.fw.jobs.find? (fun b => b.tag == cmd.tag) = none ∧ c.fw.asks.find? (fun b => b.tag == cmd.tag) = some ⟨cmd.tag, why⟩
     let seals : Prop := answers ∧ c.fw.jobs.find? (fun b => b.tag == cmd.tag) = some job
     (ends → (ledgerComplete s i).fwServes = false → Does (.ledgerCompletion i) s ((ledgerComplete s i).setFw { (ledgerComplete s i).fw with
       ended := (ledgerComplete s i).fw.ended ++ [(cmd.tag, s.fld LEDGER_CQ_TAIL LEDGER_CQ_TAIL_index, st, val.getD 0)] })) ∧
     (answers → c.fw.jobs.find? (fun b => b.tag == cmd.tag) = none → c.fw.asks.find? (fun b => b.tag == cmd.tag) = none → Does (.ledgerCompletion i) s (healthCount c 3 7)) ∧
     (seals → st = 0 → job.why = .event → Does (.ledgerCompletion i) s (submitNext (sealedRecord (goMoney y whySeal) entry job.payload))) ∧
     (seals → st = 0 → job.why = .raise n d → let t := sealedRecord (goMoney y whySeal) entry job.payload
       let t := floorWrite t t.keeperCtx n d
       Does (.ledgerCompletion i) s (submitNext (t.setFw { t.fw with raised := (n, t.tb) :: t.fw.raised.filter (fun e => e.1 != n) }))) ∧
     (seals → st = 8 ∨ st = 13 → job.tries < 3 → Does (.ledgerCompletion i) s (submitNext (fails.setFw { fails.fw with jobs := { job with tries := job.tries + 1 } :: fails.fw.jobs }))) ∧
     (seals → st = 8 ∨ st = 13 → 3 ≤ job.tries → Does (.ledgerCompletion i) s (waits (healthAlert (stopMoney fails whySeal) 3 0))) ∧
     (seals → st = 10 → Does (.ledgerCompletion i) s (waits (stopMoney fails whySeal))) ∧
     (seals → st = 6 → Does (.ledgerCompletion i) s (waits (healthAlert (stopMoney (healthCount fails 3 5) whySeal) 3 0))) ∧
     (seals → st ∈ [1, 2, 4, 5] → Does (.ledgerCompletion i) s (submitNext (waits (healthAlert (stopMoney fails whyDead) 3 0)))) ∧
     (asked → why = .verify body → st ≠ 0 → Does (.ledgerCompletion i) s (healthCount done 5 4)) ∧
     (asked → why = .verify body → st = 0 → body.length = 16 → (bodyEntry body 0).1 / 2 ^ 54 = done.fw.node → done.fw.pend.find? (fun e => e.txid == (bodyEntry body 0).1) = some pe →
       (bodyEntry body 0).2.1 = pe.tag → Does (.ledgerCompletion i) s (settlePend done (bodyEntry body 0).1 (bodyEntry body 0).2.2)) ∧
     (asked → why = .verify body → st = 0 → Does (.ledgerCompletion i) s ((List.range (body.length / 16)).foldl (fun y i =>
       if (bodyEntry body i).1 / 2 ^ 54 == y.fw.node then ackEntry y false (bodyEntry body i) else y) done)) ∧
     (asked → why = .batch es body → st ≠ 0 → Does (.ledgerCompletion i) s (done.setFw { done.fw with batch := es ++ done.fw.batch })) ∧
     (asked → why = .batch es body → st = 0 → let b := done.setFw { done.fw with batchId := done.fw.batchId + 1 }
       let sent := (b.batchNodes es).foldl (fun y n => sendBatch y n done.fw.batchId entry body) b
       Does (.ledgerCompletion i) s ((es.filter (fun e => e.node == sent.fw.node && e.tag == 0)).foldl (fun y e => ackEntry y true (e.txid, e.tag, e.status)) sent)) ∧
     (let add (t : State) (b : Nat) (frames : List (Nat × Nat)) : State := t.setFw { t.fw with batch := t.fw.batch ++ [⟨recTxid r, d, b, n, frames⟩] }
      (asked → why = .record n d r body → done.isActive = false ∨ batchStatus st = none → Does (.ledgerCompletion i) s done) ∧
      (asked → why = .record n d r body → done.isActive = true → st = 0 → Does (.ledgerCompletion i) s (add (replicate done r body).1 0 (replicate done r body).2)) ∧
      (asked → why = .record n d r body → done.isActive = true → st = 4 → Does (.ledgerCompletion i) s (add done 1 [])) ∧
      (asked → why = .record n d r body → done.isActive = true → st = 5 → Does (.ledgerCompletion i) s (add done 2 [])) ∧
      (asked → why = .record n d r body → done.isActive = true → st = 3 ∨ st = 12 → Does (.ledgerCompletion i) s (add done 3 [])))) ∧
    (let size := 2 ^ s.fld (FLOOR_Q_CFG p) FLOOR_Q_CFG_rx_log2
     let i := s.fld (FLOOR_RXQ_TAIL p) FLOOR_RXQ_TAIL_index
     let full := i = s.fld (FLOOR_RXQ_HEAD p) FLOOR_RXQ_HEAD_index % size
     let good : Prop := ok = true ∧ 60 ≤ f.length ∧ f.length ≤ (if isTagged f = true then 1518 else 1514)
     let taken : Prop := s.typeOk (etherType f) = true ∧ s.destOk p f = true
     let desc := s.fld (FLOOR_RXQ_BASE p) FLOOR_RXQ_BASE_base * 16 + 16 * i
     let r := memRead s 11 desc 4 []
     let b := (memWrite r.s 11 (leOf r.data) f []).s
     let w1 := 2 ^ 31 + (if isPtpEvent f = true then 2 ^ 30 else 0) + (if isTagged f = true then 2 ^ 29 else 0) + f.length
     let t := (memWrite b 11 (desc + 4) (leBytes 4 w1 ++ leBytes 8 (stampOf sfd.toNat (s.fld (FLOOR_TS_ADJ p) FLOOR_TS_ADJ_rx))) []).s
     (s.portUp p = false → Does (.frameReceive p f ok sfd) s s) ∧
     (s.portUp p = true → ¬ good → Does (.frameReceive p f ok sfd) s (s.count (FLOOR_CNT_1 p) FLOOR_CNT_1_fcs_err)) ∧
     (s.portUp p = true → good → ¬ taken ∨ full → Does (.frameReceive p f ok sfd) s (s.count (FLOOR_CNT_1 p) FLOOR_CNT_1_dropped)) ∧
     (s.portUp p = true → good → taken → ¬ full → b.fld (FLOOR_TS_ADJ p) FLOOR_TS_ADJ_rx = s.fld (FLOOR_TS_ADJ p) FLOOR_TS_ADJ_rx → Does (.frameReceive p f ok sfd) s
       ((t.setFld (FLOOR_RXQ_TAIL p) FLOOR_RXQ_TAIL_index ((i + 1) % size)).count (FLOOR_CNT_0 p) FLOOR_CNT_0_rx_frames))) ∧
    (up → (rxFrame s p).2 = none → Does (.helloReceived p) s (rxFrame s p).1 ∧ Does (.controlReceived p q) s (rxFrame s p).1 ∧ Does (.dataReceived p q) s (rxFrame s p).1) ∧
    (let leaves := if s.knownFrame g = true then b0 else healthCount z 4 3
     (up → finds → s.isFloor kindHello g = false → Does (.helloReceived p) s leaves) ∧
     (up → finds → s.isFrom kindControl q g = false → Does (.controlReceived p q) s leaves) ∧
     (up → finds → s.isFrom kindData q g = false → Does (.dataReceived p q) s leaves)) ∧
    (let good : Prop := z.hdrOk m kindHello = true ∧ hdrLen m = 40 ∧ 40 ≤ (m.drop 40).length
     let got := (((m.drop 40).drop 4).take 32, leOf ((m.drop 40).take 4), ((m.drop 40).getD 36 0).toNat, ((m.drop 40).getD 37 0).toNat)
     let y := z.fsess h
     let t := z.setFsess h { y with peer := some got, live := y.live && (y.peer.map (·.1) == some got.1) && !y.est }
     let new : Prop := y.est = false ∨ (y.up0 = false ∧ y.up1 = false)
     (up → comes kindHello → ¬ good → Does (.helloReceived p) s (healthCount z 4 3)) ∧
     (up → comes kindHello → good → z.peer h = none → Does (.helloReceived p) s (healthCount z 4 5)) ∧
     (up → comes kindHello → good → z.peer h ≠ none → ¬ new → Does (.helloReceived p) s z) ∧
     (up → comes kindHello → good → z.peer h ≠ none → new → y.opening = true → Does (.helloReceived p) s (maybeDerive (if y.sentHello = true then t else sendHello t h) h)) ∧
     (up → comes kindHello → good → z.peer h ≠ none → new → y.opening = false → let o := openSession z h
       Does (.helloReceived p) s (maybeDerive (sendHello (o.setFsess h { o.fsess h with peer := some got, live := false }) h) h))) ∧
    (let c := openFrame z kindControl m
     let b := openFrame z kindData m
     (up → comes kindControl → h = q.val → z.hdrOk m kindControl = false ∨ z.sess h = none → Does (.controlReceived p q) s (healthCount z 4 3)) ∧
     (up → comes kindControl → h = q.val → c.2 = none → Does (.controlReceived p q) s c.1) ∧
     (up → comes kindControl → h = q.val → c.2 = some body → Does (.controlReceived p q) s (takeAcks (takeBase (pathHeard c.1 h p) h m) h m)) ∧
     (up → comes kindData → h = q.val → b.2 = none → Does (.dataReceived p q) s b.1) ∧
     (up → comes kindData → h = q.val → b.2 = some body →
       let t := takeAcks (takeBase (pathHeard b.1 h p) h m) h m
       let y := t.fsess h
       let c := advanceCum (y.got.length + 1) y.cum (hdrSeq m :: y.got)
       let e := t.setFsess h { y with cum := c.1, got := c.2 }
       (hdrSeq m ≤ y.cum ∨ hdrSeq m ∈ y.got → Does (.dataReceived p q) s (healthCount t 4 6)) ∧
       (y.cum < hdrSeq m → hdrSeq m ∉ y.got → Does (.dataReceived p q) s
         (e.setFw { e.fw with inbox := e.fw.inbox ++ (messagesOf (body.length / 4) body).map (fun o => (h, o.1, o.2)) })))) ∧
    (let entry := (v.drop 4).take 192
     let may : Prop := s.isActive = true ∧ fw.epochOpen = true ∧ fw.rebuilt = true
     (up → inbox 1 → ¬ may ∨ v.length < 196 → Does .recordReceived s took) ∧
     (up → inbox 1 → may → 196 ≤ v.length → let t := fwAsk took 3 s.keeperCtx [n * 2 ^ 16, 0, 128, 0, 0, 0, 64] entry (.record n (leOf (v.take 4)) entry (v.drop 196))
       Does .recordReceived s (completeLast (ledgerAdmit t t.lastCmd)))) ∧
    (let b := took.asm n (leOf (v.take 4))
     let set (b : Asm) : State := took.setFw { took.fw with asms := fw.asms.filter (fun c => !(c.peer == b.peer && c.id == b.id)) ++ [b] }
     (up → inbox 2 → v.length < 200 → Does .batchHead s took) ∧
     (up → inbox 2 → 200 ≤ v.length → Does .batchHead s (set { b with head := some (leOf ((v.drop 4).take 2), (v.drop 8).take 128, (v.drop 136).take 64) })) ∧
     (up → inbox 3 → Does .batchPart s (set { b with parts := b.parts ++ [(leOf ((v.drop 4).take 2), v.drop 6)] }))) ∧
    (let pt := leOf (v.take 8)
     let early : Prop := fw.raised.any (fun e => e.1 == n && s.tb < e.2 + 250000000) = true
     let waiting : Prop := ∃ j ∈ fw.jobs, j.dead = false ∧ ∃ c, j.why = .raise n c
     let may : Prop := s.isActive = true ∧ fw.epochOpen = true ∧ fw.nextSeq < 2 ^ 34 - 1
     (up → inbox 4 → ¬ may ∨ pt / 2 ^ 54 ≠ n ∨ pt % 2 ^ 54 ≤ took.floorOf s.keeperCtx n ∨ early ∨ waiting → Does .pointReceived s took) ∧
     (up → inbox 4 → may → pt / 2 ^ 54 = n → took.floorOf s.keeperCtx n < pt % 2 ^ 54 → ¬ early → ¬ waiting → Does .pointReceived s
       (sealOwn took 0x0302 (List.replicate 32 0) (item 4 (leBytes 2 n ++ leBytes 4 (pt / 2 ^ 34 % 2 ^ 20) ++ leBytes 8 (pt % 2 ^ 34))) (.raise n (pt % 2 ^ 54))))) ∧
    (let own : Prop := recTxid v / 2 ^ 54 = fw.node
     (up → inbox 5 → s.keeper = false ∨ v.length < 192 → Does .replicaReceived s took) ∧
     (up → inbox 5 → s.keeper = true → 192 ≤ v.length → fw.epochOpen = false ∨ fw.rebuilt = false → Does .replicaReceived s s) ∧
     (up → inbox 5 → s.keeper = true → 192 ≤ v.length → fw.epochOpen = true → fw.rebuilt = true → ¬ own →
       let t := fwAsk took 3 s.keeperCtx [recTxid v / 2 ^ 54 * 2 ^ 16, 0, 128, 0, 0, 0, 64] (v.take 192) .replica
       Does .replicaReceived s (completeLast (ledgerAdmit t t.lastCmd))) ∧
     (up → inbox 5 → s.keeper = true → 192 ≤ v.length → fw.epochOpen = true → fw.rebuilt = true → own →
       Does .replicaReceived s (if s.isDual = true then runLast (fwAsk took 6 1 [0, 0, 0, 0, 0, 0, 0, recTxid v % 2 ^ 32, recTxid v / 2 ^ 32] [] .seen) 6 opSeenInsert else took))) ∧
    (let term := leOf (v.take 4)
     let member : Prop := fw.keepers.any (fun e => e.1 == fw.node) = true
     let down : Prop := fw.active = none ∨ (fw.active = some d ∧ (s.fsess d).up0 = false ∧ (s.fsess d).up1 = false)
     (up → inbox 6 → term ≤ fw.term → Does .takeoverReceived s took) ∧
     (up → inbox 6 → fw.term < term → member → Does .takeoverReceived s (took.setFw { took.fw with term := term, active := some n, synced := false, inSync := [] })) ∧
     (up → inbox 6 → fw.term < term → ¬ member → down → Does .takeoverReceived s (resendAll (took.setFw { took.fw with term := term, active := some n }))) ∧
     (up → inbox 6 → fw.term < term → ¬ member → fw.active = some d → (s.fsess d).up0 = true ∨ (s.fsess d).up1 = true → Does .takeoverReceived s took)) ∧
    (up → x.opening = false → Does (.helloTimer q) s s) ∧
    (up → x.opening = true → s.linkUp p = true → s.linkUp (1 - p) = false →
      let t := sendFloor s p q (floorHeader s q kindHello p q (List.replicate 12 0) 0 40 ++
        (leBytes 4 fw.epoch ++ x.nonce ++ leBytes 1 (if s.keeper = true then 1 else 0) ++ leBytes 1 fw.rank ++ [0, 0]))
      x.nonce.length = 32 → Does (.helloTimer q) s (maybeDerive (t.setFsess q { t.fsess q with sentHello := true }) q)) ∧
    (up → Does (.helloTimer q) s (if x.opening = true then maybeDerive (sendHello s q) q else s)) ∧
    (up → Does (.ackTimer q) s (if x.est = true then sendControl s q else s)) ∧
    (let y : List FwFrame := x.held.filter (fun e => !e.sacked)
     (up → y.find? (fun e => e.seq == w.toNat) = none → Does (.retransmitTimeout q w) s s) ∧
     (up → y.find? (fun e => e.seq == w.toNat) = some fr → fr.sends < 9 → Does (.retransmitTimeout q w) s
       (sendHeld s q (if fr.sends = 0 then s.pathFor q else s.pathForResend q fr.path) fr)) ∧
     (up → y.find? (fun e => e.seq == w.toNat) = some fr → 9 ≤ fr.sends →
       let held : List FwFrame := x.held.filter (fun e => e.seq != w.toNat)
       let low := ((held.filter (fun e => !e.sacked)).head?.map (·.seq)).getD x.next
       let t := healthCount (s.setFsess q { x with held := held, base := low }) 4 0
       Does (.retransmitTimeout q w) s (flush (if hasReplica fr.body = true then t.setFw { t.fw with inSync := t.fw.inSync.filter (· != q.val) } else t) q))) ∧
    (let was := if p.val = 0 then x.up0 else x.up1
     let t := s.setFsess q (if p.val = 0 then { x with up0 := false } else { x with up1 := false })
     up → Does (.pathTimeout q p) s (if was = true then healthCount t 4 1 else t)) ∧
    (up → Does (.heartbeatTimer q p) s (if x.live = true ∧ s.linkUp p = true then sendFrame s q p kindControl 0 0 [] else s)) ∧
    (let lost : Prop := l.up = false ∨ (l.lock = false ∧ s.bit (FLOOR_STAT p) FLOOR_STAT_lock = true)
     let ten := s.tenGigabit p
     let peers := s.fw.sess.map (·.1)
     (up → ¬ lost → Does (.portLinkChange p l) s (peers.foldl (fun t n =>
       ((t.fsess n).held.filter (fun e => !e.sacked)).foldl (fun t e => if e.waits = true then sendHeld t n (t.pathFor n) e else t) t) (linkSet s p l))) ∧
     (¬ up ∨ lost → Completes (.portLinkChange p l) s (fun t => t.bit (FLOOR_STAT p) FLOOR_STAT_link = l.up ∧ t.bit (FLOOR_STAT p) FLOOR_STAT_lock = (ten && l.lock) ∧
       t.bit (FLOOR_STAT p) FLOOR_STAT_speed = (ten && l.tenG) ∧ t.bit (FLOOR_STAT p) FLOOR_STAT_trained = (ten && l.trained) ∧
       t.bit (FLOOR_STAT p) FLOOR_STAT_changed = (s.bit (FLOOR_STAT p) FLOOR_STAT_changed || l.up != s.bit (FLOOR_STAT p) FLOOR_STAT_link) ∧
       (up → (if p.val = 0 then (t.fsess q).up0 else (t.fsess q).up1) = false) ∧ RegsBut [FLOOR_STAT p] s t ∧ SameMem s t))) ∧
    (let tries := s.blkOn (34 + p) = true ∧ s.bit (FLOOR_CTRL p) FLOOR_CTRL_fallback = true ∧ s.bit (FLOOR_CTRL p) FLOOR_CTRL_enable = true ∧ s.fld (FLOOR_CTRL p) FLOOR_CTRL_mode < 2 ∧
       s.bit (FLOOR_STAT p) (if s.fallbackTrial p = true then FLOOR_STAT_link else FLOOR_STAT_lock) = false
     (¬ tries → Does (.fallbackTimer p) s s) ∧
     (tries → Completes (.fallbackTimer p) s (fun t => t.fallbackTrial p = !s.fallbackTrial p ∧ RegsBut [] s t ∧ SameMem s t))) ∧
    (let ready : Prop := s.keeper = true ∧ fw.synced = true ∧ s.isActive = false ∧ fw.keepers.any (fun e => e.1 == fw.node) = true
     let t := healthAlert (healthCount (s.setFw { fw with term := fw.term + 1, active := some fw.node, inSync := [] }) 4 2) 4 2
     let told := (t.led.peers.map (·.1)).foldl (fun y m => sendMessage y m 6 (leBytes 4 y.fw.term ++ leBytes 1 y.fw.rank ++ [0, 0, 0])) t
     (up → ¬ ready → Does .keeperSilence s s) ∧
     (up → ready → Does .keeperSilence s (told.fw.pend.foldl (fun y e => if y.inBatch e.txid = true then y else keeperOwn y e.entry e.payload) told))) ∧
    (s.fld (FLOOR_Q_CFG p) FLOOR_Q_CFG_tx_log2 ≤ 12 → Completes (.txqTailWrite p ix) s (fun t => t.fld (FLOOR_TXQ_TAIL p) FLOOR_TXQ_TAIL_index = ix.toNat % 2 ^ s.fld (FLOOR_Q_CFG p) FLOOR_Q_CFG_tx_log2 ∧ RegsBut [FLOOR_TXQ_TAIL p] s t ∧ SameMem s t)) ∧
    (let i := s.fld (FLOOR_TXQ_HEAD p) FLOOR_TXQ_HEAD_index
     let desc := s.fld (FLOOR_TXQ_BASE p) FLOOR_TXQ_BASE_base * 16 + 16 * i
     let r := memRead s 11 desc 8 []
     let w1 := leOf (r.data.drop 4)
     let e := memRead r.s 11 (leOf (r.data.take 4)) (bitsN w1 10 0) []
     let tagged := if e.s.bit FLOOR_ETYPE FLOOR_ETYPE_tag_en = true ∧ isTagged e.data = false then
       e.data.take 12 ++ [0x81, 0x00] ++ beBytes 2 (e.s.fld FLOOR_ETYPE FLOOR_ETYPE_pcp * 2 ^ 13 + e.s.fld FLOOR_ETYPE FLOOR_ETYPE_vid) ++ e.data.drop 12 else e.data
     let t := (setWire e.s p (tagged ++ fcsOf tagged)).count (FLOOR_CNT_0 p) FLOOR_CNT_0_tx_frames
     let stamped := w1.testBit 30 = true ∧ t.bit (FLOOR_TXTS_ID p) FLOOR_TXTS_ID_valid = false
     let stamps := ({ t with txts := smSet (fun _ => 0) t.txts p (stampOf sfd.toNat (t.fld (FLOOR_TS_ADJ p) FLOOR_TS_ADJ_tx)) }.setBit (FLOOR_TXTS_ID p) FLOOR_TXTS_ID_valid true).setFld
       (FLOOR_TXTS_ID p) FLOOR_TXTS_ID_seq_id (etherAt e.data (etherBody e.data + 30))
     let fill (t : State) : State := if t.fwServes = true then txFill t p else t
     let sent (t : State) : State := fill (raisePulse ((memWrite t 11 (desc + 4) (leBytes 4 (w1 % 2 ^ 31 + 2 ^ 31)) []).s.setFld (FLOOR_TXQ_HEAD p) FLOOR_TXQ_HEAD_index
       ((i + 1) % 2 ^ (s.fld (FLOOR_Q_CFG p) FLOOR_Q_CFG_tx_log2))) (164 + p))
     (s.portUp p = false ∨ i = s.fld (FLOOR_TXQ_TAIL p) FLOOR_TXQ_TAIL_index → Does (.txDescriptorDone p sfd) s (fill s)) ∧
     (s.portUp p = true → i ≠ s.fld (FLOOR_TXQ_TAIL p) FLOOR_TXQ_TAIL_index → Does (.txDescriptorDone p sfd) s (sent (if stamped then stamps else t)))) ∧
    (Completes (.txtsRead p) s (fun t => t.rd = ⟨smGet (fun _ => 0) s.txts p % 2 ^ 32, false, false⟩ ∧
      t.reg (FLOOR_TXTS_HI p) = BitVec.ofNat 32 (smGet (fun _ => 0) s.txts p / 2 ^ 32) ∧ RegsBut [FLOOR_TXTS_HI p] s t ∧ SameMem s t)) ∧
    (let c := z.fw.clock
     let on : Prop := up ∧ fw.ptp.2.2 = true
     let free (u : State) (j : Nat) : Prop := ∀ e ∈ (rxFrame u j).2.toList, etherType e.1 ≠ 0x88F7
     let b := (rxFrame s 0).1
     let heard : Prop := etherType g = 0x88F7 ∧
       ((p.val = 0 ∧ rxFrame s 0 = (b0, some (g, ts))) ∨ (p.val = 1 ∧ free s 0 ∧ rxFrame b 1 = (b0, some (g, ts))))
     let own := (rxFrame b 1).1
     let seq := own.fw.clock.next
     let mine : Prop := heard ∧ ptpVersion m = 2 ∧ ptpDomain m = z.fw.ptp.1 ∧ ptpSource m ≠ z.portId p
     let hears : Prop := mine ∧ z.fromMaster p m = true
     (up → fw.ptp.2.2 = false → Does .ptpMessage s s) ∧
     (on → free s 0 → free b 1 → own.fw.clock.master.isSome = true → Does .ptpMessage s own) ∧
     (on → free s 0 → free b 1 → own.fw.clock.master = none → (∀ j : Fin 2, own.bit (FLOOR_TXTS_ID j) FLOOR_TXTS_ID_valid = false) → Does .ptpMessage s
       (ptpAnnounces (ptpAnnounces (own.setFw { own.fw with clock := { own.fw.clock with next := seq + 1 } }) 0 seq) 1 seq)) ∧
     (on → free s 0 → free b 1 → Does .ptpMessage s (ptpOwn own)) ∧
     (on → heard → ptpVersion m ≠ 2 ∨ ptpDomain m ≠ z.fw.ptp.1 ∨ ptpSource m = z.portId p → Does .ptpMessage s z) ∧
     (on → mine → ptpType m = 11 → ptpRank m < z.ownRank → c.master = none → Does .ptpMessage s (z.setFw { z.fw with clock := { c with master := some (p, ptpSource m, ptpRank m) } })) ∧
     (on → mine → ptpType m = 1 → Does .ptpMessage s
       (if c.master.isSome = true then z else ptpSend z p (ptpOf z p 9 (ptpSeq m) (timeBytes (4 * ts) ++ ptpSource m)))) ∧
     (on → hears → ptpType m = 0 → Does .ptpMessage s (z.setFw { z.fw with clock := { c with sync := ptpSeq m, t2 := some (4 * ts), t1 := none } })) ∧
     (on → hears → ptpType m = 8 → c.sync = ptpSeq m → c.t2.isSome = true →
       let t := z.setFw { z.fw with clock := { c with t1 := some ((ptpStamp m : Int) + ptpCorrection m).toNat, t3 := none, req := c.next, next := c.next + 1 } }
       Does .ptpMessage s (ptpSend t p (ptpOf t p 1 c.next (timeBytes 0)))) ∧
     (on → hears → ptpType m = 9 → (m.drop 44).take 10 = z.portId p → ptpSeq m = c.req % 65536 → c.t1.isSome = true → z.bit (FLOOR_TXTS_ID p) FLOOR_TXTS_ID_valid = true →
       z.fld (FLOOR_TXTS_ID p) FLOOR_TXTS_ID_seq_id = c.req % 65536 →
       Completes .ptpMessage s (fun t => -200000 ≤ (t.reg TB_ADJ).toInt ∧ (t.reg TB_ADJ).toInt ≤ 200000 ∧ t.bit (FLOOR_TXTS_ID p) FLOOR_TXTS_ID_valid = false ∧
         RegsBut [TB_ADJ, FLOOR_TXTS_ID p] z t ∧ SameMem z t))) ∧
    (up → Does .pointSend s (if fw.epochOpen = true then reportPoint s else s))

/-- The host interface, and the SYS, POWER, HEALTH, DEBUG, LEDGER and FLOOR commands (R352, R385, R395, R396, R415, R416, R422, R425, R428 to R433, R436 to R442, R445, R446,
R447, R490, R494, R511 to R513, R523, R531). `u` is the state in which Falornyr has copied and acknowledged the oldest request, which is mailbox `n`'s; `d` is a command whose work goes on.
That the buffers' bytes are read in one step, and the other choices of assumptions 38, 47 to 53, 55 and 58 to 60, are the model's. -/
def Obligations.HostAccessesAndFirmwareCommandsAnswer : Prop :=
  ∀ (s : State) (n : Fin 4) (off w2 : Word) (o size len gen width a : Nat) (wr ok : Bool) (bs data : List Byte) (seen ws : List Nat) (d : HostCmd) (pr : Profile),
    let c := s.request n
    let u := acceptCmd s n
    let bare (op : Nat) : Prop := s.fwServes = true ∧ s.mbxBusy n = true ∧ s.fw.goes.head? = some n.val ∧ s.fw.cmds = [] ∧ (s.fw.last.lookup n.val).map (·.1) ≠ some c.seq ∧ c.op = op
    let asked (op k : Nat) : Prop := bare op ∧ c.flags = 0 ∧ c.len = k + 1 ∧ u.fw.restart = false ∧ u.curProfile ≠ 0xFF ∧ ((groupBlocks op).isEmpty || (groupBlocks op).any u.provides) = true ∧
      (op / 256 = 0x7F → op ≠ 0x7F00 → u.unlocked = true)
    let done (t : State) (res : List Nat) : State := answer (retire t c) c 0 0 res
    let no (t : State) (st det : Nat) : State := answer (retire t c) c st det []
    let working (op : Nat) : Prop := s.fwServes = true ∧ s.mbxBusy n = false ∧ s.fw.cmds = [d] ∧ d.mbx = n.val ∧ d.op = op ∧ d.begun = true ∧ d.told = false
    let ends (t : State) (res : List Nat) : State := answer (retire t d) d 0 0 res
    let buf (i k : Nat) : Prop := u.buffer (c.p i) k = some a
    let got (k : Nat) : Prop := (fwRead u a k).2 = some data
    let v (k : Nat) : State := (fwRead u a k).1
    let regs (as : List Nat) : State × List Nat := takeRegs u as
    let opened := s.barsOpen = true
    (s.barsOpen = false → Does (.bar0Access off size wr w2) s s ∧ Does (.bar2Access o none len seen) s s ∧ Does (.bar4Access o (some bs) len seen) s s) ∧
    (let x := off.toNat
     let whole : Prop := size = 4 ∧ x % 4 = 0
     (opened → ¬ whole → Does (.bar0Access off size wr w2) s (hostSees (hostRefuse (fabErr s 11 0x3F 5 (0x400A0000 + x)) 0 x wr 3) 0 true false)) ∧
     (opened → whole → x < 0x600 ∨ (0x1000 ≤ x ∧ x < 0x1010) → Does (.bar0Access off size true w2) s (mbxWrite s 1 (0x400A0000 + x) w2)) ∧
     (opened → whole → x < 0x600 ∨ (0x1000 ≤ x ∧ x < 0x1010) → Does (.bar0Access off size false w2) s
       (hostSees (mbxRead s 1 (0x400A0000 + x)).1 (mbxRead s 1 (0x400A0000 + x)).2.toNat false false)) ∧
     (opened → whole → 0x400A0000 + x = KILN_DB_SET → Does (.bar0Access off size true w2) s (mbxWrite s 1 KILN_DB_SET (w2 &&& 0xFFFF0000))) ∧
     (opened → whole → 0x8000 ≤ x → x < 0x8200 → x / 4 % 4 = 2 → Completes (.bar0Access off size true w2) s (fun t => (t.msix ((x - 0x8000) / 16)).data = w2.toNat ∧ RegsBut [] s t ∧ SameMem s t)) ∧
     (opened → whole → 0x8000 ≤ x → x < 0x8200 → Does (.bar0Access off size false w2) s (hostSees s (s.msixWord ((x - 0x8000) / 4)) false false)) ∧
     (opened → whole → x = 0x9000 → Does (.bar0Access off size false w2) s (hostSees s s.pbaWord false false))) ∧
    (let win := o / 2 ^ 26
     let at_ (k : Nat) : Prop := win < 4 ∧ s.bit (HOST_WIN_CFG win) HOST_WIN_CFG_enable = true ∧ o % 2 ^ 26 + k ≤ s.fld (HOST_WIN_CFG win) HOST_WIN_CFG_size * 65536
     let x := s.fld (HOST_WIN_BASE win) HOST_WIN_BASE_base * 65536 + o % 2 ^ 26
     let may := s.bit (HOST_WIN_CFG win) HOST_WIN_CFG_write = true
     let r := busRead s iniHost x len seen
     let y := busWrite s iniHost x bs seen
     (opened → ¬ at_ len → Does (.bar2Access o none len seen) s (hostSees (hostRefuse s 1 o false 1) 0 true false)) ∧
     (opened → ¬ at_ bs.length → Does (.bar2Access o (some bs) len seen) s (hostRefuse s 1 o true 1)) ∧
     (opened → at_ bs.length → ¬ may → Does (.bar2Access o (some bs) len seen) s (hostRefuse s 1 o true 2)) ∧
     (opened → at_ bs.length → may → Does (.bar2Access o (some bs) len seen) s (if y.err = true then hostRefuse y.s 1 o true 3 else y.s)) ∧
     (opened → at_ len → r.err = false → r.poison = false → Does (.bar2Access o none len seen) s (hostSees r.s (leOf r.data) false false)) ∧
     (opened → at_ len → r.err = false → r.poison = true → Does (.bar2Access o none len seen) s (hostSees (hostRefuse r.s 1 o false 4) 0 false true)) ∧
     (opened → at_ len → r.err = true → Does (.bar2Access o none len seen) s (hostSees (hostRefuse r.s 1 o false 3) 0 true false))) ∧
    (let at_ (k x : Nat) : Prop := (o + k ≤ 0x800000 ∧ s.bit HOST_BAR4 HOST_BAR4_csram_en = true ∧ x = 0x10000000 + o) ∨
       (0x800000 ≤ o ∧ o + k ≤ 0xC00000 ∧ s.bit HOST_BAR4 HOST_BAR4_ls_en = true ∧ 0 < k ∧ x + 0x800000 = 0x11000000 + o)
     let may := s.bit HOST_BAR4 HOST_BAR4_write = true
     let r := busRead s iniHost a len seen
     let y := busWrite s iniHost a bs seen
     (opened → at_ bs.length a → ¬ may → Does (.bar4Access o (some bs) len seen) s (hostRefuse s 2 o true 2)) ∧
     (opened → at_ bs.length a → may → Does (.bar4Access o (some bs) len seen) s (if y.err = true then hostRefuse y.s 2 o true 3 else y.s)) ∧
     (opened → at_ len a → r.err = false → r.poison = false → Does (.bar4Access o none len seen) s (hostSees r.s (leOf r.data) false false)) ∧
     (opened → 0xC00000 < o + len → Does (.bar4Access o none len seen) s (hostSees (hostRefuse s 2 o false 1) 0 true false))) ∧
    (let link := s.bit HOST_LINK HOST_LINK_up = true
     (¬ link → Does .hostLinkDown s s ∧ Does .flr s s) ∧
     (link → Completes .hostLinkDown s (fun t => t.bit HOST_LINK HOST_LINK_up = false ∧ t.bit HOST_LINK HOST_LINK_changed = true ∧ t.host.msix = [] ∧ t.host.pba = [] ∧
       t.fld (MBX_STAT n) MBX_STAT_holder = (if s.fld (MBX_STAT n) MBX_STAT_holder = 1 then 0 else s.fld (MBX_STAT n) MBX_STAT_holder) ∧ RegsBut (HOST_LINK :: (List.range 8).map MBX_STAT) s t ∧ SameMem s t)) ∧
     (link → Completes .flr s (fun t => t.bit HOST_LINK HOST_LINK_flr = true ∧ t.bit HOST_LINK HOST_LINK_up = true ∧ t.host.msix = [] ∧ t.host.pba = [] ∧
       t.fld (MBX_STAT n) MBX_STAT_holder = (if s.fld (MBX_STAT n) MBX_STAT_holder = 1 then 0 else s.fld (MBX_STAT n) MBX_STAT_holder) ∧ RegsBut (HOST_LINK :: (List.range 8).map MBX_STAT) s t ∧ SameMem s t)) ∧
     (link → Does (.hostLinkUp gen width) s s) ∧
     (¬ link → gen < 16 → width < 32 → Completes (.hostLinkUp gen width) s (fun t => t.bit HOST_LINK HOST_LINK_up = true ∧ t.fld HOST_LINK HOST_LINK_gen = gen % 16 ∧ t.bit HOST_LINK HOST_LINK_changed = true ∧
       SameMem s t)) ∧
     (Completes (.powerManagementStateChange ok) s (fun t => t.host.d0 = ok ∧ (ok = false → t.host = { s.host with d0 := false }) ∧ RegsBut [] s t))) ∧
    (bare 0x0108 → c.flags ≠ 0 → Does (.sysEcho n) s (no u 1 0)) ∧
    (bare 0x0108 → c.flags = 0 → c.len = 0 ∨ 15 < c.len → Does (.sysEcho n) s (no u 3 0)) ∧
    (bare 0x0108 → c.flags = 0 → 1 ≤ c.len → c.len ≤ 15 → u.fw.restart = true → Does (.sysEcho n) s (no u 4 0)) ∧
    (bare 0x0108 → c.flags = 0 → 1 ≤ c.len → c.len ≤ 15 → u.fw.restart = false → Does (.sysEcho n) s (done u c.params)) ∧
    (bare 0x0108 → c.flags = 0 → 1 ≤ c.len → c.len ≤ 15 → u.fw.restart = false → u.fw.resps = [] → u.mbxBusy 4 = false → Completes (.sysEcho n) s (fun t =>
      t.reg (MBX_DATA 4 0) = BitVec.ofNat 32 (0x0108 * 2 ^ 16 + c.seq * 256 + 0x80 + n) ∧ t.reg (MBX_DATA 4 1) = 0 ∧ t.fld (MBX_CTRL 4) MBX_CTRL_len = c.len + 1 ∧ t.mbxBusy 4 = true ∧
      (∀ i : Fin 14, i.val < c.params.length → t.reg (MBX_DATA 4 (i + 2)) = BitVec.ofNat 32 (c.params.getD i 0)))) ∧
    (s.fwServes = true → s.mbxBusy n = true → s.fw.goes.head? = some n.val → c.op = 0x0108 → s.fw.cmds = [] → s.fw.last.lookup n.val = some (c.seq, some ws) →
      let t := mbxAck (s.setFw { s.fw with goes := s.fw.goes.erase n.val }) n 2
      Does (.sysEcho n) s (fwPostResp (t.setFw { t.fw with resps := t.fw.resps ++ [ws] }))) ∧
    (bare 0x0100 → c.flags = 0 → c.len = 1 → let ver := (u.fw.image.map (·.version)).getD 0
      Does (.sysVersion n) s (done u [ver, (Config.buildNumber ver).toNat, u.rw SYS_ID_0, u.rw SYS_ID_1, u.rw SYS_ID_2, u.curProfile])) ∧
    (asked 0x0102 4 → c.p 1 < 4 → c.p 2 % 65536 = 0 → u.windowRegion (c.p 2) (c.p 3 * 65536) = true → 1 ≤ c.p 3 → c.p 3 ≤ 1024 → c.p 4 = 0 ∨ (c.p 4 = 1 ∧ (List.range (c.p 3 * 256)).all (fun g => !u.barred (c.p 2 + 256 * g)) = true) →
      Does (.sysWindowOpen n) s (done (openWindow u (c.p 1) (c.p 2) (c.p 3) (c.p 4 == 1)) [c.p 1 * 2 ^ 26])) ∧
    (asked 0x0102 4 → 4 ≤ c.p 1 → Does (.sysWindowOpen n) s (no u 2 1)) ∧
    (asked 0x0103 1 → Does (.sysWindowClose n) s (if c.p 1 < 4 then done (u.setBit (HOST_WIN_CFG (c.p 1)) HOST_WIN_CFG_enable false) [] else no u 2 1)) ∧
    (asked 0x0104 1 → c.p 1 < 8 → Does (.sysBar4 n) s (done (((u.setBit HOST_BAR4 HOST_BAR4_csram_en ((c.p 1).testBit 2)).setBit HOST_BAR4 HOST_BAR4_ls_en ((c.p 1).testBit 1)).setBit
      HOST_BAR4 HOST_BAR4_write ((c.p 1).testBit 0)) [])) ∧
    (asked 0x0105 0 → Does (.sysTime n) s (done u [u.tb % 2 ^ 32, u.tb / 2 ^ 32 % 2 ^ 32, u.fw.epoch, if u.fw.ptpLock = true then 1 else 0])) ∧
    (bare 0x0106 → c.flags = 0 → c.len = 3 → u.fw.restart = false → buf 1 (c.p 2) → 192 ≤ c.p 2 → u.bit SYS_BOOT SYS_BOOT_cert_bad = false → (fwWrite u a u.fw.cert).2 = true →
      Does (.sysCert n) s (done (fwWrite u a u.fw.cert).1 [192])) ∧
    (bare 0x0107 → c.flags = 0 → c.len = 3 → u.fw.restart = false → buf 1 (c.p 2) → 256 ≤ c.p 2 → got (c.p 2) →
      let t := v (c.p 2)
      let good := t.imageValid (c.p 2) data
      Does (.sysImageStage n) s (done (t.setFw { t.fw with staged := some (headerWord data 4, good) }) [headerWord data 4, if good = true then 1 else 0])) ∧
    (asked 0x0101 1 → 4 ≤ c.p 1 → Does (.sysProfileSelect n) s (no u 2 1)) ∧
    (asked 0x0101 1 → c.p 1 < 4 → u.runnable (c.p 1) = none ∨ (u.runnable (c.p 1) = some pr ∧ u.safetyMatches pr = false) → Does (.sysProfileSelect n) s (no u 6 0)) ∧
    (asked 0x0101 1 → s.fw.restart = false → c.p 1 < 4 → u.runnable (c.p 1) = some pr → u.safetyMatches pr = true → Does (.sysProfileSelect n) s (restartBegin (done u [u.curProfile]) (c.p 1))) ∧
    (s.fwServes = true → s.fw.restart = true → s.mbxBusy n = false → s.fw.cmds = [] → s.allOff = true → s.runnable s.fw.goal = some pr → Does (.sysProfileSelect n) s
      (notify (notify (keyLoad (reachNoon (applyProfile (restartEmpty s) s.fw.goal pr) pr)) 0x01F0 2) 0x01F0 1)) ∧
    (asked 0x0200 1 → c.p 1 = u.fld PWR_STATE PWR_STATE_state → 1 ≤ c.p 1 → c.p 1 ≤ 2 → Does (.powerState n false) s (done u [c.p 1])) ∧
    (asked 0x0200 1 → c.p 1 = 3 → Does (.powerState n false) s (answer (keepCmd (stopBlocks u) c { c with begun := true, told := true, params := [3] }) c 0 0 [3])) ∧
    (asked 0x0200 1 → c.p 1 ≠ u.fld PWR_STATE PWR_STATE_state → c.p 1 = 1 ∨ c.p 1 = 2 → u.profileNow = some pr →
      let t := if c.p 1 = 2 then duskApply u pr else noonApply u pr
      let busy : Prop := ((List.range 4).map (9 + ·) ++ (List.range 10).map (18 + ·)).any (fun b => t.blkState b == 1 || t.blkState b == 3) = true
      Does (.powerState n false) s (if busy then keepCmd t c { c with begun := true, params := [c.p 1] } else done (t.setFld PWR_STATE PWR_STATE_state (c.p 1)) [c.p 1])) ∧
    (working 0x0200 → d.params = [2] → (List.range 40).all (fun b => s.blkState b == 0 || s.blkState b == 2) = true → Does (.powerState n false) s (ends (s.setFld PWR_STATE PWR_STATE_state 2) [2])) ∧
    (working 0x0200 → Does (.powerState n true) s (answer (keepCmd s d { d with told := true }) d 7 0 [])) ∧
    (asked 0x0201 0 → let t := [16, 17, 18, 19].map (fun k => signed 16 (u.fld (ADC_RES k) ADC_RES_value))
      Does (.powerStatus n) s (done u [u.fld PWR_STATE PWR_STATE_state, u.fld PWR_AVS_STAT PWR_AVS_STAT_vout_mv, wrapTo 32 (t.foldl max (t.getD 0 0)), u.fld PWR_THERM PWR_THERM_throttle])) ∧
    (asked 0x0202 2 → c.p 1 < 16 → let t := (u.setFld PWR_WAKE PWR_WAKE_pin_en (c.p 1)).setBit PWR_WAKE PWR_WAKE_rtc_en (c.p 2 != 0)
      Does (.powerWake n) s (done (if c.p 2 = 0 then t else t.setReg PWR_RTC_ALARM (BitVec.ofNat 32 (c.p 2))) [])) ∧
    (asked 0x0203 1 → u.profileNow = some pr → c.p 1 ≤ (if u.fld PWR_STATE PWR_STATE_state = 2 then pr.dusk else pr.noon) → Does (.powerLimit n) s (done (u.setFw { u.fw with limit := c.p 1 }) [c.p 1])) ∧
    (asked 0x4000 0 → Does (.ledgerStatus n) s (done (regs [LEDGER_CORD_CAP, LEDGER_SEEN_STAT]).1
      (twoWords u.led.seq ++ twoWords u.led.tail ++ (regs [LEDGER_CORD_CAP, LEDGER_SEEN_STAT]).2 ++ [u.fw.epoch]))) ∧
    (asked 0x4001 2 → c.p 1 + c.p 2 * 2 ^ 32 ≤ u.led.seq → let t := cordTailSet u (c.p 1 + c.p 2 * 2 ^ 32 + 1)
      Does (.ledgerPersisted n) s (done (resumeFor t 10) (twoWords t.led.tail))) ∧
    (bare 0x4002 → u.fw.epochOpen = true → c.flags = 0 → c.len = 3 → u.fw.restart = false → u.curProfile ≠ 0xFF → u.provides 33 = true → Does (.ledgerRecover n) s (no u 9 0)) ∧
    (asked 0x4002 2 → u.fw.epochOpen = false → 432 ≤ c.p 2 → c.p 2 ≤ 4 * (108 + 2 * 65536) → buf 1 (c.p 2) → got (c.p 2) →
      ∀ r ∈ (recoveryOf data).toList, Does (.ledgerRecover n) s (finish c (recoverWith (v (c.p 2)) r))) ∧
    (asked 0x4002 2 → u.fw.epochOpen = false → 432 ≤ c.p 2 → c.p 2 ≤ 4 * (108 + 2 * 65536) → buf 1 (c.p 2) → got (c.p 2) → (recoveryOf data).isNone = true → Does (.ledgerRecover n) s (no (v (c.p 2)) 2 1)) ∧
    (asked 0x4003 1 → c.p 1 < 2 → (List.range 3).all (fun i => u.bit (MEM_MIRROR i) MEM_MIRROR_valid && u.fld (MEM_MIRROR i) MEM_MIRROR_size != 0) = true →
      let open1 (t : State) (i : Nat) : State := openWindow t (c.p 1 + i) (aliasAddr (t.fld (MEM_MIRROR i) MEM_MIRROR_primary) (t.fld (MEM_MIRROR i) MEM_MIRROR_base * 0x40000)) (4 * t.fld (MEM_MIRROR i) MEM_MIRROR_size) false
      Does (.ledgerExport n) s (done (open1 (open1 (open1 u 0) 1) 2) [c.p 1 * 2 ^ 26, (c.p 1 + 1) * 2 ^ 26, (c.p 1 + 2) * 2 ^ 26])) ∧
    (asked 0x4004 4 → 1 ≤ c.p 2 → c.p 2 ≤ 4096 → c.p 3 < 4096 → 0x0201 ≤ c.p 4 → c.p 4 ≤ 0x0203 → buf 1 (c.p 2) → whySeq ∉ u.fw.stop → u.fw.epochOpen = true → got (c.p 2) →
      let y := v (c.p 2)
      (y.engineOn 0xD = false → Does (.ledgerSubmit n) s (no (ledgerNote y 13) 12 13)) ∧
      (y.engineOn 0xD = true → y.xlIdle = false → Does (.ledgerSubmit n) s (keepCmd y c { c with begun := true })) ∧
      Does (.ledgerSubmit n) s (finish c (submitMessage y c (c.p 3) (c.p 4) data))) ∧
    (working 0x4004 → 1 ≤ d.p 2 → d.p 2 ≤ 4096 → d.p 3 < 4096 → 0x0201 ≤ d.p 4 → d.p 4 ≤ 0x0203 → s.buffer (d.p 1) (d.p 2) = some a → whySeq ∉ s.fw.stop → s.fw.epochOpen = true →
      (fwRead s a (d.p 2)).2 = some data → Does (.ledgerSubmit n) s (finish d (submitMessage (fwRead s a (d.p 2)).1 d (d.p 3) (d.p 4) data))) ∧
    (asked 0x4005 3 → c.p 1 + c.p 2 ≤ 4096 → 1 ≤ c.p 2 → buf 3 (4 * c.p 2) → got (4 * c.p 2) → Does (.ledgerProgram n) s
      (done (regWrites (v (4 * c.p 2)) ((wordsLE data).zipIdx.map (fun e => (LEDGER_XL_PROG (c.p 1 + e.2), e.1)))) [])) ∧
    (asked 0x4100 9 → c.p 1 < 1024 → c.p 2 = 1 → u.mayKeep = false → Does (.floorConfig n) s (no u 2 2)) ∧
    (asked 0x4100 9 → c.p 1 < 1024 → c.p 2 = 0 ∨ (c.p 2 = 1 ∧ u.mayKeep = true) → c.p 3 < 256 → c.p 4 < 256 → c.p 4 % 4 ≠ 3 → c.p 4 / 16 % 4 ≠ 3 → 0x600 ≤ c.p 9 % 65536 → c.p 9 % 65536 ≠ 0x88F7 →
      Does (.floorConfig n) s (done (regWrites (u.setFw { u.fw with node := c.p 1, role := c.p 2, rank := c.p 3 })
        [(FLOOR_MAC_LO 0, c.p 5), (FLOOR_MAC_HI 0, c.p 6), (FLOOR_MAC_LO 1, c.p 7), (FLOOR_MAC_HI 1, c.p 8), (FLOOR_ETYPE, c.p 9), (FLOOR_CTRL 0, c.p 4 % 16 * 2 ^ 28), (FLOOR_CTRL 1, c.p 4 / 16 % 16 * 2 ^ 28)]) [])) ∧
    (asked 0x4101 2 → 1 ≤ c.p 2 → c.p 2 ≤ 16 → buf 1 (8 * c.p 2) → got (8 * c.p 2) →
      let ps := pairsOf (wordsLE data)
      let t := v (8 * c.p 2)
      ps.all (fun e => e.1 < 1024 && e.2 != 0 && e.2 < 256) = true → (ps.map (·.2)).Nodup → (ps.map (·.1)).Nodup → gen ∈ ps.map (·.1) →
      (∃ e ∈ ps, e.1 = gen ∧ ∀ f ∈ ps, f.2 ≤ e.2) →
      let fresh (m : Nat) : Bool := !t.fw.keepers.any (fun e => e.1 == m)
      let y := t.setFw { t.fw with keepers := ps, active := some gen, inSync := ((ps.map (·.1)).filter (· != gen)).filter (fun m => fresh m || t.fw.inSync.contains m)
                                   synced := fresh t.fw.node || t.fw.synced }
      Does (.floorTable n) s (done (if y.isActive = true ∧ t.isActive = false then passOwn y else y) [gen, t.fw.term])) ∧
    (asked 0x4102 3 → c.p 1 < 1024 → c.p 1 ≠ u.fw.node → c.p 3 = 192 → buf 2 192 → got 192 → let t := (v 192).setPeer (c.p 1) ((data.drop 16).take 96 ++ List.replicate 32 0)
      Does (.floorPeerAdd n) s (if certVerifies data = true then done (if (t.fsess (c.p 1)).est = true then t else openSession t (c.p 1)) [] else no (v 192) 11 0)) ∧
    (asked 0x4103 1 → c.p 1 < 1024 → Does (.floorPeerRemove n) s (done ((u.setSess (c.p 1) none).setFsess (c.p 1) FwSess.init) [])) ∧
    (asked 0x4104 1 → c.p 1 = u.fw.node → u.fw.keepers.any (fun e => e.1 == c.p 1) = true → u.fw.active ≠ some (c.p 1) → Does (.floorResync n false) s (done (u.setFw { u.fw with synced := true }) [1])) ∧
    (asked 0x4104 1 → c.p 1 ≠ u.fw.node → u.fw.keepers.any (fun e => e.1 == c.p 1) = true → u.fw.active ≠ some (c.p 1) → u.isActive = true →
      let x := u.fsess (c.p 1)
      let t := u.setFw { u.fw with inSync := c.p 1 :: u.fw.inSync.filter (· != c.p 1) }
      Does (.floorResync n false) s (if x.est = true ∧ x.held = [] ∧ x.wait = [] then done t [1] else keepCmd u c { c with begun := true })) ∧
    (asked 0x4105 3 → c.p 1 < 256 → c.p 2 < 256 → c.p 3 < 2 → Does (.floorPtp n) s (done (u.setFw { u.fw with ptp := (c.p 1, c.p 2, c.p 3 == 1) }) [])) ∧
    (asked 0x4106 1 → c.p 1 < 1024 → let r := regs [FLOOR_STAT 0, FLOOR_STAT 1]
      Does (.floorStatus n) s (done r.1 (r.2 ++ [(if (u.fsess (c.p 1)).up0 = true then 1 else 0) + (if (u.fsess (c.p 1)).up1 = true then 2 else 0), u.fw.active.getD 0xFFFF, u.fw.term]))) ∧
    (asked 0x5000 1 → c.p 1 < 8 → Does (.healthRead n) s (done (gather u) ((List.range (healthSize (c.p 1))).map ((gather u).health (c.p 1))))) ∧
    (asked 0x5001 1 → c.p 1 < 8 → let t := gather u
      Does (.healthClear n) s (done (t.setFw { t.fw with health := t.fw.health.filter (fun e => e.1 / 16 != c.p 1), posted := t.fw.posted.filter (fun e => e.1 / 16 != c.p 1) }) [])) ∧
    (asked 0x5002 2 → c.p 1 < 8 → Does (.healthAlert n) s (done (thresholdCheck (u.setFw { u.fw with thresholds := smSet (fun _ => 0) u.fw.thresholds (c.p 1) (c.p 2) })) [])) ∧
    (asked 0x5003 1 → Does (.healthHeartbeat n) s (done (u.setFw { u.fw with beat := c.p 1 }) [])) ∧
    (asked 0x7F00 1 → buf 1 128 → got 128 → let t := if 8 ≤ (v 128).fld DBG_AUTH DBG_AUTH_fails then v 128 else authEnd (v 128) data
      Does (.debugUnlock n) s (done t [if t.unlocked = true then 1 else 0])) ∧
    (asked 0x7F01 3 → Does (.debugTrace n) s (done (dbgWrite (dbgWrite (dbgWrite u DBG_TRACE_BASE (BitVec.ofNat 32 (c.p 2))) DBG_TRACE_SIZE (BitVec.ofNat 32 (c.p 3))) DBG_TRACE_CTRL (BitVec.ofNat 32 (c.p 1))) [])) ∧
    (bare 0x7F02 → c.flags = 0 → c.len = 3 → u.fw.restart = false → u.curProfile ≠ 0xFF → u.unlocked = false → Does (.debugPeek n) s (no u 6 0)) ∧
    (asked 0x7F02 2 → 1 ≤ c.p 2 → c.p 2 ≤ 14 → (peekWords u (c.p 1) (c.p 2)).2 = some ws → Does (.debugPeek n) s (done (peekWords u (c.p 1) (c.p 2)).1 ws)) ∧
    (asked 0x7F02 2 → 1 ≤ c.p 2 → c.p 2 ≤ 14 → (peekWords u (c.p 1) (c.p 2)).2 = none → Does (.debugPeek n) s (no (peekWords u (c.p 1) (c.p 2)).1 10 0))

/-- The SCENE, HEAD, WITNESS, AUDIO and KINDLE commands (R94, R97, R98, R114, R139, R143, R173 to R176, R181, R194, R200, R202, R206, R209, R267, R268, R276, R289, R292, R436 to R442, R445,
R446, R505, R554). `u` is the state in which Falornyr has copied and acknowledged the oldest request, which is mailbox `n`'s; `d` is a command whose work goes on. What the tables leave open is
the model's (assumptions 48, 49, 54, 56 and 57). -/
def Obligations.PictureSoundAndThreadCommandsAnswer : Prop :=
  ∀ (s : State) (n h : Fin 4) (a b k : Nat) (data : List Byte) (ws : List Nat) (d : HostCmd) (late : Bool),
    let c := s.request n
    let u := acceptCmd s n
    let asked (op k : Nat) : Prop := s.fwServes = true ∧ s.mbxBusy n = true ∧ s.fw.goes.head? = some n.val ∧ s.fw.cmds = [] ∧ (s.fw.last.lookup n.val).map (·.1) ≠ some c.seq ∧ c.op = op ∧
      c.flags = 0 ∧ c.len = k + 1 ∧ u.fw.restart = false ∧ u.curProfile ≠ 0xFF ∧ (groupBlocks op).any u.provides = true
    let done (t : State) (res : List Nat) : State := answer (retire t c) c 0 0 res
    let no (t : State) (st det : Nat) : State := answer (retire t c) c st det []
    let works (t : State) (keep : List Nat) : State := keepCmd t c { c with begun := true, params := keep }
    let working (op : Nat) : Prop := s.fwServes = true ∧ s.mbxBusy n = false ∧ s.fw.cmds = [d] ∧ d.mbx = n.val ∧ d.op = op ∧ d.begun = true ∧ d.told = false
    let ends (t : State) (res : List Nat) : State := answer (retire t d) d 0 0 res
    let goes (t : State) (keep : List Nat) : State := keepCmd t d { d with begun := true, params := keep }
    let head : Prop := c.p 1 = h.val ∧ u.provides (9 + h) = true
    let buf (i m : Nat) : Prop := u.buffer (c.p i) m = some a
    let got (m : Nat) : Prop := (fwRead u a m).2 = some data
    let v (m : Nat) : State := (fwRead u a m).1
    let words := wordsLE data
    let reg (t : State) (r x : Nat) : State := regWrite t r (BitVec.ofNat 32 x)
    (asked 0x1000 3 → 4 ≤ c.p 1 → Does (.sceneCommit n) s (no u 2 1)) ∧
    (asked 0x1000 3 → c.p 1 = h.val → u.provides (9 + h) = false → Does (.sceneCommit n) s (no u 5 0)) ∧
    (asked 0x1000 3 → head → 1 ≤ c.p 3 → c.p 3 ≤ 1024 → buf 2 (8 * c.p 3) → got (8 * c.p 3) → (pairsOf words).all (fun e => e.1 % 4 == 0 && e.1 < 0x1000) = true →
      let t := reg ((pairsOf words).foldl (fun y e => reg y (0x40100000 + 0x1000 * h + e.1) e.2) (reg (v (8 * c.p 3)) (SCENE_UPDATE h) 1)) (SCENE_UPDATE h) 0
      Does (.sceneCommit n) s (done t [(t.rw (HEAD_FRAME h) + 1) % 2 ^ 32])) ∧
    (asked 0x1001 5 → head → c.p 2 < 128 → c.p 3 < 128 → c.p 5 < 2 → buf 4 (1024 * (c.p 3 + 1)) → (u.head h).palJob.isSome = true → Does (.scenePalette n) s (no u 4 0)) ∧
    (asked 0x1001 5 → head → c.p 2 < 128 → c.p 3 < 128 → c.p 5 < 2 → buf 4 (1024 * (c.p 3 + 1)) → (u.head h).palJob.isSome = false →
      Does (.scenePalette n) s (done (regWrite (reg u (SCENE_PAL_SRC h) a) (SCENE_PAL_LOAD h)
        (setF (setF (setF (setF 0 SCENE_PAL_LOAD_go 1) SCENE_PAL_LOAD_at_frame (c.p 5)) SCENE_PAL_LOAD_first (c.p 2)) SCENE_PAL_LOAD_count (c.p 3))) [])) ∧
    (asked 0x1002 3 → u.provides 8 = true → c.p 3 < 256 → buf 1 32 → u.buffer (c.p 2) 1024 = some b → u.blkOn 8 = true → u.bit BLK_STAT BLK_STAT_running = true → Does (.sceneBlit n late) s (no u 4 0)) ∧
    (asked 0x1002 3 → u.provides 8 = true → c.p 3 < 256 → buf 1 32 → u.buffer (c.p 2) 1024 = some b → u.blkOn 8 = true → u.bit BLK_STAT BLK_STAT_running = false →
      Does (.sceneBlit n late) s (works (reg (reg (reg (reg u BLK_LIST a) BLK_SURF b) BLK_PACE (c.p 3)) BLK_CTRL (2 ^ 31)) c.params)) ∧
    (working 0x1002 → s.bit BLK_STAT BLK_STAT_running = false → Does (.sceneBlit n false) s (ends s [s.rw BLK_STAT])) ∧
    (asked 0x1003 3 → c.p 1 < 40 → c.p 2 < 4 ∨ c.p 2 = 0xFF → c.p 3 < 2 →
      let t := regWrite u (SCENE_ASSIGN (c.p 1)) (setF (if c.p 2 = 0xFF then setF 0 SCENE_ASSIGN_park 1 else setF 0 SCENE_ASSIGN_head (c.p 2)) SCENE_ASSIGN_slot (c.p 3))
      Does (.sceneAssign n) s (done (takeReg t (SCENE_ASSIGN (c.p 1))).1 [(takeReg t (SCENE_ASSIGN (c.p 1))).2])) ∧
    (asked 0x1004 5 → head → c.p 3 < 2 ^ 14 → c.p 5 < 2 → buf 2 (32 * c.p 3) → u.buffer (c.p 4) 4 = some b →
      Does (.sceneBeam n) s (done (reg (reg (reg (reg u (SCENE_BEAM_BASE h) a) (SCENE_BEAM_LEN h) (c.p 3)) (SCENE_BEAM_DPTR_INIT h) b) (SCENE_BEAM_CTRL h) (c.p 5 * 2 ^ 31)) [])) ∧
    (asked 0x1005 1 → head → let r := takeRegs u [SCENE_SPR_STAT h, SCENE_SPR_PEAK h, SCENE_FAULT h, SCENE_COLL_STAT h, SCENE_BEAM_STAT h]
      Does (.sceneStatus n) s (done r.1 r.2)) ∧
    (asked 0x1100 2 → head → buf 2 44 → got 44 → 64 < words.getD 10 0 → Does (.headConfig n late) s (no (v 44) 2 10)) ∧
    (asked 0x1100 2 → head → buf 2 44 → (fwRead u a 44).2.isSome = true → k = (wordsLE ((fwRead u a 44).2.getD [])).getD 10 0 → k ≤ 64 → (v 44).buffer (c.p 2) (4 * (11 + 6 * k)) = some b →
      (fwRead (v 44) b (4 * (11 + 6 * k))).2 = some data → configBad words = none →
      let t := (fwRead (v 44) b (4 * (11 + 6 * k))).1
      t.headBusy c h = false →
      Does (.headConfig n late) s (works (blockEnable (configRegs (blockEnable t (9 + h) false) h words) (9 + h) true) ([h.val, 0] ++ words.drop 11))) ∧
    (working 0x1100 → d.params = h.val :: 0 :: ws → s.blkOn (9 + h) = true → Does (.headConfig n false) s (if ws = [] then ends s [] else goes (sendPacket s h (ws.getD 0 0) (ws.drop 1)) (h.val :: 1 :: ws))) ∧
    (working 0x1100 → d.params = h.val :: 1 :: ws → s.blkOn (9 + h) = true → s.bit (HEAD_PKT_CTRL h) HEAD_PKT_CTRL_go = false → ws.drop 6 = [] → Does (.headConfig n false) s (ends s [])) ∧
    (working 0x1100 → d.params = h.val :: 1 :: ws → s.blkOn (9 + h) = true → s.bit (HEAD_PKT_CTRL h) HEAD_PKT_CTRL_go = false → ws.drop 6 ≠ [] →
      Does (.headConfig n false) s (goes (sendPacket s h ((ws.drop 6).getD 0 0) ((ws.drop 6).drop 1)) (h.val :: 1 :: ws.drop 6))) ∧
    (asked 0x1101 2 → head → c.p 2 < 2 → u.headBusy c h = false → let t := blockEnable u (9 + h) (c.p 2 == 1)
      Does (.headEnable n late) s (if t.blkState (9 + h) = 0 ∨ t.blkState (9 + h) = 2 then done t [t.blkState (9 + h)] else works t c.params)) ∧
    (working 0x1101 → d.p 1 = h.val → s.blkState (9 + h) = 2 → Does (.headEnable n false) s (ends s [2])) ∧
    (asked 0x1102 2 → head → Does (.headMark n) s (done (reg u (HEAD_MARK h) (c.p 2)) [])) ∧
    (asked 0x1103 1 → head → let r := takeRegs u [HEAD_BEAM h, HEAD_BEAM_ERR h, HEAD_STAT h, HEAD_CNT h, HEAD_FRAME h, HEAD_SENT_LO h, HEAD_SENT_HI h, HEAD_SEEN_LO h, HEAD_SEEN_HI h, HEAD_FLIP_FRAME h]
      Does (.headStatus n) s (done r.1 r.2)) ∧
    (asked 0x1104 6 → head → pktCtrlOk (c.p 2) = true → u.blkOn (9 + h) = true → u.bit (HEAD_PKT_CTRL h) HEAD_PKT_CTRL_go = true → Does (.headPacket n late) s (no u 4 0)) ∧
    (asked 0x1104 6 → head → pktCtrlOk (c.p 2) = true → u.blkOn (9 + h) = true → u.headBusy c h = false → u.bit (HEAD_PKT_CTRL h) HEAD_PKT_CTRL_go = false →
      Does (.headPacket n late) s (works (sendPacket u h (c.p 2) (c.params.drop 2)) c.params)) ∧
    (working 0x1104 → d.p 1 = h.val → s.bit (HEAD_PKT_CTRL h) HEAD_PKT_CTRL_go = false →
      Does (.headPacket n false) s (ends s (s.fld (HEAD_PKT_CTRL h) HEAD_PKT_CTRL_resp_len :: [0, 1, 2, 3].map (fun i => s.rw (HEAD_PKT_DATA h i))))) ∧
    (asked 0x1200 1 → head → let r := takeRegs u [HEAD_WIT_SEQ h, HEAD_WIT_STAT h, HEAD_WIT_CNT h]
      Does (.witnessStatus n) s (done r.1 (r.2 ++ [u.latestValid h]))) ∧
    (asked 0x1201 2 → c.p 1 < 128 → c.p 2 < 4 ∨ c.p 2 = 0xFF → let rest := u.fw.bind.filter (fun e => e.1 != c.p 1)
      Does (.witnessBind n) s (done (u.setFw { u.fw with bind := if c.p 2 = 0xFF then rest else smInsert (c.p 1) (c.p 2) rest }) [(u.fw.bind.lookup (c.p 1)).getD 0xFF])) ∧
    (asked 0x1202 5 → head → c.p 2 < 2 → c.p 3 < 2 → u.buffer (c.p 4) (64 * c.p 5) = some a → 1 ≤ c.p 5 → c.p 5 < 2 ^ 20 →
      let t := if u.rw (HEAD_WIT_LOG_BASE h) = a then u else reg u (HEAD_WIT_LOG_BASE h) a
      let y := if t.rw (HEAD_WIT_LOG_SIZE h) = c.p 5 then t else reg t (HEAD_WIT_LOG_SIZE h) (c.p 5)
      Does (.witnessEnable n) s (done (regWrite y (HEAD_WIT_CTRL h) (setF (setF 0 HEAD_WIT_CTRL_enable (c.p 2)) HEAD_WIT_CTRL_log_en (c.p 3))) [])) ∧
    (asked 0x1203 2 → head → let t := reg u (HEAD_WIT_LOG_RD h) (c.p 2)
      Does (.witnessLogAck n) s (done t [u.rw (HEAD_WIT_LOG_WR h)])) ∧
    (let format := c.p 2 / 2 ^ AUD_V_CTRL_format.lo % 2 ^ (AUD_V_CTRL_format.hi + 1 - AUD_V_CTRL_format.lo)
     asked 0x2000 7 → c.p 1 < 128 → format < 4 → c.p 4 < 2 ^ 24 → c.p 5 < 2 ^ 24 → 0x100 ≤ c.p 6 → c.p 6 ≤ 0x80000 → buf 3 (assetBytes format (c.p 5)) →
      Does (.audioVoice n) s (done (regWrites u [(AUD_V_START (c.p 1), a), (AUD_V_LOOP (c.p 1), c.p 4), (AUD_V_END (c.p 1), c.p 5), (AUD_V_STEP (c.p 1), c.p 6), (AUD_V_GAIN (c.p 1), c.p 7),
        (AUD_V_CTRL (c.p 1), c.p 2)]) [(u.rw AUD_BLOCK + 1) % 2 ^ 32])) ∧
    (asked 0x2001 5 → c.p 1 < 16 → busCtrlOk (c.p 1) (c.p 2) = true → busFxOk (c.p 3) = true → c.p 4 % 256 = 0 → 32 ≤ c.p 5 → c.p 5 ≤ 65536 → buf 4 (4 * c.p 5) →
      Does (.audioBus n) s (done (regWrites u [(AUD_BUS_DLY (c.p 1), a), (AUD_BUS_DLYLEN (c.p 1), c.p 5), (AUD_BUS_FX (c.p 1), c.p 3), (AUD_BUS_CTRL (c.p 1), c.p 2)]) [])) ∧
    (asked 0x2002 3 → (c.p 1 = 0 ∧ c.p 2 < 64) ∨ (c.p 1 = 1 ∧ c.p 2 < 72) → Does (.audioRoute n) s (done (reg u (if c.p 1 = 0 then AUD_IN (c.p 2) else AUD_OUT (c.p 2)) (c.p 3)) [])) ∧
    (asked 0x2003 3 → c.p 1 < 2048 → 1 ≤ c.p 2 → c.p 1 + c.p 2 ≤ 2048 → buf 3 (4 * c.p 2) → got (4 * c.p 2) →
      Does (.audioFxLoad n) s (done (regWrites (v (4 * c.p 2)) (words.zipIdx.map (fun e => (AUD_FX_PROG (c.p 1 + e.2), e.1)))) [])) ∧
    (let w := BitVec.ofNat 32 (c.p 2)
     asked 0x2004 3 → c.p 1 < 4 → getF w AUD_SP_CFG_width ≠ 3 → getF w AUD_SP_CFG_rate ≠ 7 → let r := takeReg (reg (reg u (AUD_SP_CFG (c.p 1)) (c.p 2)) AUD_PDM (c.p 3)) (AUD_SP_TRACK (c.p 1))
      Does (.audioPort n) s (done r.1 [r.2])) ∧
    (asked 0x2005 0 → let r := takeRegs u [AUD_BLOCK, AUD_CNT, AUD_VEND 0, AUD_VEND 1, AUD_VEND 2, AUD_VEND 3]
      Does (.audioStatus n) s (done r.1 r.2)) ∧
    (asked 0x3000 3 → c.p 1 < 0x80000 → c.p 1 + c.p 2 ≤ 0x80000 → buf 3 (c.p 2) → got (c.p 2) → let r := fwWrite (v (c.p 2)) (0x12000000 + c.p 1) data
      Does (.kindleLoad n) s (if r.2 = true then done r.1 [] else no r.1 10 0)) ∧
    (asked 0x3001 3 → c.p 1 < 2 → c.p 3 = 0 → buf 2 128 → u.blkOn 14 = true → got 128 → let t := words.zipIdx.foldl (fun y e => reg y (KIND_SLOT (c.p 1) e.2) e.1) (v 128)
      Does (.kindleSlots n late) s (done t [t.rw KIND_CTRL])) ∧
    (asked 0x3001 3 → c.p 1 < 2 → c.p 3 = 1 → buf 2 128 → u.blkOn 14 = true → got 128 → let y := words.zipIdx.foldl (fun y e => reg y (KIND_SLOT (c.p 1) e.2) e.1) (v 128)
      let t := regWrite y KIND_CTRL (setF (setF (y.readCodes KIND_CTRL) KIND_CTRL_next (c.p 1)) KIND_CTRL_bad_table 1)
      Does (.kindleSlots n late) s (if t.curTable = c.p 1 ∨ t.bit KIND_CTRL KIND_CTRL_bad_table = true then done t [t.rw KIND_CTRL] else works t c.params)) ∧
    (working 0x3001 → s.curTable = d.p 1 → Does (.kindleSlots n false) s (ends s [s.rw KIND_CTRL])) ∧
    (asked 0x3002 3 → c.p 1 < 64 → u.blkOn 14 = false → Does (.kindleStart n) s (no u 9 (u.blkState 14))) ∧
    (asked 0x3002 3 → c.p 1 < 64 → u.blkOn 14 = true → (u.thr (c.p 1)).state ≠ .free → Does (.kindleStart n) s (no u 9 (u.thr (c.p 1)).state.code)) ∧
    (asked 0x3002 3 → c.p 1 < 64 → u.blkOn 14 = true → (u.thr (c.p 1)).state = .free →
      let t := regWrites u [(KIND_T_PC (c.p 1), c.p 2), (KIND_T_SP (c.p 1), c.p 3), (KIND_T_CTRL (c.p 1), (setF 0 KIND_T_CTRL_start 1).toNat)]
      Does (.kindleStart n) s (done (t.setFw { t.fw with starts := smInsert (c.p 1) (BitVec.ofNat 32 (c.p 2), BitVec.ofNat 32 (c.p 3)) (smErase t.fw.starts (c.p 1)) }) [])) ∧
    (asked 0x3003 1 → c.p 1 < 64 → u.blkOn 14 = true → let t := threadHalt u (c.p 1)
      let y := reg t (KIND_T_CTRL (c.p 1)) (setF 0 KIND_T_CTRL_free 1).toNat
      let st := (t.thr (c.p 1)).state
      Does (.kindleStop n late) s (if st = .free then done t [] else if st = .halted ∨ st = .faulted then done y [] else works t c.params)) ∧
    (working 0x3003 → (s.thr (d.p 1)).state = .halted → Does (.kindleStop n false) s (ends (reg s (KIND_T_CTRL (d.p 1)) (setF 0 KIND_T_CTRL_free 1).toNat) [])) ∧
    (asked 0x3004 2 → c.p 1 < 6 → Does (.kindlePorts n) s (done (reg u (KPORT_EN (c.p 1)) (c.p 2)) [])) ∧
    (asked 0x3005 2 → c.p 1 < 64 → Does (.kindlePolicy n) s (done (u.setFw { u.fw with policy := smSet (fun _ => 0) u.fw.policy (c.p 1) (c.p 2) }) [])) ∧
    (asked 0x3006 1 → c.p 1 < 64 → let r := takeRegs u [KIND_T_STAT (c.p 1), KIND_T_FAULT (c.p 1), KIND_T_FPC (c.p 1), KIND_STALL]
      Does (.kindleStatus n) s (done r.1 r.2))

/-- Fuses, boot, clocks, resets and the power sequencer (R449 to R451, R454, R459, R462 to R467, R471, R472, R474 to R476, R478, R480 to R484, R487, R490 to R495). The bytes of a profile record, the
crystal's frequency, and what an operand reports of a time, a level or a measurement are the model's (assumptions 1, 40, 42 to 44, 52, 98 and 99). -/
def Obligations.FusesBootClocksAndPowerFollowTheirEvents : Prop :=
  ∀ (s : State) (fac ws : List Word) (w lost : Word) (flash : Option Flash) (img : FlashImage) (recs : List (Nat × Profile)) (pr : Profile) (p : Fin 9) (r : Fin 6) (b : Fin 2) (sel : Fin 4)
    (m ns pins v st : Nat) (margin : Int) (yes : Bool) (data : List Byte),
    let e := s.ember
    let en := s.fld PWR_STAT PWR_STAT_en
    let pg := s.fld PWR_STAT PWR_STAT_pg
    let run : Prop := e.phase = .run
    (e.phase ≠ .load → Does (.fuseLoad fac) s s ∧ Does .fuseLoadDone s s) ∧
    (e.phase = .load → Completes (.fuseLoad fac) s (fun t => (∀ i : Fin 256, (t.ember.staged.getD []).getD i 0 =
      if 128 ≤ i.val then smGet (fun _ => 0#32) e.cells i else if i.val = 2 then (fac.getD 2 0 &&& 0xFFFF00FF) ||| 0x2000 else fac.getD i 0) ∧ RegsBut [] s t ∧ SameMem s t)) ∧
    (e.phase = .load → e.staged = some ws → fusesPass ws = true → Completes .fuseLoadDone s (fun t => t.bit FUSE_STAT FUSE_STAT_loaded = true ∧ t.fld FUSE_STAT FUSE_STAT_fails = 0 ∧
      (∀ i : Fin 256, smGet (fun _ => 0#32) t.ember.fused i = ws.getD i 0) ∧ t.reg SYS_ID_0 = ws.getD 0 0 ∧ t.reg SYS_ID_2 = ws.getD 2 0 ∧ t.ember.phase ≠ .load ∧ SameMem s t)) ∧
    (e.phase = .load → e.staged = some ws → fusesPass ws = false → let k := min 3 (s.fld FUSE_STAT FUSE_STAT_fails + 1)
      Completes .fuseLoadDone s (fun t => t.fld FUSE_STAT FUSE_STAT_fails = k ∧ t.ember.phase = (if k = 3 then .dead else .load) ∧ (k = 3 → t.bit FUSE_STAT FUSE_STAT_fault = true) ∧
        t.bit FUSE_STAT FUSE_STAT_loaded = s.bit FUSE_STAT FUSE_STAT_loaded ∧ RegsBut [FUSE_STAT, RST_CAUSE] s t ∧ SameMem s t)) ∧
    (let k := getF w FUSE_PROG_bit
     (bitOf w FUSE_PROG_go = false → Completes (.fuseProgram w) s (fun t => t.ember = e ∧ RegsBut [FUSE_PROG] s t ∧ SameMem s t)) ∧
     (bitOf w FUSE_PROG_go = true → k < 4096 → Completes (.fuseProgram w) s (fun t => t.bit FUSE_PROG FUSE_PROG_refused = true ∧ t.ember = e ∧ RegsBut [FUSE_PROG] s t ∧ SameMem s t)) ∧
     (bitOf w FUSE_PROG_go = true → 4096 ≤ k → Completes (.fuseProgram w) s (fun t => RegsBut [FUSE_PROG] s t ∧ SameMem s t ∧
       t.ember = { e with cells := smSet (fun _ => 0#32) e.cells (k / 32) (smGet (fun _ => 0#32) e.cells (k / 32) ||| (1#32 <<< (k % 32))) }))) ∧
    (let use := if s.fuse 924 924 = 1 then flash else none
     let t := (s.setBit SYS_BOOT SYS_BOOT_cert_bad (!s.certOk ((use.map (·.cert)).getD []))).setFw { s.fw with cert := (use.map (·.cert)).getD [] }
     (s.inRom = false → Does (.bootStart flash) s s) ∧
     (s.inRom = true → use.bind t.pickSlot = none → s.fuse 925 925 ≠ 1 → Does (.bootStart flash) s (t.setBit SYS_ALERT SYS_ALERT_boot true)) ∧
     (s.inRom = true → use.bind t.pickSlot = none → s.fuse 925 925 = 1 →
       Does (.bootStart flash) s (((blockEnable t 36 true).setBit HOST_BAR4 HOST_BAR4_csram_en true).setBit HOST_BAR4 HOST_BAR4_write true)) ∧
     (s.inRom = true → use.bind t.pickSlot = some (m, img) → Does (.bootStart flash) s (startFalornyr (loadBody t img.bytes) m img))) ∧
    (let c := s.request 0
     let push : Prop := s.inRom = true ∧ s.blkOn 36 = true ∧ s.fuse 925 925 = 1 ∧ s.mbxBusy 0 = true ∧ c.op = 0x01FF
     let t := mbxAck (s.setFw { s.fw with goes := s.fw.goes.erase 0 }) 0 2
     let y := (fwRead t 0x10000000 (c.p 1)).1
     let fits : Prop := 256 ≤ c.p 1 ∧ c.p 1 ≤ 0x800000
     (¬ push → Does (.hostPushBoot recs) s s) ∧
     (push → ¬ fits → Does (.hostPushBoot recs) s (pushAnswer t c 2)) ∧
     (push → fits → (fwRead t 0x10000000 (c.p 1)).2 = some data → y.imageShape (c.p 1) data = false → Does (.hostPushBoot recs) s (pushAnswer y c 2)) ∧
     (push → fits → (fwRead t 0x10000000 (c.p 1)).2 = some data → y.imageShape (c.p 1) data = true → y.imageSigned data = false → Does (.hostPushBoot recs) s (pushAnswer y c 11)) ∧
     (push → fits → (fwRead t 0x10000000 (c.p 1)).2 = some data → y.imageShape (c.p 1) data = true → y.imageSigned data = true →
       Does (.hostPushBoot recs) s (pushAnswer (startFalornyr (loadBody y data) 3 ⟨data, recs⟩) c 0))) ∧
    (let due : Prop := s.fwServes = true ∧ s.fld PWR_STATE PWR_STATE_state = 0 ∧ s.fld SYS_PROFILE SYS_PROFILE_cur = 0xFF ∧ s.fw.restart = false
     let k := s.fld SYS_PROFILE SYS_PROFILE_pins
     (¬ due → Does .noonEntry s s) ∧
     (due → s.runnable k = none → Does .noonEntry s (blockEnable (stopBlocks s) 36 true)) ∧
     (due → s.runnable k = some pr → Does .noonEntry s (notify (reachNoon (applyProfile s k pr) pr) 0x01F0 1))) ∧
    (let o := CLK_OSC_STAT
     (b = 0 → s.bit CLK_SRC CLK_SRC_xa_en = true → Completes (.oscStable b) s (fun t => t.bit o CLK_OSC_STAT_xa_stable = true ∧ t.bit o CLK_OSC_STAT_holdover = false ∧ RegsBut [o] s t ∧ SameMem s t)) ∧
     (b = 1 → s.bit CLK_SRC CLK_SRC_xb_en = true → Completes (.oscStable b) s (fun t => t.bit o CLK_OSC_STAT_xb_stable = true ∧ RegsBut [o] s t ∧ SameMem s t)) ∧
     (b = 0 → s.bit o CLK_OSC_STAT_xa_stable = true → Completes (.oscLost b) s (fun t => t.bit o CLK_OSC_STAT_xa_stable = false ∧ t.bit o CLK_OSC_STAT_xa_lost = true ∧
       t.bit o CLK_OSC_STAT_holdover = s.anyPll ∧ RegsBut [o] s t ∧ SameMem s t)) ∧
     (b = 1 → s.bit o CLK_OSC_STAT_xb_stable = true → Completes (.oscLost b) s (fun t => t.bit o CLK_OSC_STAT_xb_stable = false ∧ t.bit o CLK_OSC_STAT_xb_lost = true ∧
       t.bit CLK_SRC CLK_SRC_ember_cur = false ∧ RegsBut [o, CLK_SRC] s t ∧ SameMem s t)) ∧
     (let taken : Prop := (bitOf w CLK_SRC_xa_en = false ∧ s.anyPll = true) ∨ (bitOf w CLK_SRC_ember_sel = true ∧ s.bit o CLK_OSC_STAT_xb_stable = false) ∨
        (bitOf w CLK_SRC_xb_en = false ∧ s.bit CLK_SRC CLK_SRC_ember_cur = true)
      (taken → Does (.clkSrcWrite w) s (s.setBit CLK_SRC CLK_SRC_refused true)) ∧
      (¬ taken → Completes (.clkSrcWrite w) s (fun t => t.bit CLK_SRC CLK_SRC_xa_en = bitOf w CLK_SRC_xa_en ∧ t.bit CLK_SRC CLK_SRC_xb_en = bitOf w CLK_SRC_xb_en ∧
        t.bit CLK_SRC CLK_SRC_ember_sel = bitOf w CLK_SRC_ember_sel ∧ t.bit o CLK_OSC_STAT_xa_stable = (s.bit o CLK_OSC_STAT_xa_stable && bitOf w CLK_SRC_xa_en) ∧
        t.bit CLK_SRC CLK_SRC_ember_cur = (bitOf w CLK_SRC_ember_sel && (s.bit o CLK_OSC_STAT_xb_stable && bitOf w CLK_SRC_xb_en)) ∧ RegsBut [o, CLK_SRC] s t ∧ SameMem s t)))) ∧
    (let c := CLK_PLL_CTRL p
     let on := s.bit c CLK_PLL_CTRL_enable = true
     (on → s.bit CLK_OSC_STAT CLK_OSC_STAT_xa_stable = true → Completes (.pllLocked p) s (fun t => t.bit c CLK_PLL_CTRL_locked = true ∧ (p = 0 → t.ember.tbOn = true) ∧ RegsBut [c] s t ∧ SameMem s t)) ∧
     (¬ on → Does (.pllLocked p) s s ∧ Does (.pllUnlock p) s s) ∧
     (on → s.bit c CLK_PLL_CTRL_locked = true → Completes (.pllUnlock p) s (fun t => t.bit c CLK_PLL_CTRL_locked = false ∧
       t.fld CLK_EVT CLK_EVT_unlock = s.fld CLK_EVT CLK_EVT_unlock ||| 2 ^ p.val ∧ RegsBut [c, CLK_EVT] s t ∧ SameMem s t)) ∧
     (let fr := if yes = true then getF w CLK_PLL_FRAC_frac else s.fld (CLK_PLL_FRAC p) CLK_PLL_FRAC_frac
      let x := if yes = true then s.reg c else w
      let vco := vcoHz (getF x CLK_PLL_CTRL_n) fr
      let ok : Prop := p.val < 5 ∧ s.pllInUse p (bitOf x CLK_PLL_CTRL_enable) (getF x CLK_PLL_CTRL_n) fr (getF x CLK_PLL_CTRL_div) = false ∧ 2000000000 * 1048576 ≤ vco ∧ vco ≤ 6400000000 * 1048576
      let low : Prop := s.pllWithin p vco (getF x CLK_PLL_CTRL_div + 1) (getF x CLK_PLL_CTRL_s) (getF x CLK_PLL_CTRL_t) = true
      (¬ ok → Does (.pllCtrlWrite p yes w) s (s.setBit c CLK_PLL_CTRL_refused true)) ∧
      (ok → ¬ low → Does (.pllCtrlWrite p yes w) s ((s.setBit c CLK_PLL_CTRL_refused true).setBit c CLK_PLL_CTRL_ceil true)) ∧
      (ok → low → yes = true → Completes (.pllCtrlWrite p yes w) s (fun t => t.fld (CLK_PLL_FRAC p) CLK_PLL_FRAC_frac = getF w CLK_PLL_FRAC_frac ∧ RegsBut [CLK_PLL_FRAC p] s t ∧ SameMem s t)) ∧
      (ok → low → yes = false → Completes (.pllCtrlWrite p yes w) s (fun t => t.bit c CLK_PLL_CTRL_enable = bitOf w CLK_PLL_CTRL_enable ∧ t.fld c CLK_PLL_CTRL_n = getF w CLK_PLL_CTRL_n ∧
        (bitOf w CLK_PLL_CTRL_enable = false → t.bit c CLK_PLL_CTRL_locked = false) ∧ RegsBut [c] s t ∧ SameMem s t)))) ∧
    (let want := getF w CLK_ROOT_sel
     let fresh (i : Nat) : Bool := want.testBit i && !(s.fld CLK_ROOT CLK_ROOT_cur).testBit i
     let free (i : Nat) : Bool := !s.bit (CLK_PLL_CTRL (rootPll i)) CLK_PLL_CTRL_locked
     ((List.range 6).any (fun i => fresh i && free i) = true → Does (.rootSwitch w lost) s (s.setBit CLK_ROOT CLK_ROOT_refused true)) ∧
     ((List.range 6).all (fun i => !fresh i || (!free i && !lost.getLsbD (rootPll i))) = true → Completes (.rootSwitch w lost) s (fun t =>
       t.fld CLK_ROOT CLK_ROOT_sel = want ∧ t.fld CLK_ROOT CLK_ROOT_cur = want ∧ RegsBut [CLK_ROOT] s t ∧ SameMem s t)) ∧
     ((List.range 6).all (fun i => !fresh i || !free i) = true → fresh r = true → lost.getLsbD (rootPll r) = true → s.bit (CLK_PLL_CTRL (rootPll r)) CLK_PLL_CTRL_enable = true →
       Completes (.rootSwitch w lost) s (fun t => (t.fld CLK_ROOT CLK_ROOT_cur).testBit r = false ∧ t.bit CLK_ROOT CLK_ROOT_refused = true ∧ t.bit (CLK_PLL_CTRL (rootPll r)) CLK_PLL_CTRL_locked = false))) ∧
    (let want := signed 8 (getF w CLK_FRC_TRIM_code)
     let code := signed 8 (s.fld CLK_FRC_TRIM CLK_FRC_TRIM_code)
     let next := if e.frc < code then e.frc + 1 else if code < e.frc then e.frc - 1 else code
     Completes (.frcTrim w) s (fun t => signed 8 (t.fld CLK_FRC_TRIM CLK_FRC_TRIM_code) = want ∧ t.bit CLK_FRC_TRIM CLK_FRC_TRIM_busy = decide (e.frc ≠ want) ∧
       (s.bit CLK_MEAS CLK_MEAS_busy = true → s.fld CLK_MEAS CLK_MEAS_target = 0 → t.bit CLK_MEAS CLK_MEAS_mixed = true) ∧ RegsBut [CLK_FRC_TRIM, CLK_MEAS] s t ∧ SameMem s t) ∧
     Completes .frcTrimStep s (fun t => t.ember.frc = next ∧ t.bit CLK_FRC_TRIM CLK_FRC_TRIM_busy = decide (next ≠ code) ∧ RegsBut [CLK_FRC_TRIM] s t ∧ SameMem s t)) ∧
    (s.bit CLK_MEAS CLK_MEAS_busy = true → Completes (.freqMeasure w) s (fun t => t.bit CLK_MEAS CLK_MEAS_busy = true ∧ RegsBut [CLK_MEAS] s t ∧ SameMem s t)) ∧
    (s.bit CLK_MEAS CLK_MEAS_busy = false → bitOf w CLK_MEAS_go = true → Completes (.freqMeasure w) s (fun t => t.bit CLK_MEAS CLK_MEAS_busy = true ∧ t.bit CLK_MEAS CLK_MEAS_go = true ∧ RegsBut [CLK_MEAS] s t ∧ SameMem s t)) ∧
    (s.bit CLK_MEAS CLK_MEAS_busy = true → Completes (.freqMeasureDone w) s (fun t => t.reg CLK_MEAS_RES = w ∧ t.bit CLK_MEAS CLK_MEAS_busy = false ∧ t.bit CLK_MEAS CLK_MEAS_go = false ∧
      t.bit CLK_EVT CLK_EVT_meas_done = true ∧ RegsBut [CLK_MEAS, CLK_MEAS_RES, CLK_EVT] s t ∧ SameMem s t)) ∧
    (s.bit CLK_MEAS CLK_MEAS_busy = false → Does (.freqMeasureDone w) s s) ∧
    (Completes .powerOn s (fun t => t.ember.phase = .held ∧ t.ember.cells = e.cells ∧ t.ember.fused = [] ∧ t.mem = [] ∧ t.fld RST_CAUSE RST_CAUSE_source = 1 ∧ t.fld RST_CAUSE RST_CAUSE_level = 0 ∧
      t.fld PWR_STAT PWR_STAT_en = 1 ∧ t.fld PWR_STAT PWR_STAT_pg = 1 ∧ t.fw = Fw.init ∧ t.kiln = Kiln.init)) ∧
    (Completes .alwaysOnSupplyLoss s (fun t => t.ember.phase = .off ∧ t.ember.cells = e.cells ∧ t.mem = [] ∧ t.fld PWR_STAT PWR_STAT_pg = 0 ∧ t.fw = Fw.init ∧ t.kiln = Kiln.init)) ∧
    (ns < 200 ∨ e.phase = .off → Does (.resetNAssert ns) s { s with free := s.free + 1 }) ∧
    (1000 ≤ ns → e.phase ≠ .off → let level := s.resetLevel
      Completes (.resetNAssert ns) s (fun t => t.ember.phase = .held ∧ t.ember.level = level ∧ t.fld RST_CAUSE RST_CAUSE_source = 2 ∧ t.fld RST_CAUSE RST_CAUSE_level = level % 4 ∧
        t.bit RST_CAUSE RST_CAUSE_fuse_interrupted = decide (e.phase = .load) ∧ t.kiln = Kiln.init ∧ t.fw = Fw.init ∧ t.ember.fused = e.fused ∧
        (level = 0 → t.mem = []) ∧ (level ≠ 0 → SameMem s t) ∧ t.bit PIN_SAFE PIN_SAFE_release = false)) ∧
    (e.phase ≠ .held → Does (.resetRelease sel) s s) ∧
    (e.phase = .held → e.again = true → Completes (.resetRelease sel) s (fun t => t.fld SYS_PROFILE SYS_PROFILE_pins = sel.val ∧ t.ember.phase = .load ∧ RegsBut [SYS_PROFILE] s t ∧ SameMem s t)) ∧
    (e.phase = .held → e.again = false → Completes (.resetRelease sel) s (fun t => t.fld SYS_PROFILE SYS_PROFILE_pins = sel.val ∧ t.ember.phase = .run ∧ t.bit CLK_SRC CLK_SRC_xa_en = true ∧
      RegsBut [SYS_PROFILE, CLK_SRC, CLK_PLL_CTRL 0] s t ∧ SameMem s t)) ∧
    (let bad : Prop := m = 1 ∧ pg / 2 ≠ 0
     e.phase = .up m → 1 ≤ m → m ≤ 5 → Completes .upSequenceStep s (fun t => t.fld PWR_STAT PWR_STAT_en = en ||| 2 ^ m ∧ (bad → t.bit PWR_STAT PWR_STAT_pg_stuck = true) ∧
       t.fld PWR_STAT PWR_STAT_pg = pg ∧ RegsBut [PWR_STAT, CLK_SRC, CLK_PLL_CTRL 0] s t ∧ SameMem s t)) ∧
    (e.phase = .run ∨ e.phase = .midnight → Does .upSequenceStep s s ∧ Does .pgTimeout s s) ∧
    (e.phase ≠ .good r.val → Completes (.pgRise r) s (fun t => t.fld PWR_STAT PWR_STAT_pg = pg ||| 2 ^ r.val ∧ t.ember = e ∧ RegsBut [PWR_STAT] s t ∧ SameMem s t)) ∧
    (e.phase = .good r.val → let t := s.setFld PWR_STAT PWR_STAT_pg (pg ||| 2 ^ r.val)
      Does (.pgRise r) s (upNext t)) ∧
    (e.phase = .good m → m < 8 → Completes .pgTimeout s (fun t => t.bit PWR_STAT PWR_STAT_pg_fault = true ∧ t.fld PWR_STAT PWR_STAT_fault_rail = m ∧ t.ember.phase = .down 5 ∧ t.mem = [] ∧
      t.fld PWR_WAKE_CAUSE PWR_WAKE_CAUSE_entry = 2)) ∧
    (r.val ≠ 0 → en.testBit r = true → run → Completes (.powerFault r) s (fun t => t.bit PWR_STAT PWR_STAT_pg_fault = true ∧ t.fld PWR_STAT PWR_STAT_fault_rail = r.val ∧ (t.fld PWR_STAT PWR_STAT_pg).testBit r = false ∧
      t.ember.phase = .down 5 ∧ t.mem = [] ∧ t.fld PWR_WAKE_CAUSE PWR_WAKE_CAUSE_entry = 2)) ∧
    (r.val ≠ 0 → en.testBit r = false → Completes (.powerFault r) s (fun t => (t.fld PWR_STAT PWR_STAT_pg).testBit r = false ∧ t.ember = e ∧ RegsBut [PWR_STAT] s t ∧ SameMem s t)) ∧
    (e.phase = .down m → 1 < m → m ≤ 5 → Completes .downSequenceStep s (fun t => (t.fld PWR_STAT PWR_STAT_en).testBit m = false ∧ t.ember.phase = .down (m - 1) ∧ RegsBut [PWR_STAT] s t ∧ SameMem s t)) ∧
    (e.phase = .down 1 → e.wakes = 0 → Completes .downSequenceStep s (fun t => (t.fld PWR_STAT PWR_STAT_en).testBit 1 = false ∧ t.ember.phase = .midnight ∧ RegsBut [PWR_STAT] s t ∧ SameMem s t)) ∧
    (¬ run → Does .midnightRequest s s) ∧
    (run → Completes .midnightRequest s (fun t => t.ember.phase = .down 5 ∧ t.mem = [] ∧ t.kiln = Kiln.init ∧ t.fw = Fw.init ∧ t.fld PWR_WAKE_CAUSE PWR_WAKE_CAUSE_entry = 0)) ∧
    (let got := (pins &&& s.fld PWR_WAKE PWR_WAKE_pin_en) + if yes = true ∧ s.bit PWR_WAKE PWR_WAKE_rtc_en = true then 16 else 0
     let c := PWR_WAKE_CAUSE
     (run ∨ got = 0 → Does (.wake pins yes) s (if yes = true then s.setReg PWR_RTC (s.reg PWR_RTC_ALARM) else s)) ∧
     (e.phase = .midnight ∨ e.phase = .down m → got ≠ 0 → Completes (.wake pins yes) s (fun t => t.bit c PWR_WAKE_CAUSE_valid = true ∧
       (s.bit c PWR_WAKE_CAUSE_valid = false → t.fld c PWR_WAKE_CAUSE_pins = got % 16 ∧ t.fld c PWR_WAKE_CAUSE_rtc = got / 16) ∧
       (e.phase = .midnight → e.cooling = false → t.ember.phase ≠ .midnight ∧ t.ember.wakes = 0) ∧
       (e.phase = .down m ∨ e.cooling = true → t.ember.phase = e.phase ∧ t.ember.wakes = e.wakes ||| got) ∧ SameMem s t))) ∧
    (let want := if margin < 0 then e.vset + 5 else if 5 < margin then e.vset - 5 else e.vset
     let held := max (s.fld PWR_AVS PWR_AVS_min_mv) (min (s.fld PWR_AVS PWR_AVS_max_mv) want)
     let on : Prop := run ∧ s.fld PWR_STATE PWR_STATE_state ≠ 0 ∧ s.bit PWR_AVS PWR_AVS_enable = true
     (¬ on → Does (.avsStep margin yes v st) s s) ∧
     (on → yes = false → Does (.avsStep margin yes v st) s (s.setBit PWR_STAT PWR_STAT_pmbus_fault true)) ∧
     (on → yes = true → st < 65536 → linearMv v (s.fld PWR_PMBUS PWR_PMBUS_exp) < 4096 → Completes (.avsStep margin yes v st) s (fun t => t.fld PWR_AVS_STAT PWR_AVS_STAT_status_word = st ∧
       t.fld PWR_AVS_STAT PWR_AVS_STAT_vout_mv = linearMv v (s.fld PWR_PMBUS PWR_PMBUS_exp) ∧ t.ember.vset = (if st = 0 then held else e.vset) ∧
       (st = 0 → t.ember.vsent = linearMant held (s.fld PWR_PMBUS PWR_PMBUS_exp)) ∧ (st ≠ 0 → t.bit PWR_STAT PWR_STAT_pmbus_fault = true) ∧ RegsBut [PWR_AVS_STAT, PWR_STAT] s t ∧ SameMem s t)))

/-- Temperature, Falornyr's policies, the watchdog, JTAG, debug, Bench tests and serial port frames (R209, R211, R496, R497, R505 to R509, R511 to R515, R519 to R527, R529, R530, R532). That an operand
gives temperatures, levels and slot words, the free nonces, and the policies' corners are the model's (assumptions 1, 8, 61, 62, 67 and 100). -/
def Obligations.PoliciesWatchdogJtagAndDebugAct : Prop :=
  ∀ (s : State) (temps : List Int) (k : Fin 64) (h p : Fin 4) (res : Fin 16) (w a pc sp : Word) (noted seen : List Nat) (cells : List (Nat × Bool)) (levels : Nat) (on : Bool) (rx : SlotWords),
    let e := s.ember
    let th := PWR_THERM
    let up := s.fwServes = true
    let ts := temps.take 4
    let hot (c : Int) : Prop := ts.any (fun x => c ≤ x) = true
    let cool : Prop := e.temps.all (fun x => x < 130) = true
    let sensed := s.setEmber { e with temps := ts }
    let free := s.unlocked = true
    (¬ hot 135 → Does (.thermalSample temps) s sensed) ∧
    (hot 135 → ¬ hot 145 → Completes (.thermalSample temps) s (fun t => t.bit th PWR_THERM_throttle = true ∧
      t.bit th PWR_THERM_changed = (s.bit th PWR_THERM_changed || !s.bit th PWR_THERM_throttle) ∧ t.ember = { e with temps := ts } ∧ RegsBut [th] s t ∧ SameMem s t)) ∧
    (hot 145 → Completes (.thermalSample temps) s (fun t => t.bit th PWR_THERM_trip = true ∧ t.bit th PWR_THERM_throttle = true ∧ t.ember.cooling = true ∧ t.bit PIN_SAFE PIN_SAFE_safe_n = false ∧
      (e.phase = .run → t.ember.phase = .down 5 ∧ t.mem = [] ∧ t.fld PWR_WAKE_CAUSE PWR_WAKE_CAUSE_entry = 1) ∧ (e.phase = .midnight → t.ember.phase = .midnight ∧ SameMem s t))) ∧
    (cool → s.bit th PWR_THERM_throttle = true → Completes .throttleRelease s (fun t => t.bit th PWR_THERM_throttle = false ∧ t.bit th PWR_THERM_changed = true ∧ RegsBut [th] s t ∧ SameMem s t)) ∧
    (¬ cool ∨ s.bit th PWR_THERM_throttle = false → Does .throttleRelease s s) ∧
    (e.phase ≠ .midnight ∨ e.wakes = 0 → Does .coolDownExpire s (s.setEmber { e with cooling := false })) ∧
    (e.phase = .midnight → e.wakes ≠ 0 → Does .coolDownExpire s (upNext (s.setEmber { e with cooling := false, wakes := 0 }))) ∧
    (cool → Completes .thermalTripClear s (fun t => t.bit th PWR_THERM_trip = false ∧ RegsBut [th] s t ∧ SameMem s t)) ∧
    (¬ cool → Completes .thermalTripClear s (fun t => t.bit th PWR_THERM_clr_refused = true ∧ t.bit th PWR_THERM_trip = s.bit th PWR_THERM_trip ∧ RegsBut [th] s t ∧ SameMem s t)) ∧
    (let x := healthCount s 2 0
     let free1 := (List.range 16).foldl (fun y i => dropPartial y k i) x
     let room : Prop := (s.recent k minute).length < smGet (fun _ => 0) s.fw.policy k
     (s.fwServes = false ∨ (s.thr k).state ≠ .faulted → Does (.threadFaultPolicy k) s s) ∧
     (up → (s.thr k).state = .faulted → s.fw.starts.lookup k.val = none → Does (.threadFaultPolicy k) s (healthAlert x 2 0)) ∧
     (up → (s.thr k).state = .faulted → s.fw.starts.lookup k.val = some (pc, sp) → ¬ room → Does (.threadFaultPolicy k) s (healthAlert x 2 0)) ∧
     (up → (s.thr k).state = .faulted → s.fw.starts.lookup k.val = some (pc, sp) → room → Does (.threadFaultPolicy k) s
       (healthCount (noteRestart (startThread (regWrites free1 [(KIND_T_CTRL k, (setF 0 KIND_T_CTRL_free 1).toNat)]) k pc.toNat sp.toNat) k minute) 2 1)) ∧
     (up → s.blkOn 14 = true → (s.thr k).state = .faulted → s.fw.starts.lookup k.val = some (pc, sp) → room → Completes (.threadFaultPolicy k) s (fun t =>
       (t.thr k).state = .ready ∧ (t.thr k).pc = pc &&& 0xFFFFFFFE ∧ t.treg k 13 = sp ∧ SameMem s t))) ∧
    (let t := healthAlert (s.setBit KIND_STALL KIND_STALL_fired false) 2 2
     let halted : Prop := (List.range 64).any (fun i => (s.thr i).state == .halted) = true
     (s.fwServes = false ∨ s.bit KIND_STALL KIND_STALL_fired = false ∨ halted → Does .stallRecovery s s) ∧
     (up → s.bit KIND_STALL KIND_STALL_fired = true → ¬ halted → Does .stallRecovery s (((List.range 64).filter (fun i => t.snapReaches i 64 i)).foldl recoverThread t))) ∧
    (let bad : Prop := s.blkOn (9 + h) = true ∧ (s.bit (HEAD_WIT_STAT h) HEAD_WIT_STAT_stuck = true ∨ s.bit (HEAD_BEAM h) HEAD_BEAM_lost = true)
     (s.fwServes = false ∨ ¬ bad → Does (.headRestart h) s s) ∧
     (up → bad → 3 ≤ (s.recent (64 + h) tenMinutes).length → Does (.headRestart h) s (healthAlert s 1 3)) ∧
     (up → bad → (s.recent (64 + h) tenMinutes).length < 3 → Does (.headRestart h) s
       (healthCount (noteRestart (restartBlock (s.setBit (HEAD_WIT_STAT h) HEAD_WIT_STAT_stuck false) (9 + h)) (64 + h) tenMinutes) 1 3))) ∧
    (let lost := s.bit CLK_OSC_STAT CLK_OSC_STAT_xa_lost
     (up → lost = false → s.bit CLK_OSC_STAT CLK_OSC_STAT_xb_lost = false → Does (.xtalLossPolicy false) s s) ∧
     (up → lost = true ∨ s.bit CLK_OSC_STAT CLK_OSC_STAT_xb_lost = true → Does (.xtalLossPolicy false) s (healthAlert (if lost = true then healthCount s 7 2 else s) 7 2)) ∧
     (up → s.bit CLK_OSC_STAT CLK_OSC_STAT_xa_stable = false → Completes (.xtalLossPolicy true) s (fun t => t.bit PIN_SAFE PIN_SAFE_release = false ∧ t.bit SYS_ALERT SYS_ALERT_fw = true ∧ 2 ∈ t.fw.stop ∧
       t.takesMoney = false ∧ RegsBut [] s t ∧ SameMem s t)) ∧
     (up → s.bit CLK_OSC_STAT CLK_OSC_STAT_xa_stable = true → Does (.xtalLossPolicy true) s s)) ∧
    (s.fwServes = false → Does (.healthPoll noted) s s ∧ Does .heartbeatPost s s) ∧
    (up → Does (.healthPoll noted) s (thresholdCheck ((softCounters.zip noted).foldl (fun y x => healthAdd y x.1.1 x.1.2 x.2) (gather (resumeDue (mendCode s)))))) ∧
    (up → s.fw.mend = some a.toNat → s.fw.jobs = [] → 0x10000000 ≤ a.toNat → let off := (a.toNat - 0x10000000) / 8 * 8
      Completes (.healthPoll noted) s (fun t => t.fw.mend = none ∧
        SameMem (busWrite s iniKiln (0x10000000 + off) ((((s.fw.image.map (·.code)).getD []).drop off).take 8) []).s t)) ∧
    (up → Does .heartbeatPost s (if s.fw.beat = 0 then s else notify s 0x50F0 0xFF)) ∧
    (let c := SYS_WDOG_CTRL
     let due : Prop := s.bit c SYS_WDOG_CTRL_enable = true ∧ ¬ (s.kiln.halted = true ∧ s.bit DBG_CTRL DBG_CTRL_wdog_freeze = true) ∧ s.wdog + s.fld c SYS_WDOG_CTRL_timeout * 250000 ≤ s.tb
     let len := getF w SYS_WDOG_CTRL_timeout
     (s.bit c SYS_WDOG_CTRL_enable = false → 1 ≤ len → Completes (.wdogEnable w) s (fun t => t.bit c SYS_WDOG_CTRL_enable = true ∧ t.fld c SYS_WDOG_CTRL_timeout = len ∧ t.wdog = s.tb ∧
       RegsBut [c] s t ∧ SameMem s t)) ∧
     (s.bit c SYS_WDOG_CTRL_enable = true → Completes (.wdogEnable w) s (fun t => t.bit c SYS_WDOG_CTRL_enable = true ∧ t.fld c SYS_WDOG_CTRL_timeout = s.fld c SYS_WDOG_CTRL_timeout ∧ t.wdog = s.wdog ∧
       RegsBut [c] s t ∧ SameMem s t)) ∧
     (s.fw.broken = true → Does (.wdogKick w) s s) ∧
     (s.fw.broken = false → getF w SYS_WDOG_KICK_key = 0xA5 → Does (.wdogKick w) s { s with wdog := s.tb }) ∧
     (s.fw.broken = false → getF w SYS_WDOG_KICK_key ≠ 0xA5 → Does (.wdogKick w) s (s.count c SYS_WDOG_CTRL_bad_kick)) ∧
     (¬ due → Does .wdogExpire s s) ∧
     (due → Completes .wdogExpire s (fun t => t.bit c SYS_WDOG_CTRL_expired = true ∧ (t.reg HOST_DB).getLsbD 30 = true ∧ t.bit PIN_SAFE PIN_SAFE_release = false ∧ t.bit PIN_SAFE PIN_SAFE_safe_n = false ∧
       t.bit SYS_ALERT SYS_ALERT_wdog = true ∧ RegsBut [c, HOST_DB] s t ∧ SameMem s t))) ∧
    (let tests : Prop := free ∧ (s.curProfile = 3 ∨ s.curProfile = 0xFF)
     let drive (ir : Nat) : State := if tests then { s with jtag := { s.jtag with ir := ir, cells := cells } } else { s with jtag := { s.jtag with ir := 0xFF, out := 0, cells := [] } }
     Does (.extest cells) s (drive 0) ∧ Does (.extestPulse cells) s (drive 0x10) ∧ Does (.extestTrain cells) s (drive 0x11)) ∧
    (Does .bypass s { s with jtag := { s.jtag with ir := 0xFF, out := 0, cells := [] } }) ∧
    (Does (.samplePreload levels) s { s with jtag := { s.jtag with ir := 1, out := levels, cells := [] } }) ∧
    (Does .idcode s { s with jtag := { s.jtag with ir := 2, out := 0x209609A7 } }) ∧
    (Does .fusestat s { s with jtag := { s.jtag with ir := 0x20, out := (s.readCodes FUSE_STAT).toNat } }) ∧
    (let x := a.toNat / 4 * 4
     let t := { s with jtag := { s.jtag with ir := 0x21, out := s.jtag.data + if s.jtag.err = true then 2 ^ 64 else 0 } }
     let far : Prop := x / 0x10000 ≠ 0x4030
     let r := busRead t ⟨8, true⟩ x 4 seen
     let y := busWrite t ⟨8, true⟩ x (leBytes 4 w.toNat) seen
     (far → ¬ free → Does (.dbgacc a on w seen) s { t with jtag := { t.jtag with data := 0, err := true } }) ∧
     (far → free → on = true → Does (.dbgacc a on w seen) s { y.s with jtag := { y.s.jtag with data := leOf y.data, err := y.err } }) ∧
     (far → free → on = false → Does (.dbgacc a on w seen) s { r.s with jtag := { r.s.jtag with data := leOf r.data, err := r.err } }) ∧
     (¬ far → dbgOpen x = true → on = false → s.blkOn 0 = true → x = DBG_AUTH → Completes (.dbgacc a on w seen) s (fun t => t.jtag.err = false → t.jtag.data = (s.readCodes DBG_AUTH).toNat))) ∧
    (let g := DBG_AUTH
     let data := (List.range 32).flatMap (fun i => leBytes 4 (s.reg (DBG_AUTH_DATA i)).toNat)
     let good := (s.setBit g DBG_AUTH_go false).authOk data
     Does .debugAuth s (if 8 ≤ s.fld g DBG_AUTH_fails then s else s.setBit g DBG_AUTH_go true) ∧
     (s.bit g DBG_AUTH_go = false → Does .debugAuthDone s s) ∧
     (s.bit g DBG_AUTH_go = true → Completes .debugAuthDone s (fun t => t.bit g DBG_AUTH_go = false ∧ t.bit g DBG_AUTH_unlocked = (s.bit g DBG_AUTH_unlocked || good) ∧
       t.fld g DBG_AUTH_fails = (if good = true then s.fld g DBG_AUTH_fails else min 8 (s.fld g DBG_AUTH_fails + 1)) ∧ t.free = s.free + 8 ∧
       RegsBut (g :: (List.range 8).map DBG_AUTH_NONCE) s t ∧ SameMem s t)) ∧
     Completes .debugLock s (fun t => t.unlocked = false ∧ RegsBut [g] s t ∧ SameMem s t)) ∧
    (let c := DBG_KILN_CTRL
     let x := s.kiln
     (¬ free → Does .kilnHalt s s ∧ Does .kilnResume s s ∧ Does .kilnStep s s ∧ Does (.dbgMemAccess none seen) s s ∧ Does (.threadHalt k) s s ∧ Does (.threadResume k) s s ∧ Does (.benchTest w) s s) ∧
     (free → x.halted = false → x.load = none ∨ x.lockup = true → Completes .kilnHalt s (fun t => t.kiln = { x with halted := true, haltReq := false, waiting := false, step := false } ∧
       t.bit c DBG_KILN_CTRL_halted = true ∧ RegsBut [c] s t ∧ SameMem s t)) ∧
     (free → x.halted = false → x.load ≠ none → x.lockup = false → Does .kilnHalt s (s.setKiln { x with haltReq := true })) ∧
     (free → x.halted = true → Completes .kilnResume s (fun t => t.kiln = { x with halted := false, haltReq := false, lockup := false, step := false, held := [] } ∧
       t.bit c DBG_KILN_CTRL_halted = false ∧ RegsBut [c] s t ∧ SameMem s t)) ∧
     (free → Does .kilnStep s (if x.halted = true ∧ x.lockup = false then s.setKiln { x with step := true } else s)) ∧
     (let at_ := (s.reg DBG_MEM_ADDR).toNat
      (free → x.halted = false → Does (.dbgMemAccess (some w) seen) s (s.setBit c DBG_KILN_CTRL_mem_err true)) ∧
      (free → x.halted = true → Does (.dbgMemAccess (some w) seen) s (busWrite0 (s.setReg DBG_MEM_DATA w) iniKiln at_ (leBytes 4 w.toNat) seen).s) ∧
      (free → x.halted = true → let r := busRead0 s iniKiln at_ 4 seen
        Does (.dbgMemAccess none seen) s (r.s.setReg DBG_MEM_DATA (BitVec.ofNat 32 (leOf r.data)))))) ∧
    (let x := s.thr k
     (free → x.state = .ready ∨ x.state = .blocked → Completes (.threadHalt k) s (fun t => t.thr k = { x with halt := true } ∧ RegsBut [] s t ∧ SameMem s t)) ∧
     (free → x.state ≠ .ready → x.state ≠ .blocked → Does (.threadHalt k) s s) ∧
     (free → Completes (.threadResume k) s (fun t => t.thr k = (if x.state = .halted then { x with state := x.before, halt := false } else { x with halt := false }) ∧ RegsBut [] s t ∧ SameMem s t))) ∧
    (let c := DBG_BENCH
     let was := s.fld c DBG_BENCH_start
     (free → Completes (.benchTest w) s (fun t => t.fld c DBG_BENCH_start = (if s.curProfile = 3 then was ||| getF w DBG_BENCH_start else was) ∧ RegsBut [c] s t ∧ SameMem s t)) ∧
     (was.testBit h = false → Does (.benchTestDone h res) s s) ∧
     (was.testBit h = true → Completes (.benchTestDone h res) s (fun t => t.fld c DBG_BENCH_start = was - 2 ^ h.val ∧ t.fld c DBG_BENCH_result = res.val ∧ (t.fld c DBG_BENCH_done).testBit h = true ∧
       RegsBut [c] s t ∧ SameMem s t))) ∧
    (let q := s.port p
     let n := s.slotCount p
     let got := s.received p (rx.own.map (·.toNat)) (rx.alt.map (·.toNat))
     let live : Prop := s.blkOn 15 = true ∧ s.spCfg p AUD_SP_CFG_enable = 1 ∧ s.portClocked p = true
     let sends : Prop := s.spCfg p AUD_SP_CFG_tx_en = 1
     let takes : Prop := s.spCfg p AUD_SP_CFG_rx_en = 1
     let raw : Prop := s.spCfg p AUD_SP_CFG_raw = 1
     (¬ live → Does (.serialPortFrame p rx) s s) ∧
     (live → raw → sends → ¬ takes → n ≤ q.tx.length → Completes (.serialPortFrame p rx) s (fun t => (t.port p).out = q.tx.take n ∧ (t.port p).tx = q.tx.drop n ∧ (t.port p).rx = q.rx ∧ SameMem s t)) ∧
     (live → raw → sends → ¬ takes → q.tx = [] → Completes (.serialPortFrame p rx) s (fun t => (t.port p).out = List.replicate n 0 ∧
       t.fld (AUD_SP_CNT p) AUD_SP_CNT_tx_under = min (fldMax AUD_SP_CNT_tx_under) (s.fld (AUD_SP_CNT p) AUD_SP_CNT_tx_under + n))) ∧
     (live → raw → ¬ sends → takes → q.rx.length + got.length ≤ 64 → Completes (.serialPortFrame p rx) s (fun t => (t.port p).rx = q.rx ++ got ∧ (t.port p).tx = q.tx ∧
       t.reg (AUD_SP_CNT p) = s.reg (AUD_SP_CNT p))) ∧
     (live → raw → ¬ sends → takes → q.rx.length = 64 → got ≠ [] → Completes (.serialPortFrame p rx) s (fun t => (t.port p).rx = q.rx ∧
       t.fld (AUD_SP_CNT p) AUD_SP_CNT_rx_over = min (fldMax AUD_SP_CNT_rx_over) (s.fld (AUD_SP_CNT p) AUD_SP_CNT_rx_over + got.length))) ∧
     (live → ¬ raw → Completes (.serialPortFrame p rx) s (fun t => (t.port p).out = (if sends then s.mixFrame p q.idx n else []) ∧ (t.port p).idx = q.idx + 1 ∧
       (t.port p).got = (if takes then q.got ++ [got] else q.got) ∧ SameMem s t)))
end

