-- ==== Sys2Proof/Laws/Maps.lean ====
section
/-! SUPPORT. Sparse maps: a read after a write, and the canonical form that every write keeps. -/

namespace Sys2Proof.Machine

variable {α : Type} {d : Nat → α}

theorem smGet_smErase_self (m : List (Nat × α)) (k : Nat) : smGet d (smErase m k) k = d k := by
  induction m with
  | nil => rfl
  | cons e m ih =>
    unfold smErase at *
    by_cases h : e.1 = k
    · simp [h, ih]
    · simp [h, smGet, ih]

theorem smGet_smErase_ne (m : List (Nat × α)) {k j : Nat} (h : j ≠ k) : smGet d (smErase m k) j = smGet d m j := by
  induction m with
  | nil => rfl
  | cons e m ih =>
    unfold smErase at *
    by_cases he : e.1 = k
    · have : e.1 ≠ j := by omega
      simp [he, smGet, ih]; omega
    · simp [he, smGet, ih]

theorem smGet_smInsert_ne (m : List (Nat × α)) {k j : Nat} (v : α) (h : j ≠ k) : smGet d (smInsert k v m) j = smGet d m j := by
  induction m with
  | nil => simp [smInsert, smGet]; omega
  | cons e m ih =>
    unfold smInsert; split
    · simp [smGet]; omega
    · simp [smGet, ih]

theorem smGet_smInsert_self (m : List (Nat × α)) (k : Nat) (v : α) (h : ∀ e ∈ m, e.1 ≠ k) : smGet d (smInsert k v m) k = v := by
  induction m with
  | nil => simp [smInsert, smGet]
  | cons e m ih =>
    unfold smInsert; split
    · simp [smGet]
    · rw [smGet, if_neg (h e (by simp))]
      exact ih (fun e' he' => h e' (by simp [he']))

theorem smErase_ne (m : List (Nat × α)) (k : Nat) : ∀ e ∈ smErase m k, e.1 ≠ k := by
  intro e he
  simp [smErase] at he
  exact he.2

theorem smErase_smErase (m : List (Nat × α)) (k : Nat) : smErase (smErase m k) k = smErase m k := by
  unfold smErase; simp

theorem smErase_smInsert (m : List (Nat × α)) (k : Nat) (v : α) : smErase (smInsert k v m) k = smErase m k := by
  induction m with
  | nil => simp [smInsert, smErase]
  | cons e m ih =>
    unfold smInsert; split
    · simp [smErase]
    · unfold smErase at *; rw [List.filter_cons, List.filter_cons, ih]

variable [DecidableEq α]

/-- Of two writes of one key the last stands. -/
@[simp] theorem smSet_smSet (m : List (Nat × α)) (k : Nat) (v w : α) : smSet d (smSet d m k v) k w = smSet d m k w := by
  have h : smErase (smSet d m k v) k = smErase m k := by
    unfold smSet; split
    · exact smErase_smErase m k
    · rw [smErase_smInsert, smErase_smErase]
  unfold smSet at *; rw [h]

@[simp] theorem smGet_smSet_self (m : List (Nat × α)) (k : Nat) (v : α) : smGet d (smSet d m k v) k = v := by
  unfold smSet; split
  · rw [smGet_smErase_self]; simp_all
  · exact smGet_smInsert_self _ _ _ (smErase_ne m k)

theorem smGet_smSet_ne (m : List (Nat × α)) {k j : Nat} (v : α) (h : j ≠ k) : smGet d (smSet d m k v) j = smGet d m j := by
  unfold smSet; split
  · exact smGet_smErase_ne m h
  · rw [smGet_smInsert_ne _ _ h, smGet_smErase_ne m h]

theorem smGet_smSet (m : List (Nat × α)) (k j : Nat) (v : α) : smGet d (smSet d m k v) j = if j = k then v else smGet d m j := by
  split
  · subst_vars; exact smGet_smSet_self _ _ _
  · exact smGet_smSet_ne _ _ ‹_›

/-! ## The canonical form -/

/-- Keys above a bound and rising, no entry equal to the default: the canonical form, stated from the front. -/
theorem smWf_iff (m : List (Nat × α)) : smWf d m = true ↔ m.Pairwise (fun a b => a.1 < b.1) ∧ ∀ e ∈ m, e.2 ≠ d e.1 := by
  induction m with
  | nil => simp [smWf]
  | cons e m ih =>
    cases m with
    | nil => simp [smWf]
    | cons e' m =>
      simp only [smWf, Bool.and_eq_true, decide_eq_true_eq, ih, List.pairwise_cons, List.mem_cons, forall_eq_or_imp]
      constructor
      · rintro ⟨⟨h1, h2⟩, ⟨h3, h4⟩, h5⟩
        exact ⟨⟨⟨h2, fun a ha => lt_trans h2 (h3 a ha)⟩, h3, h4⟩, h1, h5⟩
      · rintro ⟨⟨⟨h2, -⟩, h3, h4⟩, h1, h5⟩
        exact ⟨⟨h1, h2⟩, ⟨h3, h4⟩, h5⟩

theorem smErase_wf {m : List (Nat × α)} (k : Nat) (h : smWf d m = true) : smWf d (smErase m k) = true := by
  rw [smWf_iff] at *
  exact ⟨h.1.filter _, fun e he => h.2 e (List.mem_of_mem_filter he)⟩

omit [DecidableEq α] in
theorem mem_smInsert {m : List (Nat × α)} {k : Nat} {v : α} {e : Nat × α} (h : e ∈ smInsert k v m) : e = (k, v) ∨ e ∈ m := by
  induction m with
  | nil => simpa [smInsert] using h
  | cons a m ih =>
    unfold smInsert at h; split at h
    · simpa using h
    · simp only [List.mem_cons] at h ⊢
      rcases h with h | h
      · exact .inr (.inl h)
      · rcases ih h with h | h
        · exact .inl h
        · exact .inr (.inr h)

theorem smInsert_wf {m : List (Nat × α)} {k : Nat} {v : α} (h : smWf d m = true) (hk : ∀ e ∈ m, e.1 ≠ k) (hv : v ≠ d k) :
    smWf d (smInsert k v m) = true := by
  rw [smWf_iff] at *
  obtain ⟨hp, hd⟩ := h
  refine ⟨?_, fun e he => ?_⟩
  · induction m with
    | nil => simp [smInsert]
    | cons a m ih =>
      rw [List.pairwise_cons] at hp
      unfold smInsert; split
      · rename_i hlt
        simp only [List.pairwise_cons, List.mem_cons, forall_eq_or_imp]
        exact ⟨⟨hlt, fun b hb => lt_trans hlt (hp.1 b hb)⟩, hp⟩
      · rename_i hlt
        have ha := hk a (by simp)
        rw [List.pairwise_cons]
        refine ⟨fun b hb => ?_, ih (fun e he => hk e (by simp [he])) hp.2 (fun e he => hd e (by simp [he]))⟩
        rcases mem_smInsert hb with rfl | hb
        · show a.1 < k; omega
        · exact hp.1 b hb
  · rcases mem_smInsert he with rfl | he
    · exact hv
    · exact hd e he

/-- Every write keeps the canonical form. -/
theorem smSet_wf {m : List (Nat × α)} (k : Nat) (v : α) (h : smWf d m = true) : smWf d (smSet d m k v) = true := by
  unfold smSet; split
  · exact smErase_wf k h
  · exact smInsert_wf (smErase_wf k h) (smErase_ne m k) ‹_›

end Sys2Proof.Machine
end

