-- ==== Sys2Proof/Laws/Fields.lean ====
section
/-! SUPPORT. Register fields: a field read after a write of it, and fields that a write of another leaves alone. -/

namespace Sys2Proof.Machine

theorem getF_lt (w : BitVec 32) (f : Fld) : getF w f < 2 ^ (f.hi + 1 - f.lo) := Nat.mod_lt _ (Nat.two_pow_pos _)

/-- The number that `setF` forms, seen as the bits below, in and above the field. -/
theorem setF_toNat (w : BitVec 32) (f : Fld) (v : Nat) (h : f.hi < 32) (hl : f.lo ≤ f.hi) :
    (setF w f v).toNat = w.toNat % 2 ^ f.lo + 2 ^ f.lo * (v % 2 ^ (f.hi + 1 - f.lo)) + 2 ^ (f.hi + 1) * (w.toNat / 2 ^ (f.hi + 1)) := by
  obtain ⟨k, hk⟩ : ∃ k, f.hi + 1 = f.lo + k := ⟨f.hi + 1 - f.lo, by omega⟩
  have e1 : f.hi + 1 - f.lo = k := by omega
  have hw : w.toNat < 2 ^ 32 := w.isLt
  have hv : v % 2 ^ k < 2 ^ k := Nat.mod_lt _ (Nat.two_pow_pos _)
  unfold setF getF
  rw [e1, hk, Nat.pow_add]
  have d1 := Nat.mod_add_div w.toNat (2 ^ f.lo)
  have d2 := Nat.mod_add_div (w.toNat / 2 ^ f.lo) (2 ^ k)
  rw [Nat.div_div_eq_div_mul] at d2
  set A := w.toNat / 2 ^ f.lo
  set B := w.toNat / (2 ^ f.lo * 2 ^ k)
  have hr : w.toNat % 2 ^ f.lo < 2 ^ f.lo := Nat.mod_lt _ (Nat.two_pow_pos _)
  have key : w.toNat - A % 2 ^ k * 2 ^ f.lo + v % 2 ^ k * 2 ^ f.lo
      = w.toNat % 2 ^ f.lo + 2 ^ f.lo * (v % 2 ^ k) + 2 ^ f.lo * 2 ^ k * B := by
    have : w.toNat = w.toNat % 2 ^ f.lo + 2 ^ f.lo * 2 ^ k * B + A % 2 ^ k * 2 ^ f.lo := by
      conv_lhs => rw [← d1, ← d2]
      ring
    have c : v % 2 ^ k * 2 ^ f.lo = 2 ^ f.lo * (v % 2 ^ k) := Nat.mul_comm _ _
    omega
  rw [BitVec.toNat_ofNat, key]
  apply Nat.mod_eq_of_lt
  obtain ⟨j, hj⟩ : ∃ j, 32 = f.lo + k + j := ⟨32 - (f.lo + k), by omega⟩
  have hB : B < 2 ^ j := by
    apply Nat.div_lt_of_lt_mul
    calc w.toNat < 2 ^ 32 := hw
      _ = 2 ^ f.lo * 2 ^ k * 2 ^ j := by rw [hj, Nat.pow_add, Nat.pow_add]
  calc _ < 2 ^ f.lo + 2 ^ f.lo * (v % 2 ^ k) + 2 ^ f.lo * 2 ^ k * B := by omega
    _ = 2 ^ f.lo * (1 + v % 2 ^ k) + 2 ^ f.lo * 2 ^ k * B := by ring
    _ ≤ 2 ^ f.lo * 2 ^ k + 2 ^ f.lo * 2 ^ k * B := by gcongr; omega
    _ = 2 ^ f.lo * 2 ^ k * (1 + B) := by ring
    _ ≤ 2 ^ f.lo * 2 ^ k * 2 ^ j := by gcongr; omega
    _ = 2 ^ 32 := by rw [hj, Nat.pow_add, Nat.pow_add]

/-- A field read after a write of it: the value cut to its width. -/
theorem getF_setF (w : BitVec 32) (f : Fld) (v : Nat) (h : f.hi < 32) (hl : f.lo ≤ f.hi) :
    getF (setF w f v) f = v % 2 ^ (f.hi + 1 - f.lo) := by
  unfold getF
  rw [setF_toNat w f v h hl]
  obtain ⟨k, hk⟩ : ∃ k, f.hi + 1 = f.lo + k := ⟨f.hi + 1 - f.lo, by omega⟩
  have e1 : f.hi + 1 - f.lo = k := by omega
  rw [e1, hk, Nat.pow_add]
  have hr : w.toNat % 2 ^ f.lo < 2 ^ f.lo := Nat.mod_lt _ (Nat.two_pow_pos _)
  have : w.toNat % 2 ^ f.lo + 2 ^ f.lo * (v % 2 ^ k) + 2 ^ f.lo * 2 ^ k * (w.toNat / (2 ^ f.lo * 2 ^ k))
      = w.toNat % 2 ^ f.lo + 2 ^ f.lo * (v % 2 ^ k + 2 ^ k * (w.toNat / (2 ^ f.lo * 2 ^ k))) := by ring
  rw [this, Nat.add_mul_div_left _ _ (Nat.two_pow_pos _), Nat.div_eq_of_lt hr, Nat.zero_add, Nat.add_mul_mod_self_left]
  exact Nat.mod_mod _ _

/-- A write of a field leaves a field apart from it as it was. -/
theorem getF_setF_apart (w : BitVec 32) (f g : Fld) (v : Nat) (h : f.hi < 32) (hl : f.lo ≤ f.hi) (hg : g.hi < f.lo ∨ f.hi < g.lo) :
    getF (setF w f v) g = getF w g := by
  unfold getF
  rw [setF_toNat w f v h hl]
  rcases hg with hg | hg
  · rcases Nat.lt_or_ge g.hi g.lo with hz | hz
    · have : g.hi + 1 - g.lo = 0 := by omega
      rw [this]; simp [Nat.mod_one]
    obtain ⟨j, hj⟩ : ∃ j, f.lo = g.lo + (g.hi + 1 - g.lo) + j := ⟨f.lo - (g.hi + 1), by omega⟩
    set m := g.hi + 1 - g.lo
    obtain ⟨k, hk⟩ : ∃ k, f.hi + 1 = f.lo + k := ⟨f.hi + 1 - f.lo, by omega⟩
    set X := v % 2 ^ (f.hi + 1 - f.lo)
    set Y := w.toNat / 2 ^ (f.hi + 1)
    have e : w.toNat % 2 ^ f.lo + 2 ^ f.lo * X + 2 ^ (f.hi + 1) * Y = w.toNat % 2 ^ f.lo + 2 ^ f.lo * (X + 2 ^ k * Y) := by
      rw [hk, Nat.pow_add]; ring
    rw [e]
    have low : ∀ n Z, (n % 2 ^ f.lo + 2 ^ f.lo * Z) / 2 ^ g.lo % 2 ^ m = n / 2 ^ g.lo % 2 ^ m := by
      intro n Z
      rw [← Nat.mod_mul_right_div_self, ← Nat.mod_mul_right_div_self, ← Nat.pow_add]
      congr 1
      rw [hj, Nat.pow_add _ (g.lo + m) j, Nat.mul_assoc (2 ^ (g.lo + m)), Nat.add_mul_mod_self_left, Nat.mod_mul_right_mod]
    exact low _ _
  · have e : (w.toNat % 2 ^ f.lo + 2 ^ f.lo * (v % 2 ^ (f.hi + 1 - f.lo)) + 2 ^ (f.hi + 1) * (w.toNat / 2 ^ (f.hi + 1))) / 2 ^ g.lo
        = w.toNat / 2 ^ g.lo := by
      obtain ⟨k, hk⟩ : ∃ k, f.hi + 1 = f.lo + k := ⟨f.hi + 1 - f.lo, by omega⟩
      have e1 : f.hi + 1 - f.lo = k := by omega
      obtain ⟨j, hj⟩ : ∃ j, g.lo = f.hi + 1 + j := ⟨g.lo - (f.hi + 1), by omega⟩
      have hv : v % 2 ^ k < 2 ^ k := Nat.mod_lt _ (Nat.two_pow_pos _)
      have hr : w.toNat % 2 ^ f.lo < 2 ^ f.lo := Nat.mod_lt _ (Nat.two_pow_pos _)
      rw [hj, Nat.pow_add _ (f.hi + 1) j, ← Nat.div_div_eq_div_mul _ (2 ^ (f.hi + 1)), ← Nat.div_div_eq_div_mul w.toNat (2 ^ (f.hi + 1)),
        Nat.add_mul_div_left _ _ (Nat.two_pow_pos _)]
      congr 1
      rw [Nat.div_eq_of_lt, Nat.zero_add]
      rw [e1, hk, Nat.pow_add]
      calc _ < 2 ^ f.lo + 2 ^ f.lo * (v % 2 ^ k) := by omega
        _ = 2 ^ f.lo * (1 + v % 2 ^ k) := by ring
        _ ≤ 2 ^ f.lo * 2 ^ k := by gcongr; omega
    rw [e]

/-- A one-bit field read after a write of it. -/
theorem bitOf_setF (w : BitVec 32) (n v : Nat) (h : n < 32) (hv : v < 2) : bitOf (setF w ⟨n, n⟩ v) ⟨n, n⟩ = (v == 1) := by
  unfold bitOf
  rw [getF_setF w _ v h (Nat.le_refl _)]
  have : v % 2 ^ (n + 1 - n) = v := by
    have e : n + 1 - n = 1 := by omega
    rw [e]; exact Nat.mod_eq_of_lt (by simpa using hv)
  rw [this]

end Sys2Proof.Machine
end

