-- ==== Sys2Proof/Laws/State.lean ====
section
/-! SUPPORT. What each update of the state leaves alone, what each named read sees after it, and what settling the wires does. -/

namespace Sys2Proof.Machine

/-! ## One law per update: every other field of the state stays -/

@[simp] theorem setReg_rest (s : State) (a : Nat) (w : Word) :
    (s.setReg a w).pending = s.pending ∧ (s.setReg a w).free = s.free ∧ (s.setReg a w).mem = s.mem ∧ (s.setReg a w).blkReset = s.blkReset ∧
    (s.setReg a w).ecc = s.ecc ∧ (s.setReg a w).wb = s.wb ∧ (s.setReg a w).capture = s.capture ∧ (s.setReg a w).scrubPos = s.scrubPos ∧
    (s.setReg a w).arr = s.arr ∧ (s.setReg a w).heads = s.heads ∧ (s.setReg a w).vslot = s.vslot ∧ (s.setReg a w).pipeBands = s.pipeBands ∧
    (s.setReg a w).vidBase = s.vidBase ∧ (s.setReg a w).vidHeld = s.vidHeld ∧ (s.setReg a w).rd = s.rd ∧ (s.setReg a w).tb = s.tb ∧
    (s.setReg a w).pulse = s.pulse ∧ (s.setReg a w).blk = s.blk ∧ (s.setReg a w).dma = s.dma ∧ (s.setReg a w).dmaLast = s.dmaLast ∧
    (s.setReg a w).aud = s.aud ∧ (s.setReg a w).sp = s.sp ∧ (s.setReg a w).kind = s.kind ∧ (s.setReg a w).ports = s.ports ∧
    (s.setReg a w).tbAcc = s.tbAcc ∧ (s.setReg a w).tbSteps = s.tbSteps ∧ (s.setReg a w).pinAcc = s.pinAcc ∧ (s.setReg a w).tmr = s.tmr ∧
    (s.setReg a w).adcTodo = s.adcTodo ∧ (s.setReg a w).adcHeld = s.adcHeld ∧
    (s.setReg a w).fires = s.fires ∧ (s.setReg a w).extl = s.extl ∧ (s.setReg a w).retain = s.retain ∧ (s.setReg a w).retDrive = s.retDrive ∧
    (s.setReg a w).keep = s.keep ∧
    (s.setReg a w).host = s.host ∧ (s.setReg a w).kiln = s.kiln ∧ (s.setReg a w).fw = s.fw ∧ (s.setReg a w).led = s.led ∧
    (s.setReg a w).txts = s.txts ∧ (s.setReg a w).wire = s.wire ∧ (s.setReg a w).trial = s.trial ∧ (s.setReg a w).ember = s.ember ∧
    (s.setReg a w).jtag = s.jtag ∧ (s.setReg a w).wdog = s.wdog ∧
    (s.setReg a w).trc = s.trc ∧ (s.setReg a w).trcLost = s.trcLost :=
  ⟨rfl, rfl, rfl, rfl, rfl, rfl, rfl, rfl, rfl, rfl, rfl, rfl, rfl, rfl, rfl, rfl, rfl, rfl, rfl, rfl, rfl, rfl, rfl, rfl, rfl, rfl, rfl, rfl, rfl, rfl, rfl, rfl, rfl, rfl, rfl, rfl, rfl, rfl, rfl, rfl, rfl, rfl, rfl, rfl, rfl, rfl, rfl⟩

@[simp] theorem setFld_rest (s : State) (a : Nat) (f : Fld) (v : Nat) :
    (s.setFld a f v).pending = s.pending ∧ (s.setFld a f v).free = s.free ∧ (s.setFld a f v).mem = s.mem ∧ (s.setFld a f v).blkReset = s.blkReset ∧
    (s.setFld a f v).ecc = s.ecc ∧ (s.setFld a f v).wb = s.wb ∧ (s.setFld a f v).capture = s.capture ∧ (s.setFld a f v).scrubPos = s.scrubPos ∧
    (s.setFld a f v).arr = s.arr ∧ (s.setFld a f v).heads = s.heads ∧ (s.setFld a f v).vslot = s.vslot ∧ (s.setFld a f v).pipeBands = s.pipeBands ∧
    (s.setFld a f v).vidBase = s.vidBase ∧ (s.setFld a f v).vidHeld = s.vidHeld ∧ (s.setFld a f v).rd = s.rd ∧ (s.setFld a f v).tb = s.tb ∧
    (s.setFld a f v).pulse = s.pulse ∧ (s.setFld a f v).blk = s.blk ∧ (s.setFld a f v).dma = s.dma ∧ (s.setFld a f v).dmaLast = s.dmaLast ∧
    (s.setFld a f v).aud = s.aud ∧ (s.setFld a f v).sp = s.sp ∧ (s.setFld a f v).kind = s.kind ∧ (s.setFld a f v).ports = s.ports ∧
    (s.setFld a f v).tbAcc = s.tbAcc ∧ (s.setFld a f v).tbSteps = s.tbSteps ∧ (s.setFld a f v).pinAcc = s.pinAcc ∧ (s.setFld a f v).tmr = s.tmr ∧
    (s.setFld a f v).adcTodo = s.adcTodo ∧ (s.setFld a f v).adcHeld = s.adcHeld ∧
    (s.setFld a f v).fires = s.fires ∧ (s.setFld a f v).extl = s.extl ∧ (s.setFld a f v).retain = s.retain ∧ (s.setFld a f v).retDrive = s.retDrive ∧
    (s.setFld a f v).keep = s.keep ∧
    (s.setFld a f v).host = s.host ∧ (s.setFld a f v).kiln = s.kiln ∧ (s.setFld a f v).fw = s.fw ∧ (s.setFld a f v).led = s.led ∧
    (s.setFld a f v).txts = s.txts ∧ (s.setFld a f v).wire = s.wire ∧ (s.setFld a f v).trial = s.trial ∧ (s.setFld a f v).ember = s.ember ∧
    (s.setFld a f v).jtag = s.jtag ∧ (s.setFld a f v).wdog = s.wdog ∧
    (s.setFld a f v).trc = s.trc ∧ (s.setFld a f v).trcLost = s.trcLost :=
  ⟨rfl, rfl, rfl, rfl, rfl, rfl, rfl, rfl, rfl, rfl, rfl, rfl, rfl, rfl, rfl, rfl, rfl, rfl, rfl, rfl, rfl, rfl, rfl, rfl, rfl, rfl, rfl, rfl, rfl, rfl, rfl, rfl, rfl, rfl, rfl, rfl, rfl, rfl, rfl, rfl, rfl, rfl, rfl, rfl, rfl, rfl, rfl⟩

@[simp] theorem setBit_rest (s : State) (a : Nat) (f : Fld) (b : Bool) :
    (s.setBit a f b).pending = s.pending ∧ (s.setBit a f b).free = s.free ∧ (s.setBit a f b).mem = s.mem ∧ (s.setBit a f b).blkReset = s.blkReset ∧
    (s.setBit a f b).ecc = s.ecc ∧ (s.setBit a f b).wb = s.wb ∧ (s.setBit a f b).capture = s.capture ∧ (s.setBit a f b).scrubPos = s.scrubPos ∧
    (s.setBit a f b).arr = s.arr ∧ (s.setBit a f b).heads = s.heads ∧ (s.setBit a f b).vslot = s.vslot ∧ (s.setBit a f b).pipeBands = s.pipeBands ∧
    (s.setBit a f b).vidBase = s.vidBase ∧ (s.setBit a f b).vidHeld = s.vidHeld ∧ (s.setBit a f b).rd = s.rd ∧ (s.setBit a f b).tb = s.tb ∧
    (s.setBit a f b).pulse = s.pulse ∧ (s.setBit a f b).blk = s.blk ∧ (s.setBit a f b).dma = s.dma ∧ (s.setBit a f b).dmaLast = s.dmaLast ∧
    (s.setBit a f b).aud = s.aud ∧ (s.setBit a f b).sp = s.sp ∧ (s.setBit a f b).kind = s.kind ∧ (s.setBit a f b).ports = s.ports ∧
    (s.setBit a f b).tbAcc = s.tbAcc ∧ (s.setBit a f b).tbSteps = s.tbSteps ∧ (s.setBit a f b).pinAcc = s.pinAcc ∧ (s.setBit a f b).tmr = s.tmr ∧
    (s.setBit a f b).adcTodo = s.adcTodo ∧ (s.setBit a f b).adcHeld = s.adcHeld ∧
    (s.setBit a f b).fires = s.fires ∧ (s.setBit a f b).extl = s.extl ∧ (s.setBit a f b).retain = s.retain ∧ (s.setBit a f b).retDrive = s.retDrive ∧
    (s.setBit a f b).keep = s.keep ∧
    (s.setBit a f b).host = s.host ∧ (s.setBit a f b).kiln = s.kiln ∧ (s.setBit a f b).fw = s.fw ∧ (s.setBit a f b).led = s.led ∧
    (s.setBit a f b).txts = s.txts ∧ (s.setBit a f b).wire = s.wire ∧ (s.setBit a f b).trial = s.trial ∧ (s.setBit a f b).ember = s.ember ∧
    (s.setBit a f b).jtag = s.jtag ∧ (s.setBit a f b).wdog = s.wdog ∧
    (s.setBit a f b).trc = s.trc ∧ (s.setBit a f b).trcLost = s.trcLost :=
  ⟨rfl, rfl, rfl, rfl, rfl, rfl, rfl, rfl, rfl, rfl, rfl, rfl, rfl, rfl, rfl, rfl, rfl, rfl, rfl, rfl, rfl, rfl, rfl, rfl, rfl, rfl, rfl, rfl, rfl, rfl, rfl, rfl, rfl, rfl, rfl, rfl, rfl, rfl, rfl, rfl, rfl, rfl, rfl, rfl, rfl, rfl, rfl⟩

@[simp] theorem countBy_rest (s : State) (a : Nat) (f : Fld) (k : Nat) :
    (s.countBy a f k).pending = s.pending ∧ (s.countBy a f k).free = s.free ∧ (s.countBy a f k).mem = s.mem ∧
    (s.countBy a f k).blkReset = s.blkReset ∧ (s.countBy a f k).ecc = s.ecc ∧ (s.countBy a f k).wb = s.wb ∧ (s.countBy a f k).capture = s.capture ∧
    (s.countBy a f k).scrubPos = s.scrubPos ∧ (s.countBy a f k).arr = s.arr ∧ (s.countBy a f k).heads = s.heads ∧ (s.countBy a f k).vslot = s.vslot ∧
    (s.countBy a f k).pipeBands = s.pipeBands ∧ (s.countBy a f k).vidBase = s.vidBase ∧ (s.countBy a f k).vidHeld = s.vidHeld ∧
    (s.countBy a f k).rd = s.rd ∧ (s.countBy a f k).tb = s.tb ∧ (s.countBy a f k).pulse = s.pulse ∧ (s.countBy a f k).blk = s.blk ∧
    (s.countBy a f k).dma = s.dma ∧ (s.countBy a f k).dmaLast = s.dmaLast ∧ (s.countBy a f k).aud = s.aud ∧ (s.countBy a f k).sp = s.sp ∧
    (s.countBy a f k).kind = s.kind ∧ (s.countBy a f k).ports = s.ports ∧ (s.countBy a f k).tbAcc = s.tbAcc ∧ (s.countBy a f k).tbSteps = s.tbSteps ∧
    (s.countBy a f k).pinAcc = s.pinAcc ∧ (s.countBy a f k).tmr = s.tmr ∧
    (s.countBy a f k).adcTodo = s.adcTodo ∧ (s.countBy a f k).adcHeld = s.adcHeld ∧ (s.countBy a f k).fires = s.fires ∧
    (s.countBy a f k).extl = s.extl ∧ (s.countBy a f k).retain = s.retain ∧ (s.countBy a f k).retDrive = s.retDrive ∧ (s.countBy a f k).keep = s.keep ∧
    (s.countBy a f k).host = s.host ∧ (s.countBy a f k).kiln = s.kiln ∧ (s.countBy a f k).fw = s.fw ∧ (s.countBy a f k).led = s.led ∧
    (s.countBy a f k).txts = s.txts ∧ (s.countBy a f k).wire = s.wire ∧ (s.countBy a f k).trial = s.trial ∧ (s.countBy a f k).ember = s.ember ∧
    (s.countBy a f k).jtag = s.jtag ∧ (s.countBy a f k).wdog = s.wdog ∧
    (s.countBy a f k).trc = s.trc ∧ (s.countBy a f k).trcLost = s.trcLost :=
  ⟨rfl, rfl, rfl, rfl, rfl, rfl, rfl, rfl, rfl, rfl, rfl, rfl, rfl, rfl, rfl, rfl, rfl, rfl, rfl, rfl, rfl, rfl, rfl, rfl, rfl, rfl, rfl, rfl, rfl, rfl, rfl, rfl, rfl, rfl, rfl, rfl, rfl, rfl, rfl, rfl, rfl, rfl, rfl, rfl, rfl, rfl, rfl⟩

@[simp] theorem count_rest (s : State) (a : Nat) (f : Fld) :
    (s.count a f).pending = s.pending ∧ (s.count a f).free = s.free ∧ (s.count a f).mem = s.mem ∧ (s.count a f).blkReset = s.blkReset ∧
    (s.count a f).ecc = s.ecc ∧ (s.count a f).wb = s.wb ∧ (s.count a f).capture = s.capture ∧ (s.count a f).scrubPos = s.scrubPos ∧
    (s.count a f).arr = s.arr ∧ (s.count a f).heads = s.heads ∧ (s.count a f).vslot = s.vslot ∧ (s.count a f).pipeBands = s.pipeBands ∧
    (s.count a f).vidBase = s.vidBase ∧ (s.count a f).vidHeld = s.vidHeld ∧ (s.count a f).rd = s.rd ∧ (s.count a f).tb = s.tb ∧
    (s.count a f).pulse = s.pulse ∧ (s.count a f).blk = s.blk ∧ (s.count a f).dma = s.dma ∧ (s.count a f).dmaLast = s.dmaLast ∧
    (s.count a f).aud = s.aud ∧ (s.count a f).sp = s.sp ∧ (s.count a f).kind = s.kind ∧ (s.count a f).ports = s.ports ∧
    (s.count a f).tbAcc = s.tbAcc ∧ (s.count a f).tbSteps = s.tbSteps ∧ (s.count a f).pinAcc = s.pinAcc ∧ (s.count a f).tmr = s.tmr ∧
    (s.count a f).adcTodo = s.adcTodo ∧ (s.count a f).adcHeld = s.adcHeld ∧
    (s.count a f).fires = s.fires ∧ (s.count a f).extl = s.extl ∧ (s.count a f).retain = s.retain ∧ (s.count a f).retDrive = s.retDrive ∧ (s.count a f).keep = s.keep ∧
    (s.count a f).host = s.host ∧ (s.count a f).kiln = s.kiln ∧ (s.count a f).fw = s.fw ∧ (s.count a f).led = s.led ∧ (s.count a f).txts = s.txts ∧
    (s.count a f).wire = s.wire ∧ (s.count a f).trial = s.trial ∧ (s.count a f).ember = s.ember ∧ (s.count a f).jtag = s.jtag ∧
    (s.count a f).wdog = s.wdog ∧
    (s.count a f).trc = s.trc ∧ (s.count a f).trcLost = s.trcLost :=
  ⟨rfl, rfl, rfl, rfl, rfl, rfl, rfl, rfl, rfl, rfl, rfl, rfl, rfl, rfl, rfl, rfl, rfl, rfl, rfl, rfl, rfl, rfl, rfl, rfl, rfl, rfl, rfl, rfl, rfl, rfl, rfl, rfl, rfl, rfl, rfl, rfl, rfl, rfl, rfl, rfl, rfl, rfl, rfl, rfl, rfl, rfl, rfl⟩

@[simp] theorem resetRegs_rest (s : State) (p : Nat → Bool) :
    (s.resetRegs p).pending = s.pending ∧ (s.resetRegs p).free = s.free ∧ (s.resetRegs p).mem = s.mem ∧ (s.resetRegs p).blkReset = s.blkReset ∧
    (s.resetRegs p).ecc = s.ecc ∧ (s.resetRegs p).wb = s.wb ∧ (s.resetRegs p).capture = s.capture ∧ (s.resetRegs p).scrubPos = s.scrubPos ∧
    (s.resetRegs p).arr = s.arr ∧ (s.resetRegs p).heads = s.heads ∧ (s.resetRegs p).vslot = s.vslot ∧ (s.resetRegs p).pipeBands = s.pipeBands ∧
    (s.resetRegs p).vidBase = s.vidBase ∧ (s.resetRegs p).vidHeld = s.vidHeld ∧ (s.resetRegs p).rd = s.rd ∧ (s.resetRegs p).tb = s.tb ∧
    (s.resetRegs p).pulse = s.pulse ∧ (s.resetRegs p).blk = s.blk ∧ (s.resetRegs p).dma = s.dma ∧ (s.resetRegs p).dmaLast = s.dmaLast ∧
    (s.resetRegs p).aud = s.aud ∧ (s.resetRegs p).sp = s.sp ∧ (s.resetRegs p).kind = s.kind ∧ (s.resetRegs p).ports = s.ports ∧
    (s.resetRegs p).tbAcc = s.tbAcc ∧ (s.resetRegs p).tbSteps = s.tbSteps ∧ (s.resetRegs p).pinAcc = s.pinAcc ∧ (s.resetRegs p).tmr = s.tmr ∧
    (s.resetRegs p).adcTodo = s.adcTodo ∧ (s.resetRegs p).adcHeld = s.adcHeld ∧
    (s.resetRegs p).fires = s.fires ∧ (s.resetRegs p).extl = s.extl ∧ (s.resetRegs p).retain = s.retain ∧ (s.resetRegs p).retDrive = s.retDrive ∧
    (s.resetRegs p).keep = s.keep ∧
    (s.resetRegs p).host = s.host ∧ (s.resetRegs p).kiln = s.kiln ∧ (s.resetRegs p).fw = s.fw ∧ (s.resetRegs p).led = s.led ∧
    (s.resetRegs p).txts = s.txts ∧ (s.resetRegs p).wire = s.wire ∧ (s.resetRegs p).trial = s.trial ∧ (s.resetRegs p).ember = s.ember ∧
    (s.resetRegs p).jtag = s.jtag ∧ (s.resetRegs p).wdog = s.wdog ∧
    (s.resetRegs p).trc = s.trc ∧ (s.resetRegs p).trcLost = s.trcLost :=
  ⟨rfl, rfl, rfl, rfl, rfl, rfl, rfl, rfl, rfl, rfl, rfl, rfl, rfl, rfl, rfl, rfl, rfl, rfl, rfl, rfl, rfl, rfl, rfl, rfl, rfl, rfl, rfl, rfl, rfl, rfl, rfl, rfl, rfl, rfl, rfl, rfl, rfl, rfl, rfl, rfl, rfl, rfl, rfl, rfl, rfl, rfl, rfl⟩

@[simp] theorem setByte_rest (s : State) (a : Nat) (b : Byte) :
    (s.setByte a b).pending = s.pending ∧ (s.setByte a b).free = s.free ∧ (s.setByte a b).regs = s.regs ∧ (s.setByte a b).blkReset = s.blkReset ∧
    (s.setByte a b).ecc = s.ecc ∧ (s.setByte a b).wb = s.wb ∧ (s.setByte a b).capture = s.capture ∧ (s.setByte a b).scrubPos = s.scrubPos ∧
    (s.setByte a b).arr = s.arr ∧ (s.setByte a b).heads = s.heads ∧ (s.setByte a b).vslot = s.vslot ∧ (s.setByte a b).pipeBands = s.pipeBands ∧
    (s.setByte a b).vidBase = s.vidBase ∧ (s.setByte a b).vidHeld = s.vidHeld ∧ (s.setByte a b).rd = s.rd ∧ (s.setByte a b).tb = s.tb ∧
    (s.setByte a b).pulse = s.pulse ∧ (s.setByte a b).blk = s.blk ∧ (s.setByte a b).dma = s.dma ∧ (s.setByte a b).dmaLast = s.dmaLast ∧
    (s.setByte a b).aud = s.aud ∧ (s.setByte a b).sp = s.sp ∧ (s.setByte a b).kind = s.kind ∧ (s.setByte a b).ports = s.ports ∧
    (s.setByte a b).tbAcc = s.tbAcc ∧ (s.setByte a b).tbSteps = s.tbSteps ∧ (s.setByte a b).pinAcc = s.pinAcc ∧ (s.setByte a b).tmr = s.tmr ∧
    (s.setByte a b).adcTodo = s.adcTodo ∧ (s.setByte a b).adcHeld = s.adcHeld ∧
    (s.setByte a b).fires = s.fires ∧ (s.setByte a b).extl = s.extl ∧ (s.setByte a b).retain = s.retain ∧ (s.setByte a b).retDrive = s.retDrive ∧
    (s.setByte a b).keep = s.keep ∧
    (s.setByte a b).host = s.host ∧ (s.setByte a b).kiln = s.kiln ∧ (s.setByte a b).fw = s.fw ∧ (s.setByte a b).led = s.led ∧
    (s.setByte a b).txts = s.txts ∧ (s.setByte a b).wire = s.wire ∧ (s.setByte a b).trial = s.trial ∧ (s.setByte a b).ember = s.ember ∧
    (s.setByte a b).jtag = s.jtag ∧ (s.setByte a b).wdog = s.wdog ∧
    (s.setByte a b).trc = s.trc ∧ (s.setByte a b).trcLost = s.trcLost :=
  ⟨rfl, rfl, rfl, rfl, rfl, rfl, rfl, rfl, rfl, rfl, rfl, rfl, rfl, rfl, rfl, rfl, rfl, rfl, rfl, rfl, rfl, rfl, rfl, rfl, rfl, rfl, rfl, rfl, rfl, rfl, rfl, rfl, rfl, rfl, rfl, rfl, rfl, rfl, rfl, rfl, rfl, rfl, rfl, rfl, rfl, rfl, rfl⟩

@[simp] theorem setArr_rest (s : State) (k v : Nat) :
    (s.setArr k v).pending = s.pending ∧ (s.setArr k v).free = s.free ∧ (s.setArr k v).regs = s.regs ∧ (s.setArr k v).mem = s.mem ∧
    (s.setArr k v).blkReset = s.blkReset ∧ (s.setArr k v).ecc = s.ecc ∧ (s.setArr k v).wb = s.wb ∧ (s.setArr k v).capture = s.capture ∧
    (s.setArr k v).scrubPos = s.scrubPos ∧ (s.setArr k v).heads = s.heads ∧ (s.setArr k v).vslot = s.vslot ∧ (s.setArr k v).pipeBands = s.pipeBands ∧
    (s.setArr k v).vidBase = s.vidBase ∧ (s.setArr k v).vidHeld = s.vidHeld ∧ (s.setArr k v).rd = s.rd ∧ (s.setArr k v).tb = s.tb ∧
    (s.setArr k v).pulse = s.pulse ∧ (s.setArr k v).blk = s.blk ∧ (s.setArr k v).dma = s.dma ∧ (s.setArr k v).dmaLast = s.dmaLast ∧
    (s.setArr k v).aud = s.aud ∧ (s.setArr k v).sp = s.sp ∧ (s.setArr k v).kind = s.kind ∧ (s.setArr k v).ports = s.ports ∧
    (s.setArr k v).tbAcc = s.tbAcc ∧ (s.setArr k v).tbSteps = s.tbSteps ∧ (s.setArr k v).pinAcc = s.pinAcc ∧ (s.setArr k v).tmr = s.tmr ∧
    (s.setArr k v).adcTodo = s.adcTodo ∧ (s.setArr k v).adcHeld = s.adcHeld ∧
    (s.setArr k v).fires = s.fires ∧ (s.setArr k v).extl = s.extl ∧ (s.setArr k v).retain = s.retain ∧ (s.setArr k v).retDrive = s.retDrive ∧
    (s.setArr k v).keep = s.keep ∧
    (s.setArr k v).host = s.host ∧ (s.setArr k v).kiln = s.kiln ∧ (s.setArr k v).fw = s.fw ∧ (s.setArr k v).led = s.led ∧
    (s.setArr k v).txts = s.txts ∧ (s.setArr k v).wire = s.wire ∧ (s.setArr k v).trial = s.trial ∧ (s.setArr k v).ember = s.ember ∧
    (s.setArr k v).jtag = s.jtag ∧ (s.setArr k v).wdog = s.wdog ∧
    (s.setArr k v).trc = s.trc ∧ (s.setArr k v).trcLost = s.trcLost :=
  ⟨rfl, rfl, rfl, rfl, rfl, rfl, rfl, rfl, rfl, rfl, rfl, rfl, rfl, rfl, rfl, rfl, rfl, rfl, rfl, rfl, rfl, rfl, rfl, rfl, rfl, rfl, rfl, rfl, rfl, rfl, rfl, rfl, rfl, rfl, rfl, rfl, rfl, rfl, rfl, rfl, rfl, rfl, rfl, rfl, rfl, rfl, rfl⟩

@[simp] theorem setEcc_rest (s : State) (a c : Nat) :
    (s.setEcc a c).pending = s.pending ∧ (s.setEcc a c).free = s.free ∧ (s.setEcc a c).regs = s.regs ∧ (s.setEcc a c).mem = s.mem ∧
    (s.setEcc a c).blkReset = s.blkReset ∧ (s.setEcc a c).wb = s.wb ∧ (s.setEcc a c).capture = s.capture ∧ (s.setEcc a c).scrubPos = s.scrubPos ∧
    (s.setEcc a c).arr = s.arr ∧ (s.setEcc a c).heads = s.heads ∧ (s.setEcc a c).vslot = s.vslot ∧ (s.setEcc a c).pipeBands = s.pipeBands ∧
    (s.setEcc a c).vidBase = s.vidBase ∧ (s.setEcc a c).vidHeld = s.vidHeld ∧ (s.setEcc a c).rd = s.rd ∧ (s.setEcc a c).tb = s.tb ∧
    (s.setEcc a c).pulse = s.pulse ∧ (s.setEcc a c).blk = s.blk ∧ (s.setEcc a c).dma = s.dma ∧ (s.setEcc a c).dmaLast = s.dmaLast ∧
    (s.setEcc a c).aud = s.aud ∧ (s.setEcc a c).sp = s.sp ∧ (s.setEcc a c).kind = s.kind ∧ (s.setEcc a c).ports = s.ports ∧
    (s.setEcc a c).tbAcc = s.tbAcc ∧ (s.setEcc a c).tbSteps = s.tbSteps ∧ (s.setEcc a c).pinAcc = s.pinAcc ∧ (s.setEcc a c).tmr = s.tmr ∧
    (s.setEcc a c).adcTodo = s.adcTodo ∧ (s.setEcc a c).adcHeld = s.adcHeld ∧
    (s.setEcc a c).fires = s.fires ∧ (s.setEcc a c).extl = s.extl ∧ (s.setEcc a c).retain = s.retain ∧ (s.setEcc a c).retDrive = s.retDrive ∧
    (s.setEcc a c).keep = s.keep ∧
    (s.setEcc a c).host = s.host ∧ (s.setEcc a c).kiln = s.kiln ∧ (s.setEcc a c).fw = s.fw ∧ (s.setEcc a c).led = s.led ∧
    (s.setEcc a c).txts = s.txts ∧ (s.setEcc a c).wire = s.wire ∧ (s.setEcc a c).trial = s.trial ∧ (s.setEcc a c).ember = s.ember ∧
    (s.setEcc a c).jtag = s.jtag ∧ (s.setEcc a c).wdog = s.wdog ∧
    (s.setEcc a c).trc = s.trc ∧ (s.setEcc a c).trcLost = s.trcLost :=
  ⟨rfl, rfl, rfl, rfl, rfl, rfl, rfl, rfl, rfl, rfl, rfl, rfl, rfl, rfl, rfl, rfl, rfl, rfl, rfl, rfl, rfl, rfl, rfl, rfl, rfl, rfl, rfl, rfl, rfl, rfl, rfl, rfl, rfl, rfl, rfl, rfl, rfl, rfl, rfl, rfl, rfl, rfl, rfl, rfl, rfl, rfl, rfl⟩

@[simp] theorem dropWb_rest (s : State) (a : Nat) :
    (s.dropWb a).pending = s.pending ∧ (s.dropWb a).free = s.free ∧ (s.dropWb a).regs = s.regs ∧ (s.dropWb a).mem = s.mem ∧
    (s.dropWb a).blkReset = s.blkReset ∧ (s.dropWb a).ecc = s.ecc ∧ (s.dropWb a).capture = s.capture ∧ (s.dropWb a).scrubPos = s.scrubPos ∧
    (s.dropWb a).arr = s.arr ∧ (s.dropWb a).heads = s.heads ∧ (s.dropWb a).vslot = s.vslot ∧ (s.dropWb a).pipeBands = s.pipeBands ∧
    (s.dropWb a).vidBase = s.vidBase ∧ (s.dropWb a).vidHeld = s.vidHeld ∧ (s.dropWb a).rd = s.rd ∧ (s.dropWb a).tb = s.tb ∧
    (s.dropWb a).pulse = s.pulse ∧ (s.dropWb a).blk = s.blk ∧ (s.dropWb a).dma = s.dma ∧ (s.dropWb a).dmaLast = s.dmaLast ∧
    (s.dropWb a).aud = s.aud ∧ (s.dropWb a).sp = s.sp ∧ (s.dropWb a).kind = s.kind ∧ (s.dropWb a).ports = s.ports ∧ (s.dropWb a).tbAcc = s.tbAcc ∧
    (s.dropWb a).tbSteps = s.tbSteps ∧ (s.dropWb a).pinAcc = s.pinAcc ∧
    (s.dropWb a).tmr = s.tmr ∧ (s.dropWb a).adcTodo = s.adcTodo ∧ (s.dropWb a).adcHeld = s.adcHeld ∧ (s.dropWb a).fires = s.fires ∧
    (s.dropWb a).extl = s.extl ∧ (s.dropWb a).retain = s.retain ∧ (s.dropWb a).retDrive = s.retDrive ∧ (s.dropWb a).keep = s.keep ∧ (s.dropWb a).host = s.host ∧
    (s.dropWb a).kiln = s.kiln ∧ (s.dropWb a).fw = s.fw ∧ (s.dropWb a).led = s.led ∧ (s.dropWb a).txts = s.txts ∧ (s.dropWb a).wire = s.wire ∧
    (s.dropWb a).trial = s.trial ∧ (s.dropWb a).ember = s.ember ∧ (s.dropWb a).jtag = s.jtag ∧ (s.dropWb a).wdog = s.wdog ∧
    (s.dropWb a).trc = s.trc ∧ (s.dropWb a).trcLost = s.trcLost :=
  ⟨rfl, rfl, rfl, rfl, rfl, rfl, rfl, rfl, rfl, rfl, rfl, rfl, rfl, rfl, rfl, rfl, rfl, rfl, rfl, rfl, rfl, rfl, rfl, rfl, rfl, rfl, rfl, rfl, rfl, rfl, rfl, rfl, rfl, rfl, rfl, rfl, rfl, rfl, rfl, rfl, rfl, rfl, rfl, rfl, rfl, rfl, rfl⟩

@[simp] theorem setHead_rest (s : State) (n : Nat) (h : HeadSt) :
    (s.setHead n h).pending = s.pending ∧ (s.setHead n h).free = s.free ∧ (s.setHead n h).regs = s.regs ∧ (s.setHead n h).mem = s.mem ∧
    (s.setHead n h).blkReset = s.blkReset ∧ (s.setHead n h).ecc = s.ecc ∧ (s.setHead n h).wb = s.wb ∧ (s.setHead n h).capture = s.capture ∧
    (s.setHead n h).scrubPos = s.scrubPos ∧ (s.setHead n h).arr = s.arr ∧ (s.setHead n h).vslot = s.vslot ∧ (s.setHead n h).pipeBands = s.pipeBands ∧
    (s.setHead n h).vidBase = s.vidBase ∧ (s.setHead n h).vidHeld = s.vidHeld ∧ (s.setHead n h).rd = s.rd ∧ (s.setHead n h).tb = s.tb ∧
    (s.setHead n h).pulse = s.pulse ∧ (s.setHead n h).blk = s.blk ∧ (s.setHead n h).dma = s.dma ∧ (s.setHead n h).dmaLast = s.dmaLast ∧
    (s.setHead n h).aud = s.aud ∧ (s.setHead n h).sp = s.sp ∧ (s.setHead n h).kind = s.kind ∧ (s.setHead n h).ports = s.ports ∧
    (s.setHead n h).tbAcc = s.tbAcc ∧ (s.setHead n h).tbSteps = s.tbSteps ∧ (s.setHead n h).pinAcc = s.pinAcc ∧ (s.setHead n h).tmr = s.tmr ∧
    (s.setHead n h).adcTodo = s.adcTodo ∧ (s.setHead n h).adcHeld = s.adcHeld ∧
    (s.setHead n h).fires = s.fires ∧ (s.setHead n h).extl = s.extl ∧ (s.setHead n h).retain = s.retain ∧ (s.setHead n h).retDrive = s.retDrive ∧
    (s.setHead n h).keep = s.keep ∧
    (s.setHead n h).host = s.host ∧ (s.setHead n h).kiln = s.kiln ∧ (s.setHead n h).fw = s.fw ∧ (s.setHead n h).led = s.led ∧
    (s.setHead n h).txts = s.txts ∧ (s.setHead n h).wire = s.wire ∧ (s.setHead n h).trial = s.trial ∧ (s.setHead n h).ember = s.ember ∧
    (s.setHead n h).jtag = s.jtag ∧ (s.setHead n h).wdog = s.wdog ∧
    (s.setHead n h).trc = s.trc ∧ (s.setHead n h).trcLost = s.trcLost :=
  ⟨rfl, rfl, rfl, rfl, rfl, rfl, rfl, rfl, rfl, rfl, rfl, rfl, rfl, rfl, rfl, rfl, rfl, rfl, rfl, rfl, rfl, rfl, rfl, rfl, rfl, rfl, rfl, rfl, rfl, rfl, rfl, rfl, rfl, rfl, rfl, rfl, rfl, rfl, rfl, rfl, rfl, rfl, rfl, rfl, rfl, rfl, rfl⟩

@[simp] theorem setDma_rest (s : State) (k : Nat) (c : DmaCh) :
    (s.setDma k c).pending = s.pending ∧ (s.setDma k c).free = s.free ∧ (s.setDma k c).regs = s.regs ∧ (s.setDma k c).mem = s.mem ∧
    (s.setDma k c).blkReset = s.blkReset ∧ (s.setDma k c).ecc = s.ecc ∧ (s.setDma k c).wb = s.wb ∧ (s.setDma k c).capture = s.capture ∧
    (s.setDma k c).scrubPos = s.scrubPos ∧ (s.setDma k c).arr = s.arr ∧ (s.setDma k c).heads = s.heads ∧ (s.setDma k c).vslot = s.vslot ∧
    (s.setDma k c).pipeBands = s.pipeBands ∧ (s.setDma k c).vidBase = s.vidBase ∧ (s.setDma k c).vidHeld = s.vidHeld ∧ (s.setDma k c).rd = s.rd ∧
    (s.setDma k c).tb = s.tb ∧ (s.setDma k c).pulse = s.pulse ∧ (s.setDma k c).blk = s.blk ∧ (s.setDma k c).dmaLast = s.dmaLast ∧
    (s.setDma k c).aud = s.aud ∧ (s.setDma k c).sp = s.sp ∧ (s.setDma k c).kind = s.kind ∧ (s.setDma k c).ports = s.ports ∧
    (s.setDma k c).tbAcc = s.tbAcc ∧ (s.setDma k c).tbSteps = s.tbSteps ∧ (s.setDma k c).pinAcc = s.pinAcc ∧ (s.setDma k c).tmr = s.tmr ∧
    (s.setDma k c).adcTodo = s.adcTodo ∧ (s.setDma k c).adcHeld = s.adcHeld ∧
    (s.setDma k c).fires = s.fires ∧ (s.setDma k c).extl = s.extl ∧ (s.setDma k c).retain = s.retain ∧ (s.setDma k c).retDrive = s.retDrive ∧
    (s.setDma k c).keep = s.keep ∧
    (s.setDma k c).host = s.host ∧ (s.setDma k c).kiln = s.kiln ∧ (s.setDma k c).fw = s.fw ∧ (s.setDma k c).led = s.led ∧
    (s.setDma k c).txts = s.txts ∧ (s.setDma k c).wire = s.wire ∧ (s.setDma k c).trial = s.trial ∧ (s.setDma k c).ember = s.ember ∧
    (s.setDma k c).jtag = s.jtag ∧ (s.setDma k c).wdog = s.wdog ∧
    (s.setDma k c).trc = s.trc ∧ (s.setDma k c).trcLost = s.trcLost :=
  ⟨rfl, rfl, rfl, rfl, rfl, rfl, rfl, rfl, rfl, rfl, rfl, rfl, rfl, rfl, rfl, rfl, rfl, rfl, rfl, rfl, rfl, rfl, rfl, rfl, rfl, rfl, rfl, rfl, rfl, rfl, rfl, rfl, rfl, rfl, rfl, rfl, rfl, rfl, rfl, rfl, rfl, rfl, rfl, rfl, rfl, rfl, rfl⟩

@[simp] theorem setPort_rest (s : State) (k : Nat) (p : SpSt) :
    (s.setPort k p).pending = s.pending ∧ (s.setPort k p).free = s.free ∧ (s.setPort k p).regs = s.regs ∧ (s.setPort k p).mem = s.mem ∧
    (s.setPort k p).blkReset = s.blkReset ∧ (s.setPort k p).ecc = s.ecc ∧ (s.setPort k p).wb = s.wb ∧ (s.setPort k p).capture = s.capture ∧
    (s.setPort k p).scrubPos = s.scrubPos ∧ (s.setPort k p).arr = s.arr ∧ (s.setPort k p).heads = s.heads ∧ (s.setPort k p).vslot = s.vslot ∧
    (s.setPort k p).pipeBands = s.pipeBands ∧ (s.setPort k p).vidBase = s.vidBase ∧ (s.setPort k p).vidHeld = s.vidHeld ∧ (s.setPort k p).rd = s.rd ∧
    (s.setPort k p).tb = s.tb ∧ (s.setPort k p).pulse = s.pulse ∧ (s.setPort k p).blk = s.blk ∧ (s.setPort k p).dma = s.dma ∧
    (s.setPort k p).dmaLast = s.dmaLast ∧ (s.setPort k p).aud = s.aud ∧ (s.setPort k p).kind = s.kind ∧ (s.setPort k p).ports = s.ports ∧
    (s.setPort k p).tbAcc = s.tbAcc ∧ (s.setPort k p).tbSteps = s.tbSteps ∧ (s.setPort k p).pinAcc = s.pinAcc ∧ (s.setPort k p).tmr = s.tmr ∧
    (s.setPort k p).adcTodo = s.adcTodo ∧ (s.setPort k p).adcHeld = s.adcHeld ∧
    (s.setPort k p).fires = s.fires ∧ (s.setPort k p).extl = s.extl ∧ (s.setPort k p).retain = s.retain ∧ (s.setPort k p).retDrive = s.retDrive ∧
    (s.setPort k p).keep = s.keep ∧
    (s.setPort k p).host = s.host ∧ (s.setPort k p).kiln = s.kiln ∧ (s.setPort k p).fw = s.fw ∧ (s.setPort k p).led = s.led ∧
    (s.setPort k p).txts = s.txts ∧ (s.setPort k p).wire = s.wire ∧ (s.setPort k p).trial = s.trial ∧ (s.setPort k p).ember = s.ember ∧
    (s.setPort k p).jtag = s.jtag ∧ (s.setPort k p).wdog = s.wdog ∧
    (s.setPort k p).trc = s.trc ∧ (s.setPort k p).trcLost = s.trcLost :=
  ⟨rfl, rfl, rfl, rfl, rfl, rfl, rfl, rfl, rfl, rfl, rfl, rfl, rfl, rfl, rfl, rfl, rfl, rfl, rfl, rfl, rfl, rfl, rfl, rfl, rfl, rfl, rfl, rfl, rfl, rfl, rfl, rfl, rfl, rfl, rfl, rfl, rfl, rfl, rfl, rfl, rfl, rfl, rfl, rfl, rfl, rfl, rfl⟩

@[simp] theorem setThr_rest (s : State) (t : Nat) (x : Thr) :
    (s.setThr t x).pending = s.pending ∧ (s.setThr t x).free = s.free ∧ (s.setThr t x).regs = s.regs ∧ (s.setThr t x).mem = s.mem ∧
    (s.setThr t x).blkReset = s.blkReset ∧ (s.setThr t x).ecc = s.ecc ∧ (s.setThr t x).wb = s.wb ∧ (s.setThr t x).capture = s.capture ∧
    (s.setThr t x).scrubPos = s.scrubPos ∧ (s.setThr t x).arr = s.arr ∧ (s.setThr t x).heads = s.heads ∧ (s.setThr t x).vslot = s.vslot ∧
    (s.setThr t x).pipeBands = s.pipeBands ∧ (s.setThr t x).vidBase = s.vidBase ∧ (s.setThr t x).vidHeld = s.vidHeld ∧ (s.setThr t x).rd = s.rd ∧
    (s.setThr t x).tb = s.tb ∧ (s.setThr t x).pulse = s.pulse ∧ (s.setThr t x).blk = s.blk ∧ (s.setThr t x).dma = s.dma ∧
    (s.setThr t x).dmaLast = s.dmaLast ∧ (s.setThr t x).aud = s.aud ∧ (s.setThr t x).sp = s.sp ∧ (s.setThr t x).ports = s.ports ∧
    (s.setThr t x).tbAcc = s.tbAcc ∧ (s.setThr t x).tbSteps = s.tbSteps ∧ (s.setThr t x).pinAcc = s.pinAcc ∧ (s.setThr t x).tmr = s.tmr ∧
    (s.setThr t x).adcTodo = s.adcTodo ∧ (s.setThr t x).adcHeld = s.adcHeld ∧
    (s.setThr t x).fires = s.fires ∧ (s.setThr t x).extl = s.extl ∧ (s.setThr t x).retain = s.retain ∧ (s.setThr t x).retDrive = s.retDrive ∧
    (s.setThr t x).keep = s.keep ∧
    (s.setThr t x).host = s.host ∧ (s.setThr t x).kiln = s.kiln ∧ (s.setThr t x).fw = s.fw ∧ (s.setThr t x).led = s.led ∧
    (s.setThr t x).txts = s.txts ∧ (s.setThr t x).wire = s.wire ∧ (s.setThr t x).trial = s.trial ∧ (s.setThr t x).ember = s.ember ∧
    (s.setThr t x).jtag = s.jtag ∧ (s.setThr t x).wdog = s.wdog ∧
    (s.setThr t x).trc = s.trc ∧ (s.setThr t x).trcLost = s.trcLost :=
  ⟨rfl, rfl, rfl, rfl, rfl, rfl, rfl, rfl, rfl, rfl, rfl, rfl, rfl, rfl, rfl, rfl, rfl, rfl, rfl, rfl, rfl, rfl, rfl, rfl, rfl, rfl, rfl, rfl, rfl, rfl, rfl, rfl, rfl, rfl, rfl, rfl, rfl, rfl, rfl, rfl, rfl, rfl, rfl, rfl, rfl, rfl, rfl⟩

@[simp] theorem setEnd_rest (s : State) (e : Nat) (x : ChEnd) :
    (s.setEnd e x).pending = s.pending ∧ (s.setEnd e x).free = s.free ∧ (s.setEnd e x).regs = s.regs ∧ (s.setEnd e x).mem = s.mem ∧
    (s.setEnd e x).blkReset = s.blkReset ∧ (s.setEnd e x).ecc = s.ecc ∧ (s.setEnd e x).wb = s.wb ∧ (s.setEnd e x).capture = s.capture ∧
    (s.setEnd e x).scrubPos = s.scrubPos ∧ (s.setEnd e x).arr = s.arr ∧ (s.setEnd e x).heads = s.heads ∧ (s.setEnd e x).vslot = s.vslot ∧
    (s.setEnd e x).pipeBands = s.pipeBands ∧ (s.setEnd e x).vidBase = s.vidBase ∧ (s.setEnd e x).vidHeld = s.vidHeld ∧ (s.setEnd e x).rd = s.rd ∧
    (s.setEnd e x).tb = s.tb ∧ (s.setEnd e x).pulse = s.pulse ∧ (s.setEnd e x).blk = s.blk ∧ (s.setEnd e x).dma = s.dma ∧
    (s.setEnd e x).dmaLast = s.dmaLast ∧ (s.setEnd e x).aud = s.aud ∧ (s.setEnd e x).sp = s.sp ∧ (s.setEnd e x).ports = s.ports ∧
    (s.setEnd e x).tbAcc = s.tbAcc ∧ (s.setEnd e x).tbSteps = s.tbSteps ∧ (s.setEnd e x).pinAcc = s.pinAcc ∧ (s.setEnd e x).tmr = s.tmr ∧
    (s.setEnd e x).adcTodo = s.adcTodo ∧ (s.setEnd e x).adcHeld = s.adcHeld ∧
    (s.setEnd e x).fires = s.fires ∧ (s.setEnd e x).extl = s.extl ∧ (s.setEnd e x).retain = s.retain ∧ (s.setEnd e x).retDrive = s.retDrive ∧
    (s.setEnd e x).keep = s.keep ∧
    (s.setEnd e x).host = s.host ∧ (s.setEnd e x).kiln = s.kiln ∧ (s.setEnd e x).fw = s.fw ∧ (s.setEnd e x).led = s.led ∧
    (s.setEnd e x).txts = s.txts ∧ (s.setEnd e x).wire = s.wire ∧ (s.setEnd e x).trial = s.trial ∧ (s.setEnd e x).ember = s.ember ∧
    (s.setEnd e x).jtag = s.jtag ∧ (s.setEnd e x).wdog = s.wdog ∧
    (s.setEnd e x).trc = s.trc ∧ (s.setEnd e x).trcLost = s.trcLost :=
  ⟨rfl, rfl, rfl, rfl, rfl, rfl, rfl, rfl, rfl, rfl, rfl, rfl, rfl, rfl, rfl, rfl, rfl, rfl, rfl, rfl, rfl, rfl, rfl, rfl, rfl, rfl, rfl, rfl, rfl, rfl, rfl, rfl, rfl, rfl, rfl, rfl, rfl, rfl, rfl, rfl, rfl, rfl, rfl, rfl, rfl, rfl, rfl⟩

@[simp] theorem setKEnd_rest (s : State) (k : Nat) (x : KEnd) :
    (s.setKEnd k x).pending = s.pending ∧ (s.setKEnd k x).free = s.free ∧ (s.setKEnd k x).regs = s.regs ∧ (s.setKEnd k x).mem = s.mem ∧
    (s.setKEnd k x).blkReset = s.blkReset ∧ (s.setKEnd k x).ecc = s.ecc ∧ (s.setKEnd k x).wb = s.wb ∧ (s.setKEnd k x).capture = s.capture ∧
    (s.setKEnd k x).scrubPos = s.scrubPos ∧ (s.setKEnd k x).arr = s.arr ∧ (s.setKEnd k x).heads = s.heads ∧ (s.setKEnd k x).vslot = s.vslot ∧
    (s.setKEnd k x).pipeBands = s.pipeBands ∧ (s.setKEnd k x).vidBase = s.vidBase ∧ (s.setKEnd k x).vidHeld = s.vidHeld ∧ (s.setKEnd k x).rd = s.rd ∧
    (s.setKEnd k x).tb = s.tb ∧ (s.setKEnd k x).pulse = s.pulse ∧ (s.setKEnd k x).blk = s.blk ∧ (s.setKEnd k x).dma = s.dma ∧
    (s.setKEnd k x).dmaLast = s.dmaLast ∧ (s.setKEnd k x).aud = s.aud ∧ (s.setKEnd k x).sp = s.sp ∧ (s.setKEnd k x).ports = s.ports ∧
    (s.setKEnd k x).tbAcc = s.tbAcc ∧ (s.setKEnd k x).tbSteps = s.tbSteps ∧ (s.setKEnd k x).pinAcc = s.pinAcc ∧ (s.setKEnd k x).tmr = s.tmr ∧
    (s.setKEnd k x).adcTodo = s.adcTodo ∧ (s.setKEnd k x).adcHeld = s.adcHeld ∧
    (s.setKEnd k x).fires = s.fires ∧ (s.setKEnd k x).extl = s.extl ∧ (s.setKEnd k x).retain = s.retain ∧ (s.setKEnd k x).retDrive = s.retDrive ∧
    (s.setKEnd k x).keep = s.keep ∧
    (s.setKEnd k x).host = s.host ∧ (s.setKEnd k x).kiln = s.kiln ∧ (s.setKEnd k x).fw = s.fw ∧ (s.setKEnd k x).led = s.led ∧
    (s.setKEnd k x).txts = s.txts ∧ (s.setKEnd k x).wire = s.wire ∧ (s.setKEnd k x).trial = s.trial ∧ (s.setKEnd k x).ember = s.ember ∧
    (s.setKEnd k x).jtag = s.jtag ∧ (s.setKEnd k x).wdog = s.wdog ∧
    (s.setKEnd k x).trc = s.trc ∧ (s.setKEnd k x).trcLost = s.trcLost :=
  ⟨rfl, rfl, rfl, rfl, rfl, rfl, rfl, rfl, rfl, rfl, rfl, rfl, rfl, rfl, rfl, rfl, rfl, rfl, rfl, rfl, rfl, rfl, rfl, rfl, rfl, rfl, rfl, rfl, rfl, rfl, rfl, rfl, rfl, rfl, rfl, rfl, rfl, rfl, rfl, rfl, rfl, rfl, rfl, rfl, rfl, rfl, rfl⟩

@[simp] theorem setLock_rest (s : State) (l : Nat) (x : Lock) :
    (s.setLock l x).pending = s.pending ∧ (s.setLock l x).free = s.free ∧ (s.setLock l x).regs = s.regs ∧ (s.setLock l x).mem = s.mem ∧
    (s.setLock l x).blkReset = s.blkReset ∧ (s.setLock l x).ecc = s.ecc ∧ (s.setLock l x).wb = s.wb ∧ (s.setLock l x).capture = s.capture ∧
    (s.setLock l x).scrubPos = s.scrubPos ∧ (s.setLock l x).arr = s.arr ∧ (s.setLock l x).heads = s.heads ∧ (s.setLock l x).vslot = s.vslot ∧
    (s.setLock l x).pipeBands = s.pipeBands ∧ (s.setLock l x).vidBase = s.vidBase ∧ (s.setLock l x).vidHeld = s.vidHeld ∧ (s.setLock l x).rd = s.rd ∧
    (s.setLock l x).tb = s.tb ∧ (s.setLock l x).pulse = s.pulse ∧ (s.setLock l x).blk = s.blk ∧ (s.setLock l x).dma = s.dma ∧
    (s.setLock l x).dmaLast = s.dmaLast ∧ (s.setLock l x).aud = s.aud ∧ (s.setLock l x).sp = s.sp ∧ (s.setLock l x).ports = s.ports ∧
    (s.setLock l x).tbAcc = s.tbAcc ∧ (s.setLock l x).tbSteps = s.tbSteps ∧ (s.setLock l x).pinAcc = s.pinAcc ∧ (s.setLock l x).tmr = s.tmr ∧
    (s.setLock l x).adcTodo = s.adcTodo ∧ (s.setLock l x).adcHeld = s.adcHeld ∧
    (s.setLock l x).fires = s.fires ∧ (s.setLock l x).extl = s.extl ∧ (s.setLock l x).retain = s.retain ∧ (s.setLock l x).retDrive = s.retDrive ∧
    (s.setLock l x).keep = s.keep ∧
    (s.setLock l x).host = s.host ∧ (s.setLock l x).kiln = s.kiln ∧ (s.setLock l x).fw = s.fw ∧ (s.setLock l x).led = s.led ∧
    (s.setLock l x).txts = s.txts ∧ (s.setLock l x).wire = s.wire ∧ (s.setLock l x).trial = s.trial ∧ (s.setLock l x).ember = s.ember ∧
    (s.setLock l x).jtag = s.jtag ∧ (s.setLock l x).wdog = s.wdog ∧
    (s.setLock l x).trc = s.trc ∧ (s.setLock l x).trcLost = s.trcLost :=
  ⟨rfl, rfl, rfl, rfl, rfl, rfl, rfl, rfl, rfl, rfl, rfl, rfl, rfl, rfl, rfl, rfl, rfl, rfl, rfl, rfl, rfl, rfl, rfl, rfl, rfl, rfl, rfl, rfl, rfl, rfl, rfl, rfl, rfl, rfl, rfl, rfl, rfl, rfl, rfl, rfl, rfl, rfl, rfl, rfl, rfl, rfl, rfl⟩

@[simp] theorem setClk_rest (s : State) (k : Nat) (c : Clk) :
    (s.setClk k c).pending = s.pending ∧ (s.setClk k c).free = s.free ∧ (s.setClk k c).regs = s.regs ∧ (s.setClk k c).mem = s.mem ∧
    (s.setClk k c).blkReset = s.blkReset ∧ (s.setClk k c).ecc = s.ecc ∧ (s.setClk k c).wb = s.wb ∧ (s.setClk k c).capture = s.capture ∧
    (s.setClk k c).scrubPos = s.scrubPos ∧ (s.setClk k c).arr = s.arr ∧ (s.setClk k c).heads = s.heads ∧ (s.setClk k c).vslot = s.vslot ∧
    (s.setClk k c).pipeBands = s.pipeBands ∧ (s.setClk k c).vidBase = s.vidBase ∧ (s.setClk k c).vidHeld = s.vidHeld ∧ (s.setClk k c).rd = s.rd ∧
    (s.setClk k c).tb = s.tb ∧ (s.setClk k c).pulse = s.pulse ∧ (s.setClk k c).blk = s.blk ∧ (s.setClk k c).dma = s.dma ∧
    (s.setClk k c).dmaLast = s.dmaLast ∧ (s.setClk k c).aud = s.aud ∧ (s.setClk k c).sp = s.sp ∧ (s.setClk k c).ports = s.ports ∧
    (s.setClk k c).tbAcc = s.tbAcc ∧ (s.setClk k c).tbSteps = s.tbSteps ∧ (s.setClk k c).pinAcc = s.pinAcc ∧ (s.setClk k c).tmr = s.tmr ∧
    (s.setClk k c).adcTodo = s.adcTodo ∧ (s.setClk k c).adcHeld = s.adcHeld ∧
    (s.setClk k c).fires = s.fires ∧ (s.setClk k c).extl = s.extl ∧ (s.setClk k c).retain = s.retain ∧ (s.setClk k c).retDrive = s.retDrive ∧
    (s.setClk k c).keep = s.keep ∧
    (s.setClk k c).host = s.host ∧ (s.setClk k c).kiln = s.kiln ∧ (s.setClk k c).fw = s.fw ∧ (s.setClk k c).led = s.led ∧
    (s.setClk k c).txts = s.txts ∧ (s.setClk k c).wire = s.wire ∧ (s.setClk k c).trial = s.trial ∧ (s.setClk k c).ember = s.ember ∧
    (s.setClk k c).jtag = s.jtag ∧ (s.setClk k c).wdog = s.wdog ∧
    (s.setClk k c).trc = s.trc ∧ (s.setClk k c).trcLost = s.trcLost :=
  ⟨rfl, rfl, rfl, rfl, rfl, rfl, rfl, rfl, rfl, rfl, rfl, rfl, rfl, rfl, rfl, rfl, rfl, rfl, rfl, rfl, rfl, rfl, rfl, rfl, rfl, rfl, rfl, rfl, rfl, rfl, rfl, rfl, rfl, rfl, rfl, rfl, rfl, rfl, rfl, rfl, rfl, rfl, rfl, rfl, rfl, rfl, rfl⟩

@[simp] theorem setInbound_rest (s : State) (d : Nat) (x : Inbound) :
    (s.setInbound d x).pending = s.pending ∧ (s.setInbound d x).free = s.free ∧ (s.setInbound d x).regs = s.regs ∧ (s.setInbound d x).mem = s.mem ∧
    (s.setInbound d x).blkReset = s.blkReset ∧ (s.setInbound d x).ecc = s.ecc ∧ (s.setInbound d x).wb = s.wb ∧
    (s.setInbound d x).capture = s.capture ∧ (s.setInbound d x).scrubPos = s.scrubPos ∧ (s.setInbound d x).arr = s.arr ∧
    (s.setInbound d x).heads = s.heads ∧ (s.setInbound d x).vslot = s.vslot ∧ (s.setInbound d x).pipeBands = s.pipeBands ∧
    (s.setInbound d x).vidBase = s.vidBase ∧ (s.setInbound d x).vidHeld = s.vidHeld ∧ (s.setInbound d x).rd = s.rd ∧ (s.setInbound d x).tb = s.tb ∧
    (s.setInbound d x).pulse = s.pulse ∧ (s.setInbound d x).blk = s.blk ∧ (s.setInbound d x).dma = s.dma ∧ (s.setInbound d x).dmaLast = s.dmaLast ∧
    (s.setInbound d x).aud = s.aud ∧ (s.setInbound d x).sp = s.sp ∧ (s.setInbound d x).ports = s.ports ∧ (s.setInbound d x).tbAcc = s.tbAcc ∧
    (s.setInbound d x).tbSteps = s.tbSteps ∧ (s.setInbound d x).pinAcc = s.pinAcc ∧
    (s.setInbound d x).tmr = s.tmr ∧ (s.setInbound d x).adcTodo = s.adcTodo ∧ (s.setInbound d x).adcHeld = s.adcHeld ∧
    (s.setInbound d x).fires = s.fires ∧ (s.setInbound d x).extl = s.extl ∧ (s.setInbound d x).retain = s.retain ∧
    (s.setInbound d x).retDrive = s.retDrive ∧ (s.setInbound d x).keep = s.keep ∧ (s.setInbound d x).host = s.host ∧ (s.setInbound d x).kiln = s.kiln ∧
    (s.setInbound d x).fw = s.fw ∧
    (s.setInbound d x).led = s.led ∧ (s.setInbound d x).txts = s.txts ∧ (s.setInbound d x).wire = s.wire ∧ (s.setInbound d x).trial = s.trial ∧
    (s.setInbound d x).ember = s.ember ∧ (s.setInbound d x).jtag = s.jtag ∧ (s.setInbound d x).wdog = s.wdog ∧
    (s.setInbound d x).trc = s.trc ∧ (s.setInbound d x).trcLost = s.trcLost :=
  ⟨rfl, rfl, rfl, rfl, rfl, rfl, rfl, rfl, rfl, rfl, rfl, rfl, rfl, rfl, rfl, rfl, rfl, rfl, rfl, rfl, rfl, rfl, rfl, rfl, rfl, rfl, rfl, rfl, rfl, rfl, rfl, rfl, rfl, rfl, rfl, rfl, rfl, rfl, rfl, rfl, rfl, rfl, rfl, rfl, rfl, rfl, rfl⟩

@[simp] theorem setKport_rest (s : State) (n : Nat) (p : Port) :
    (s.setKport n p).pending = s.pending ∧ (s.setKport n p).free = s.free ∧ (s.setKport n p).regs = s.regs ∧ (s.setKport n p).mem = s.mem ∧
    (s.setKport n p).blkReset = s.blkReset ∧ (s.setKport n p).ecc = s.ecc ∧ (s.setKport n p).wb = s.wb ∧ (s.setKport n p).capture = s.capture ∧
    (s.setKport n p).scrubPos = s.scrubPos ∧ (s.setKport n p).arr = s.arr ∧ (s.setKport n p).heads = s.heads ∧ (s.setKport n p).vslot = s.vslot ∧
    (s.setKport n p).pipeBands = s.pipeBands ∧ (s.setKport n p).vidBase = s.vidBase ∧ (s.setKport n p).vidHeld = s.vidHeld ∧
    (s.setKport n p).rd = s.rd ∧ (s.setKport n p).tb = s.tb ∧ (s.setKport n p).pulse = s.pulse ∧ (s.setKport n p).blk = s.blk ∧
    (s.setKport n p).dma = s.dma ∧ (s.setKport n p).dmaLast = s.dmaLast ∧ (s.setKport n p).aud = s.aud ∧ (s.setKport n p).sp = s.sp ∧
    (s.setKport n p).kind = s.kind ∧ (s.setKport n p).tbAcc = s.tbAcc ∧ (s.setKport n p).tbSteps = s.tbSteps ∧ (s.setKport n p).pinAcc = s.pinAcc ∧
    (s.setKport n p).tmr = s.tmr ∧ (s.setKport n p).adcTodo = s.adcTodo ∧
    (s.setKport n p).adcHeld = s.adcHeld ∧ (s.setKport n p).fires = s.fires ∧ (s.setKport n p).extl = s.extl ∧ (s.setKport n p).retain = s.retain ∧
    (s.setKport n p).retDrive = s.retDrive ∧ (s.setKport n p).keep = s.keep ∧ (s.setKport n p).host = s.host ∧ (s.setKport n p).kiln = s.kiln ∧
    (s.setKport n p).fw = s.fw ∧
    (s.setKport n p).led = s.led ∧ (s.setKport n p).txts = s.txts ∧ (s.setKport n p).wire = s.wire ∧ (s.setKport n p).trial = s.trial ∧
    (s.setKport n p).ember = s.ember ∧ (s.setKport n p).jtag = s.jtag ∧ (s.setKport n p).wdog = s.wdog ∧
    (s.setKport n p).trc = s.trc ∧ (s.setKport n p).trcLost = s.trcLost :=
  ⟨rfl, rfl, rfl, rfl, rfl, rfl, rfl, rfl, rfl, rfl, rfl, rfl, rfl, rfl, rfl, rfl, rfl, rfl, rfl, rfl, rfl, rfl, rfl, rfl, rfl, rfl, rfl, rfl, rfl, rfl, rfl, rfl, rfl, rfl, rfl, rfl, rfl, rfl, rfl, rfl, rfl, rfl, rfl, rfl, rfl, rfl, rfl⟩

@[simp] theorem setTimer_rest (s : State) (k : Nat) (t : Tmr) :
    (s.setTimer k t).pending = s.pending ∧ (s.setTimer k t).free = s.free ∧ (s.setTimer k t).regs = s.regs ∧ (s.setTimer k t).mem = s.mem ∧
    (s.setTimer k t).blkReset = s.blkReset ∧ (s.setTimer k t).ecc = s.ecc ∧ (s.setTimer k t).wb = s.wb ∧ (s.setTimer k t).capture = s.capture ∧
    (s.setTimer k t).scrubPos = s.scrubPos ∧ (s.setTimer k t).arr = s.arr ∧ (s.setTimer k t).heads = s.heads ∧ (s.setTimer k t).vslot = s.vslot ∧
    (s.setTimer k t).pipeBands = s.pipeBands ∧ (s.setTimer k t).vidBase = s.vidBase ∧ (s.setTimer k t).vidHeld = s.vidHeld ∧
    (s.setTimer k t).rd = s.rd ∧ (s.setTimer k t).tb = s.tb ∧ (s.setTimer k t).pulse = s.pulse ∧ (s.setTimer k t).blk = s.blk ∧
    (s.setTimer k t).dma = s.dma ∧ (s.setTimer k t).dmaLast = s.dmaLast ∧ (s.setTimer k t).aud = s.aud ∧ (s.setTimer k t).sp = s.sp ∧
    (s.setTimer k t).kind = s.kind ∧ (s.setTimer k t).ports = s.ports ∧ (s.setTimer k t).tbAcc = s.tbAcc ∧ (s.setTimer k t).tbSteps = s.tbSteps ∧
    (s.setTimer k t).pinAcc = s.pinAcc ∧ (s.setTimer k t).adcTodo = s.adcTodo ∧
    (s.setTimer k t).adcHeld = s.adcHeld ∧ (s.setTimer k t).fires = s.fires ∧ (s.setTimer k t).extl = s.extl ∧ (s.setTimer k t).retain = s.retain ∧
    (s.setTimer k t).retDrive = s.retDrive ∧ (s.setTimer k t).keep = s.keep ∧ (s.setTimer k t).host = s.host ∧ (s.setTimer k t).kiln = s.kiln ∧
    (s.setTimer k t).fw = s.fw ∧
    (s.setTimer k t).led = s.led ∧ (s.setTimer k t).txts = s.txts ∧ (s.setTimer k t).wire = s.wire ∧ (s.setTimer k t).trial = s.trial ∧
    (s.setTimer k t).ember = s.ember ∧ (s.setTimer k t).jtag = s.jtag ∧ (s.setTimer k t).wdog = s.wdog ∧
    (s.setTimer k t).trc = s.trc ∧ (s.setTimer k t).trcLost = s.trcLost :=
  ⟨rfl, rfl, rfl, rfl, rfl, rfl, rfl, rfl, rfl, rfl, rfl, rfl, rfl, rfl, rfl, rfl, rfl, rfl, rfl, rfl, rfl, rfl, rfl, rfl, rfl, rfl, rfl, rfl, rfl, rfl, rfl, rfl, rfl, rfl, rfl, rfl, rfl, rfl, rfl, rfl, rfl, rfl, rfl, rfl, rfl, rfl, rfl⟩

@[simp] theorem setMsix_rest (s : State) (i : Nat) (m : Msix) :
    (s.setMsix i m).pending = s.pending ∧ (s.setMsix i m).free = s.free ∧ (s.setMsix i m).regs = s.regs ∧ (s.setMsix i m).mem = s.mem ∧
    (s.setMsix i m).blkReset = s.blkReset ∧ (s.setMsix i m).ecc = s.ecc ∧ (s.setMsix i m).wb = s.wb ∧ (s.setMsix i m).capture = s.capture ∧
    (s.setMsix i m).scrubPos = s.scrubPos ∧ (s.setMsix i m).arr = s.arr ∧ (s.setMsix i m).heads = s.heads ∧ (s.setMsix i m).vslot = s.vslot ∧
    (s.setMsix i m).pipeBands = s.pipeBands ∧ (s.setMsix i m).vidBase = s.vidBase ∧ (s.setMsix i m).vidHeld = s.vidHeld ∧ (s.setMsix i m).rd = s.rd ∧
    (s.setMsix i m).tb = s.tb ∧ (s.setMsix i m).pulse = s.pulse ∧ (s.setMsix i m).blk = s.blk ∧ (s.setMsix i m).dma = s.dma ∧
    (s.setMsix i m).dmaLast = s.dmaLast ∧ (s.setMsix i m).aud = s.aud ∧ (s.setMsix i m).sp = s.sp ∧ (s.setMsix i m).kind = s.kind ∧
    (s.setMsix i m).ports = s.ports ∧ (s.setMsix i m).tbAcc = s.tbAcc ∧ (s.setMsix i m).tbSteps = s.tbSteps ∧ (s.setMsix i m).pinAcc = s.pinAcc ∧
    (s.setMsix i m).tmr = s.tmr ∧ (s.setMsix i m).adcTodo = s.adcTodo ∧
    (s.setMsix i m).adcHeld = s.adcHeld ∧ (s.setMsix i m).fires = s.fires ∧ (s.setMsix i m).extl = s.extl ∧ (s.setMsix i m).retain = s.retain ∧
    (s.setMsix i m).retDrive = s.retDrive ∧ (s.setMsix i m).keep = s.keep ∧ (s.setMsix i m).kiln = s.kiln ∧ (s.setMsix i m).fw = s.fw ∧ (s.setMsix i m).led = s.led ∧
    (s.setMsix i m).txts = s.txts ∧ (s.setMsix i m).wire = s.wire ∧ (s.setMsix i m).trial = s.trial ∧ (s.setMsix i m).ember = s.ember ∧
    (s.setMsix i m).jtag = s.jtag ∧ (s.setMsix i m).wdog = s.wdog ∧
    (s.setMsix i m).trc = s.trc ∧ (s.setMsix i m).trcLost = s.trcLost :=
  ⟨rfl, rfl, rfl, rfl, rfl, rfl, rfl, rfl, rfl, rfl, rfl, rfl, rfl, rfl, rfl, rfl, rfl, rfl, rfl, rfl, rfl, rfl, rfl, rfl, rfl, rfl, rfl, rfl, rfl, rfl, rfl, rfl, rfl, rfl, rfl, rfl, rfl, rfl, rfl, rfl, rfl, rfl, rfl, rfl, rfl, rfl, rfl⟩

@[simp] theorem setPba_rest (s : State) (i : Nat) (b : Bool) :
    (s.setPba i b).pending = s.pending ∧ (s.setPba i b).free = s.free ∧ (s.setPba i b).regs = s.regs ∧ (s.setPba i b).mem = s.mem ∧
    (s.setPba i b).blkReset = s.blkReset ∧ (s.setPba i b).ecc = s.ecc ∧ (s.setPba i b).wb = s.wb ∧ (s.setPba i b).capture = s.capture ∧
    (s.setPba i b).scrubPos = s.scrubPos ∧ (s.setPba i b).arr = s.arr ∧ (s.setPba i b).heads = s.heads ∧ (s.setPba i b).vslot = s.vslot ∧
    (s.setPba i b).pipeBands = s.pipeBands ∧ (s.setPba i b).vidBase = s.vidBase ∧ (s.setPba i b).vidHeld = s.vidHeld ∧ (s.setPba i b).rd = s.rd ∧
    (s.setPba i b).tb = s.tb ∧ (s.setPba i b).pulse = s.pulse ∧ (s.setPba i b).blk = s.blk ∧ (s.setPba i b).dma = s.dma ∧
    (s.setPba i b).dmaLast = s.dmaLast ∧ (s.setPba i b).aud = s.aud ∧ (s.setPba i b).sp = s.sp ∧ (s.setPba i b).kind = s.kind ∧
    (s.setPba i b).ports = s.ports ∧ (s.setPba i b).tbAcc = s.tbAcc ∧ (s.setPba i b).tbSteps = s.tbSteps ∧ (s.setPba i b).pinAcc = s.pinAcc ∧
    (s.setPba i b).tmr = s.tmr ∧ (s.setPba i b).adcTodo = s.adcTodo ∧
    (s.setPba i b).adcHeld = s.adcHeld ∧ (s.setPba i b).fires = s.fires ∧ (s.setPba i b).extl = s.extl ∧ (s.setPba i b).retain = s.retain ∧
    (s.setPba i b).retDrive = s.retDrive ∧ (s.setPba i b).keep = s.keep ∧ (s.setPba i b).kiln = s.kiln ∧ (s.setPba i b).fw = s.fw ∧ (s.setPba i b).led = s.led ∧
    (s.setPba i b).txts = s.txts ∧ (s.setPba i b).wire = s.wire ∧ (s.setPba i b).trial = s.trial ∧ (s.setPba i b).ember = s.ember ∧
    (s.setPba i b).jtag = s.jtag ∧ (s.setPba i b).wdog = s.wdog ∧
    (s.setPba i b).trc = s.trc ∧ (s.setPba i b).trcLost = s.trcLost :=
  ⟨rfl, rfl, rfl, rfl, rfl, rfl, rfl, rfl, rfl, rfl, rfl, rfl, rfl, rfl, rfl, rfl, rfl, rfl, rfl, rfl, rfl, rfl, rfl, rfl, rfl, rfl, rfl, rfl, rfl, rfl, rfl, rfl, rfl, rfl, rfl, rfl, rfl, rfl, rfl, rfl, rfl, rfl, rfl, rfl, rfl, rfl, rfl⟩

@[simp] theorem setKiln_rest (s : State) (k : Kiln) :
    (s.setKiln k).pending = s.pending ∧ (s.setKiln k).free = s.free ∧ (s.setKiln k).regs = s.regs ∧ (s.setKiln k).mem = s.mem ∧
    (s.setKiln k).blkReset = s.blkReset ∧ (s.setKiln k).ecc = s.ecc ∧ (s.setKiln k).wb = s.wb ∧ (s.setKiln k).capture = s.capture ∧
    (s.setKiln k).scrubPos = s.scrubPos ∧ (s.setKiln k).arr = s.arr ∧ (s.setKiln k).heads = s.heads ∧ (s.setKiln k).vslot = s.vslot ∧
    (s.setKiln k).pipeBands = s.pipeBands ∧ (s.setKiln k).vidBase = s.vidBase ∧ (s.setKiln k).vidHeld = s.vidHeld ∧ (s.setKiln k).rd = s.rd ∧
    (s.setKiln k).tb = s.tb ∧ (s.setKiln k).pulse = s.pulse ∧ (s.setKiln k).blk = s.blk ∧ (s.setKiln k).dma = s.dma ∧
    (s.setKiln k).dmaLast = s.dmaLast ∧ (s.setKiln k).aud = s.aud ∧ (s.setKiln k).sp = s.sp ∧ (s.setKiln k).kind = s.kind ∧
    (s.setKiln k).ports = s.ports ∧ (s.setKiln k).tbAcc = s.tbAcc ∧ (s.setKiln k).tbSteps = s.tbSteps ∧ (s.setKiln k).pinAcc = s.pinAcc ∧ (s.setKiln k).tmr = s.tmr ∧
    (s.setKiln k).adcTodo = s.adcTodo ∧
    (s.setKiln k).adcHeld = s.adcHeld ∧ (s.setKiln k).fires = s.fires ∧ (s.setKiln k).extl = s.extl ∧ (s.setKiln k).retain = s.retain ∧
    (s.setKiln k).retDrive = s.retDrive ∧ (s.setKiln k).keep = s.keep ∧ (s.setKiln k).host = s.host ∧ (s.setKiln k).fw = s.fw ∧ (s.setKiln k).led = s.led ∧
    (s.setKiln k).txts = s.txts ∧ (s.setKiln k).wire = s.wire ∧ (s.setKiln k).trial = s.trial ∧ (s.setKiln k).ember = s.ember ∧
    (s.setKiln k).jtag = s.jtag ∧ (s.setKiln k).wdog = s.wdog ∧
    (s.setKiln k).trc = s.trc ∧ (s.setKiln k).trcLost = s.trcLost :=
  ⟨rfl, rfl, rfl, rfl, rfl, rfl, rfl, rfl, rfl, rfl, rfl, rfl, rfl, rfl, rfl, rfl, rfl, rfl, rfl, rfl, rfl, rfl, rfl, rfl, rfl, rfl, rfl, rfl, rfl, rfl, rfl, rfl, rfl, rfl, rfl, rfl, rfl, rfl, rfl, rfl, rfl, rfl, rfl, rfl, rfl, rfl, rfl⟩

@[simp] theorem setFw_rest (s : State) (f : Fw) :
    (s.setFw f).pending = s.pending ∧ (s.setFw f).free = s.free ∧ (s.setFw f).regs = s.regs ∧ (s.setFw f).mem = s.mem ∧
    (s.setFw f).blkReset = s.blkReset ∧ (s.setFw f).ecc = s.ecc ∧ (s.setFw f).wb = s.wb ∧ (s.setFw f).capture = s.capture ∧
    (s.setFw f).scrubPos = s.scrubPos ∧ (s.setFw f).arr = s.arr ∧ (s.setFw f).heads = s.heads ∧ (s.setFw f).vslot = s.vslot ∧
    (s.setFw f).pipeBands = s.pipeBands ∧ (s.setFw f).vidBase = s.vidBase ∧ (s.setFw f).vidHeld = s.vidHeld ∧ (s.setFw f).rd = s.rd ∧
    (s.setFw f).tb = s.tb ∧ (s.setFw f).pulse = s.pulse ∧ (s.setFw f).blk = s.blk ∧ (s.setFw f).dma = s.dma ∧ (s.setFw f).dmaLast = s.dmaLast ∧
    (s.setFw f).aud = s.aud ∧ (s.setFw f).sp = s.sp ∧ (s.setFw f).kind = s.kind ∧ (s.setFw f).ports = s.ports ∧ (s.setFw f).tbAcc = s.tbAcc ∧
    (s.setFw f).tbSteps = s.tbSteps ∧ (s.setFw f).pinAcc = s.pinAcc ∧
    (s.setFw f).tmr = s.tmr ∧ (s.setFw f).adcTodo = s.adcTodo ∧ (s.setFw f).adcHeld = s.adcHeld ∧ (s.setFw f).fires = s.fires ∧
    (s.setFw f).extl = s.extl ∧ (s.setFw f).retain = s.retain ∧ (s.setFw f).retDrive = s.retDrive ∧ (s.setFw f).keep = s.keep ∧ (s.setFw f).host = s.host ∧
    (s.setFw f).kiln = s.kiln ∧ (s.setFw f).led = s.led ∧ (s.setFw f).txts = s.txts ∧ (s.setFw f).wire = s.wire ∧ (s.setFw f).trial = s.trial ∧
    (s.setFw f).ember = s.ember ∧ (s.setFw f).jtag = s.jtag ∧ (s.setFw f).wdog = s.wdog ∧
    (s.setFw f).trc = s.trc ∧ (s.setFw f).trcLost = s.trcLost :=
  ⟨rfl, rfl, rfl, rfl, rfl, rfl, rfl, rfl, rfl, rfl, rfl, rfl, rfl, rfl, rfl, rfl, rfl, rfl, rfl, rfl, rfl, rfl, rfl, rfl, rfl, rfl, rfl, rfl, rfl, rfl, rfl, rfl, rfl, rfl, rfl, rfl, rfl, rfl, rfl, rfl, rfl, rfl, rfl, rfl, rfl, rfl, rfl⟩

@[simp] theorem writeCodes_rest (s : State) (a : Nat) (w : Word) :
    (s.writeCodes a w).pending = s.pending ∧ (s.writeCodes a w).free = s.free ∧ (s.writeCodes a w).mem = s.mem ∧
    (s.writeCodes a w).blkReset = s.blkReset ∧ (s.writeCodes a w).ecc = s.ecc ∧ (s.writeCodes a w).wb = s.wb ∧
    (s.writeCodes a w).capture = s.capture ∧ (s.writeCodes a w).scrubPos = s.scrubPos ∧ (s.writeCodes a w).arr = s.arr ∧
    (s.writeCodes a w).heads = s.heads ∧ (s.writeCodes a w).vslot = s.vslot ∧ (s.writeCodes a w).pipeBands = s.pipeBands ∧
    (s.writeCodes a w).vidBase = s.vidBase ∧ (s.writeCodes a w).vidHeld = s.vidHeld ∧ (s.writeCodes a w).rd = s.rd ∧ (s.writeCodes a w).tb = s.tb ∧
    (s.writeCodes a w).pulse = s.pulse ∧ (s.writeCodes a w).blk = s.blk ∧ (s.writeCodes a w).dma = s.dma ∧ (s.writeCodes a w).dmaLast = s.dmaLast ∧
    (s.writeCodes a w).aud = s.aud ∧ (s.writeCodes a w).sp = s.sp ∧ (s.writeCodes a w).kind = s.kind ∧ (s.writeCodes a w).ports = s.ports ∧
    (s.writeCodes a w).tbAcc = s.tbAcc ∧ (s.writeCodes a w).tbSteps = s.tbSteps ∧ (s.writeCodes a w).pinAcc = s.pinAcc ∧ (s.writeCodes a w).tmr = s.tmr ∧
    (s.writeCodes a w).adcTodo = s.adcTodo ∧
    (s.writeCodes a w).adcHeld = s.adcHeld ∧ (s.writeCodes a w).fires = s.fires ∧ (s.writeCodes a w).extl = s.extl ∧
    (s.writeCodes a w).retain = s.retain ∧ (s.writeCodes a w).retDrive = s.retDrive ∧ (s.writeCodes a w).keep = s.keep ∧ (s.writeCodes a w).host = s.host ∧
    (s.writeCodes a w).kiln = s.kiln ∧ (s.writeCodes a w).fw = s.fw ∧ (s.writeCodes a w).led = s.led ∧ (s.writeCodes a w).txts = s.txts ∧
    (s.writeCodes a w).wire = s.wire ∧ (s.writeCodes a w).trial = s.trial ∧ (s.writeCodes a w).ember = s.ember ∧ (s.writeCodes a w).jtag = s.jtag ∧
    (s.writeCodes a w).wdog = s.wdog ∧
    (s.writeCodes a w).trc = s.trc ∧ (s.writeCodes a w).trcLost = s.trcLost := by
  unfold State.writeCodes; split <;> simp

@[simp] theorem readClears_rest (s : State) (a : Nat) :
    (s.readClears a).pending = s.pending ∧ (s.readClears a).free = s.free ∧ (s.readClears a).mem = s.mem ∧ (s.readClears a).blkReset = s.blkReset ∧
    (s.readClears a).ecc = s.ecc ∧ (s.readClears a).wb = s.wb ∧ (s.readClears a).capture = s.capture ∧ (s.readClears a).scrubPos = s.scrubPos ∧
    (s.readClears a).arr = s.arr ∧ (s.readClears a).heads = s.heads ∧ (s.readClears a).vslot = s.vslot ∧ (s.readClears a).pipeBands = s.pipeBands ∧
    (s.readClears a).vidBase = s.vidBase ∧ (s.readClears a).vidHeld = s.vidHeld ∧ (s.readClears a).rd = s.rd ∧ (s.readClears a).tb = s.tb ∧
    (s.readClears a).pulse = s.pulse ∧ (s.readClears a).blk = s.blk ∧ (s.readClears a).dma = s.dma ∧ (s.readClears a).dmaLast = s.dmaLast ∧
    (s.readClears a).aud = s.aud ∧ (s.readClears a).sp = s.sp ∧ (s.readClears a).kind = s.kind ∧ (s.readClears a).ports = s.ports ∧
    (s.readClears a).tbAcc = s.tbAcc ∧ (s.readClears a).tbSteps = s.tbSteps ∧ (s.readClears a).pinAcc = s.pinAcc ∧ (s.readClears a).tmr = s.tmr ∧
    (s.readClears a).adcTodo = s.adcTodo ∧ (s.readClears a).adcHeld = s.adcHeld ∧
    (s.readClears a).fires = s.fires ∧ (s.readClears a).extl = s.extl ∧ (s.readClears a).retain = s.retain ∧ (s.readClears a).retDrive = s.retDrive ∧
    (s.readClears a).keep = s.keep ∧
    (s.readClears a).host = s.host ∧ (s.readClears a).kiln = s.kiln ∧ (s.readClears a).fw = s.fw ∧ (s.readClears a).led = s.led ∧
    (s.readClears a).txts = s.txts ∧ (s.readClears a).wire = s.wire ∧ (s.readClears a).trial = s.trial ∧ (s.readClears a).ember = s.ember ∧
    (s.readClears a).jtag = s.jtag ∧ (s.readClears a).wdog = s.wdog ∧
    (s.readClears a).trc = s.trc ∧ (s.readClears a).trcLost = s.trcLost := by
  unfold State.readClears; split <;> simp

@[simp] theorem setLed_rest (s : State) (l : Led) :
    (s.setLed l).pending = s.pending ∧ (s.setLed l).free = s.free ∧ (s.setLed l).regs = s.regs ∧ (s.setLed l).mem = s.mem ∧
    (s.setLed l).blkReset = s.blkReset ∧ (s.setLed l).ecc = s.ecc ∧ (s.setLed l).wb = s.wb ∧ (s.setLed l).capture = s.capture ∧
    (s.setLed l).scrubPos = s.scrubPos ∧ (s.setLed l).arr = s.arr ∧ (s.setLed l).heads = s.heads ∧ (s.setLed l).vslot = s.vslot ∧
    (s.setLed l).pipeBands = s.pipeBands ∧ (s.setLed l).vidBase = s.vidBase ∧ (s.setLed l).vidHeld = s.vidHeld ∧ (s.setLed l).rd = s.rd ∧
    (s.setLed l).tb = s.tb ∧ (s.setLed l).pulse = s.pulse ∧ (s.setLed l).blk = s.blk ∧ (s.setLed l).dma = s.dma ∧ (s.setLed l).dmaLast = s.dmaLast ∧
    (s.setLed l).aud = s.aud ∧ (s.setLed l).sp = s.sp ∧ (s.setLed l).kind = s.kind ∧ (s.setLed l).ports = s.ports ∧ (s.setLed l).tbAcc = s.tbAcc ∧
    (s.setLed l).tbSteps = s.tbSteps ∧ (s.setLed l).pinAcc = s.pinAcc ∧
    (s.setLed l).tmr = s.tmr ∧ (s.setLed l).adcTodo = s.adcTodo ∧ (s.setLed l).adcHeld = s.adcHeld ∧ (s.setLed l).fires = s.fires ∧
    (s.setLed l).extl = s.extl ∧ (s.setLed l).retain = s.retain ∧ (s.setLed l).retDrive = s.retDrive ∧ (s.setLed l).keep = s.keep ∧ (s.setLed l).host = s.host ∧
    (s.setLed l).kiln = s.kiln ∧ (s.setLed l).fw = s.fw ∧ (s.setLed l).txts = s.txts ∧ (s.setLed l).wire = s.wire ∧ (s.setLed l).trial = s.trial ∧
    (s.setLed l).ember = s.ember ∧ (s.setLed l).jtag = s.jtag ∧ (s.setLed l).wdog = s.wdog ∧
    (s.setLed l).trc = s.trc ∧ (s.setLed l).trcLost = s.trcLost :=
  ⟨rfl, rfl, rfl, rfl, rfl, rfl, rfl, rfl, rfl, rfl, rfl, rfl, rfl, rfl, rfl, rfl, rfl, rfl, rfl, rfl, rfl, rfl, rfl, rfl, rfl, rfl, rfl, rfl, rfl, rfl, rfl, rfl, rfl, rfl, rfl, rfl, rfl, rfl, rfl, rfl, rfl, rfl, rfl, rfl, rfl, rfl, rfl⟩

@[simp] theorem setEmber_rest (s : State) (e : Ember) :
    (s.setEmber e).pending = s.pending ∧ (s.setEmber e).free = s.free ∧ (s.setEmber e).regs = s.regs ∧ (s.setEmber e).mem = s.mem ∧
    (s.setEmber e).blkReset = s.blkReset ∧ (s.setEmber e).ecc = s.ecc ∧ (s.setEmber e).wb = s.wb ∧ (s.setEmber e).capture = s.capture ∧
    (s.setEmber e).scrubPos = s.scrubPos ∧ (s.setEmber e).arr = s.arr ∧ (s.setEmber e).heads = s.heads ∧ (s.setEmber e).vslot = s.vslot ∧
    (s.setEmber e).pipeBands = s.pipeBands ∧ (s.setEmber e).vidBase = s.vidBase ∧ (s.setEmber e).vidHeld = s.vidHeld ∧ (s.setEmber e).rd = s.rd ∧
    (s.setEmber e).tb = s.tb ∧ (s.setEmber e).pulse = s.pulse ∧ (s.setEmber e).blk = s.blk ∧ (s.setEmber e).dma = s.dma ∧
    (s.setEmber e).dmaLast = s.dmaLast ∧ (s.setEmber e).aud = s.aud ∧ (s.setEmber e).sp = s.sp ∧ (s.setEmber e).kind = s.kind ∧
    (s.setEmber e).ports = s.ports ∧ (s.setEmber e).tbAcc = s.tbAcc ∧ (s.setEmber e).tbSteps = s.tbSteps ∧ (s.setEmber e).pinAcc = s.pinAcc ∧
    (s.setEmber e).tmr = s.tmr ∧ (s.setEmber e).adcTodo = s.adcTodo ∧
    (s.setEmber e).adcHeld = s.adcHeld ∧ (s.setEmber e).fires = s.fires ∧ (s.setEmber e).extl = s.extl ∧ (s.setEmber e).retain = s.retain ∧
    (s.setEmber e).retDrive = s.retDrive ∧ (s.setEmber e).keep = s.keep ∧ (s.setEmber e).host = s.host ∧ (s.setEmber e).kiln = s.kiln ∧ (s.setEmber e).fw = s.fw ∧
    (s.setEmber e).led = s.led ∧ (s.setEmber e).txts = s.txts ∧ (s.setEmber e).wire = s.wire ∧ (s.setEmber e).trial = s.trial ∧
    (s.setEmber e).jtag = s.jtag ∧ (s.setEmber e).wdog = s.wdog ∧
    (s.setEmber e).trc = s.trc ∧ (s.setEmber e).trcLost = s.trcLost :=
  ⟨rfl, rfl, rfl, rfl, rfl, rfl, rfl, rfl, rfl, rfl, rfl, rfl, rfl, rfl, rfl, rfl, rfl, rfl, rfl, rfl, rfl, rfl, rfl, rfl, rfl, rfl, rfl, rfl, rfl, rfl, rfl, rfl, rfl, rfl, rfl, rfl, rfl, rfl, rfl, rfl, rfl, rfl, rfl, rfl, rfl, rfl, rfl⟩

@[simp] theorem setPending_rest (s : State) (q : List Instr) :
    (s.setPending q).free = s.free ∧ (s.setPending q).regs = s.regs ∧ (s.setPending q).mem = s.mem ∧ (s.setPending q).blkReset = s.blkReset ∧
    (s.setPending q).ecc = s.ecc ∧ (s.setPending q).wb = s.wb ∧ (s.setPending q).capture = s.capture ∧ (s.setPending q).scrubPos = s.scrubPos ∧
    (s.setPending q).arr = s.arr ∧ (s.setPending q).heads = s.heads ∧ (s.setPending q).vslot = s.vslot ∧ (s.setPending q).pipeBands = s.pipeBands ∧
    (s.setPending q).vidBase = s.vidBase ∧ (s.setPending q).vidHeld = s.vidHeld ∧ (s.setPending q).rd = s.rd ∧ (s.setPending q).tb = s.tb ∧
    (s.setPending q).pulse = s.pulse ∧ (s.setPending q).blk = s.blk ∧ (s.setPending q).dma = s.dma ∧ (s.setPending q).dmaLast = s.dmaLast ∧
    (s.setPending q).aud = s.aud ∧ (s.setPending q).sp = s.sp ∧ (s.setPending q).kind = s.kind ∧ (s.setPending q).ports = s.ports ∧
    (s.setPending q).tbAcc = s.tbAcc ∧ (s.setPending q).tbSteps = s.tbSteps ∧ (s.setPending q).pinAcc = s.pinAcc ∧ (s.setPending q).tmr = s.tmr ∧
    (s.setPending q).adcTodo = s.adcTodo ∧ (s.setPending q).adcHeld = s.adcHeld ∧
    (s.setPending q).fires = s.fires ∧ (s.setPending q).extl = s.extl ∧ (s.setPending q).retain = s.retain ∧ (s.setPending q).retDrive = s.retDrive ∧
    (s.setPending q).keep = s.keep ∧
    (s.setPending q).host = s.host ∧ (s.setPending q).kiln = s.kiln ∧ (s.setPending q).fw = s.fw ∧ (s.setPending q).led = s.led ∧
    (s.setPending q).txts = s.txts ∧ (s.setPending q).wire = s.wire ∧ (s.setPending q).trial = s.trial ∧ (s.setPending q).ember = s.ember ∧
    (s.setPending q).jtag = s.jtag ∧ (s.setPending q).wdog = s.wdog ∧
    (s.setPending q).trc = s.trc ∧ (s.setPending q).trcLost = s.trcLost :=
  ⟨rfl, rfl, rfl, rfl, rfl, rfl, rfl, rfl, rfl, rfl, rfl, rfl, rfl, rfl, rfl, rfl, rfl, rfl, rfl, rfl, rfl, rfl, rfl, rfl, rfl, rfl, rfl, rfl, rfl, rfl, rfl, rfl, rfl, rfl, rfl, rfl, rfl, rfl, rfl, rfl, rfl, rfl, rfl, rfl, rfl, rfl, rfl⟩

/-! ## Registers and their fields -/

@[simp] theorem reg_setReg_self (s : State) (a : Nat) (w : Word) : (s.setReg a w).reg a = w := smGet_smSet_self _ _ _

theorem reg_setReg_ne (s : State) {a b : Nat} (w : Word) (h : b ≠ a) : (s.setReg a w).reg b = s.reg b := smGet_smSet_ne _ _ h

theorem reg_setReg (s : State) (a b : Nat) (w : Word) : (s.setReg a w).reg b = if b = a then w else s.reg b := smGet_smSet _ _ _ _

theorem reg_setFld_ne (s : State) {a b : Nat} (f : Fld) (v : Nat) (h : b ≠ a) : (s.setFld a f v).reg b = s.reg b := reg_setReg_ne s _ h

theorem reg_setBit_ne (s : State) {a b : Nat} (f : Fld) (v : Bool) (h : b ≠ a) : (s.setBit a f v).reg b = s.reg b := reg_setReg_ne s _ h

theorem reg_countBy_ne (s : State) {a b : Nat} (f : Fld) (k : Nat) (h : b ≠ a) : (s.countBy a f k).reg b = s.reg b := reg_setReg_ne s _ h

theorem reg_setFld_self (s : State) (a : Nat) (f : Fld) (v : Nat) : (s.setFld a f v).reg a = setF (s.reg a) f v := reg_setReg_self s _ _

/-- A field read after a write of it. -/
theorem fld_setFld_self (s : State) (a : Nat) (f : Fld) (v : Nat) (h : f.hi < 32) (hl : f.lo ≤ f.hi) :
    (s.setFld a f v).fld a f = v % 2 ^ (f.hi + 1 - f.lo) := by
  unfold State.fld; rw [reg_setFld_self]; exact getF_setF _ _ _ h hl

/-- A field of another register after a write. -/
theorem fld_setFld_ne (s : State) {a b : Nat} (f g : Fld) (v : Nat) (h : b ≠ a) : (s.setFld a f v).fld b g = s.fld b g := by
  unfold State.fld; rw [reg_setFld_ne s f v h]

/-- A field apart from the one written. -/
theorem fld_setFld_apart (s : State) (a b : Nat) (f g : Fld) (v : Nat) (h : f.hi < 32) (hl : f.lo ≤ f.hi) (hg : g.hi < f.lo ∨ f.hi < g.lo) :
    (s.setFld a f v).fld b g = s.fld b g := by
  by_cases e : b = a
  · subst e; unfold State.fld; rw [reg_setFld_self]; exact getF_setF_apart _ _ _ _ h hl hg
  · exact fld_setFld_ne s f g v e

/-- A bit read after a write of it. -/
theorem bit_setBit_self (s : State) (a n : Nat) (b : Bool) (h : n < 32) : (s.setBit a ⟨n, n⟩ b).bit a ⟨n, n⟩ = b := by
  unfold State.bit State.setBit
  rw [fld_setFld_self s a _ _ h (Nat.le_refl _)]
  have e : (⟨n, n⟩ : Fld).hi + 1 - (⟨n, n⟩ : Fld).lo = 1 := by show n + 1 - n = 1; omega
  rw [e]; cases b <;> rfl

theorem fld_setBit_apart (s : State) (a b : Nat) (f g : Fld) (v : Bool) (h : f.hi < 32) (hl : f.lo ≤ f.hi) (hg : g.hi < f.lo ∨ f.hi < g.lo) :
    (s.setBit a f v).fld b g = s.fld b g := fld_setFld_apart s a b f g _ h hl hg

theorem fld_setBit_ne (s : State) {a b : Nat} (f g : Fld) (v : Bool) (h : b ≠ a) : (s.setBit a f v).fld b g = s.fld b g := fld_setFld_ne s f g _ h

theorem bit_setBit_apart (s : State) (a b : Nat) (f g : Fld) (v : Bool) (h : f.hi < 32) (hl : f.lo ≤ f.hi) (hg : g.hi < f.lo ∨ f.hi < g.lo) :
    (s.setBit a f v).bit b g = s.bit b g := by unfold State.bit; rw [fld_setBit_apart s a b f g v h hl hg]

theorem bit_setBit_ne (s : State) {a b : Nat} (f g : Fld) (v : Bool) (h : b ≠ a) : (s.setBit a f v).bit b g = s.bit b g := by
  unfold State.bit; rw [fld_setBit_ne s f g v h]

/-- What reads registers only sees nothing of the other fields. -/
theorem reg_congr {s t : State} (h : s.regs = t.regs) (a : Nat) : s.reg a = t.reg a := by unfold State.reg; rw [h]

theorem fld_congr {s t : State} (h : s.regs = t.regs) (a : Nat) (f : Fld) : s.fld a f = t.fld a f := by unfold State.fld; rw [reg_congr h]

theorem bit_congr {s t : State} (h : s.regs = t.regs) (a : Nat) (f : Fld) : s.bit a f = t.bit a f := by unfold State.bit; rw [fld_congr h]

/-- A bit set is the register map with one register replaced. -/
theorem setBit_eq (s : State) (a : Nat) (f : Fld) (b : Bool) :
    s.setBit a f b = { s with regs := smSet regReset s.regs a (setF (s.reg a) f (cond b 1 0)) } := rfl

/-- Registers of a predicate return to reset, and the others stay. -/
theorem reg_resetRegs (s : State) (p : Nat → Bool) (a : Nat) : (s.resetRegs p).reg a = if p a then regReset a else s.reg a := by
  unfold State.resetRegs State.reg
  dsimp only
  induction s.regs with
  | nil => simp [smGet]
  | cons e m ih =>
    by_cases h : p e.1 = true
    · simp only [List.filter_cons, h, Bool.not_true, Bool.false_eq_true, if_false, ih, smGet]
      by_cases e' : e.1 = a
      · subst e'; simp [h]
      · simp [e']
    · simp only [List.filter_cons, h, Bool.not_false, if_true, smGet, ih]
      by_cases e' : e.1 = a
      · subst e'; simp [h]
      · simp [e']

/-! ## Maps of hidden state: a read after a write, and two writes of one key -/

@[simp] theorem head_setHead_self (s : State) (n : Nat) (x : HeadSt) : (s.setHead n x).head n = x := smGet_smSet_self _ _ _

theorem head_setHead_ne (s : State) {n j : Nat} (x : HeadSt) (h : j ≠ n) : (s.setHead n x).head j = s.head j := smGet_smSet_ne _ _ h

@[simp] theorem setHead_setHead (s : State) (n : Nat) (x y : HeadSt) : (s.setHead n x).setHead n y = s.setHead n y := by unfold State.setHead; simp only [smSet_smSet]

@[simp] theorem dmaCh_setDma_self (s : State) (k : Nat) (x : DmaCh) : (s.setDma k x).dmaCh k = x := smGet_smSet_self _ _ _

theorem dmaCh_setDma_ne (s : State) {k j : Nat} (x : DmaCh) (h : j ≠ k) : (s.setDma k x).dmaCh j = s.dmaCh j := smGet_smSet_ne _ _ h

@[simp] theorem setDma_setDma (s : State) (k : Nat) (x y : DmaCh) : (s.setDma k x).setDma k y = s.setDma k y := by unfold State.setDma; simp only [smSet_smSet]

@[simp] theorem port_setPort_self (s : State) (k : Nat) (x : SpSt) : (s.setPort k x).port k = x := smGet_smSet_self _ _ _

theorem port_setPort_ne (s : State) {k j : Nat} (x : SpSt) (h : j ≠ k) : (s.setPort k x).port j = s.port j := smGet_smSet_ne _ _ h

@[simp] theorem setPort_setPort (s : State) (k : Nat) (x y : SpSt) : (s.setPort k x).setPort k y = s.setPort k y := by unfold State.setPort; simp only [smSet_smSet]

@[simp] theorem thr_setThr_self (s : State) (t : Nat) (x : Thr) : (s.setThr t x).thr t = x := smGet_smSet_self _ _ _

theorem thr_setThr_ne (s : State) {t j : Nat} (x : Thr) (h : j ≠ t) : (s.setThr t x).thr j = s.thr j := smGet_smSet_ne _ _ h

@[simp] theorem setThr_setThr (s : State) (t : Nat) (x y : Thr) : (s.setThr t x).setThr t y = s.setThr t y := by unfold State.setThr; simp only [smSet_smSet]

@[simp] theorem chEnd_setEnd_self (s : State) (e : Nat) (x : ChEnd) : (s.setEnd e x).chEnd e = x := smGet_smSet_self _ _ _

theorem chEnd_setEnd_ne (s : State) {e j : Nat} (x : ChEnd) (h : j ≠ e) : (s.setEnd e x).chEnd j = s.chEnd j := smGet_smSet_ne _ _ h

@[simp] theorem setEnd_setEnd (s : State) (e : Nat) (x y : ChEnd) : (s.setEnd e x).setEnd e y = s.setEnd e y := by unfold State.setEnd; simp only [smSet_smSet]

@[simp] theorem kEnd_setKEnd_self (s : State) (k : Nat) (x : KEnd) : (s.setKEnd k x).kEnd k = x := smGet_smSet_self _ _ _

theorem kEnd_setKEnd_ne (s : State) {k j : Nat} (x : KEnd) (h : j ≠ k) : (s.setKEnd k x).kEnd j = s.kEnd j := smGet_smSet_ne _ _ h

@[simp] theorem setKEnd_setKEnd (s : State) (k : Nat) (x y : KEnd) : (s.setKEnd k x).setKEnd k y = s.setKEnd k y := by unfold State.setKEnd; simp only [smSet_smSet]

@[simp] theorem inbound_setInbound_self (s : State) (d : Nat) (x : Inbound) : (s.setInbound d x).inbound d = x := smGet_smSet_self _ _ _

theorem inbound_setInbound_ne (s : State) {d j : Nat} (x : Inbound) (h : j ≠ d) : (s.setInbound d x).inbound j = s.inbound j := smGet_smSet_ne _ _ h

@[simp] theorem setInbound_setInbound (s : State) (d : Nat) (x y : Inbound) : (s.setInbound d x).setInbound d y = s.setInbound d y := by unfold State.setInbound; simp only [smSet_smSet]

@[simp] theorem lock_setLock_self (s : State) (l : Nat) (x : Lock) : (s.setLock l x).lock l = x := smGet_smSet_self _ _ _

theorem lock_setLock_ne (s : State) {l j : Nat} (x : Lock) (h : j ≠ l) : (s.setLock l x).lock j = s.lock j := smGet_smSet_ne _ _ h

@[simp] theorem setLock_setLock (s : State) (l : Nat) (x y : Lock) : (s.setLock l x).setLock l y = s.setLock l y := by unfold State.setLock; simp only [smSet_smSet]

@[simp] theorem kport_setKport_self (s : State) (n : Nat) (x : Port) : (s.setKport n x).kport n = x := smGet_smSet_self _ _ _

theorem kport_setKport_ne (s : State) {n j : Nat} (x : Port) (h : j ≠ n) : (s.setKport n x).kport j = s.kport j := smGet_smSet_ne _ _ h

@[simp] theorem setKport_setKport (s : State) (n : Nat) (x y : Port) : (s.setKport n x).setKport n y = s.setKport n y := by unfold State.setKport; simp only [smSet_smSet]

@[simp] theorem timer_setTimer_self (s : State) (k : Nat) (x : Tmr) : (s.setTimer k x).timer k = x := smGet_smSet_self _ _ _

theorem timer_setTimer_ne (s : State) {k j : Nat} (x : Tmr) (h : j ≠ k) : (s.setTimer k x).timer j = s.timer j := smGet_smSet_ne _ _ h

@[simp] theorem setTimer_setTimer (s : State) (k : Nat) (x y : Tmr) : (s.setTimer k x).setTimer k y = s.setTimer k y := by unfold State.setTimer; simp only [smSet_smSet]

@[simp] theorem msix_setMsix_self (s : State) (i : Nat) (x : Msix) : (s.setMsix i x).msix i = x := smGet_smSet_self _ _ _

theorem msix_setMsix_ne (s : State) {i j : Nat} (x : Msix) (h : j ≠ i) : (s.setMsix i x).msix j = s.msix j := smGet_smSet_ne _ _ h

@[simp] theorem setMsix_setMsix (s : State) (i : Nat) (x y : Msix) : (s.setMsix i x).setMsix i y = s.setMsix i y := by unfold State.setMsix; simp only [smSet_smSet]

@[simp] theorem pba_setPba_self (s : State) (i : Nat) (x : Bool) : (s.setPba i x).pba i = x := smGet_smSet_self _ _ _

theorem pba_setPba_ne (s : State) {i j : Nat} (x : Bool) (h : j ≠ i) : (s.setPba i x).pba j = s.pba j := smGet_smSet_ne _ _ h

@[simp] theorem setPba_setPba (s : State) (i : Nat) (x y : Bool) : (s.setPba i x).setPba i y = s.setPba i y := by unfold State.setPba; simp only [smSet_smSet]

@[simp] theorem eccAt_setEcc_self (s : State) (a : Nat) (x : Nat) : (s.setEcc a x).eccAt a = x := smGet_smSet_self _ _ _

theorem eccAt_setEcc_ne (s : State) {a j : Nat} (x : Nat) (h : j ≠ a) : (s.setEcc a x).eccAt j = s.eccAt j := smGet_smSet_ne _ _ h

@[simp] theorem setEcc_setEcc (s : State) (a : Nat) (x y : Nat) : (s.setEcc a x).setEcc a y = s.setEcc a y := by unfold State.setEcc; simp only [smSet_smSet]

@[simp] theorem arrAt_setArr_self (s : State) (k : Nat) (x : Nat) : (s.setArr k x).arrAt k = x := smGet_smSet_self _ _ _

theorem arrAt_setArr_ne (s : State) {k j : Nat} (x : Nat) (h : j ≠ k) : (s.setArr k x).arrAt j = s.arrAt j := smGet_smSet_ne _ _ h

@[simp] theorem setArr_setArr (s : State) (k : Nat) (x y : Nat) : (s.setArr k x).setArr k y = s.setArr k y := by unfold State.setArr; simp only [smSet_smSet]

@[simp] theorem setReg_setReg (s : State) (a : Nat) (v w : Word) : (s.setReg a v).setReg a w = s.setReg a w := by unfold State.setReg; simp only [smSet_smSet]

/-! ## The queue and the wires -/

@[simp] theorem keepQueue_pending (s t : State) : (keepQueue s t).pending = s.pending := rfl

@[simp] theorem keepQueue_self (s : State) : keepQueue s s = s := rfl

theorem keepQueue_eq (s t : State) (h : t.pending = s.pending) : keepQueue s t = t := by unfold keepQueue; rw [← h]

/-- Settling the wires changes registers only. -/
theorem settle_eq (s : State) : settle s = { s with regs := (settle s).regs } := by
  unfold settle
  simp only [setBit_eq]

@[simp] theorem keepQueue_rest (s t : State) :
    (keepQueue s t).free = t.free ∧ (keepQueue s t).regs = t.regs ∧ (keepQueue s t).mem = t.mem ∧ (keepQueue s t).blkReset = t.blkReset ∧
    (keepQueue s t).ecc = t.ecc ∧ (keepQueue s t).wb = t.wb ∧ (keepQueue s t).capture = t.capture ∧ (keepQueue s t).scrubPos = t.scrubPos ∧
    (keepQueue s t).arr = t.arr ∧ (keepQueue s t).heads = t.heads ∧ (keepQueue s t).vslot = t.vslot ∧ (keepQueue s t).pipeBands = t.pipeBands ∧
    (keepQueue s t).vidBase = t.vidBase ∧ (keepQueue s t).vidHeld = t.vidHeld ∧ (keepQueue s t).rd = t.rd ∧ (keepQueue s t).tb = t.tb ∧
    (keepQueue s t).pulse = t.pulse ∧ (keepQueue s t).blk = t.blk ∧ (keepQueue s t).dma = t.dma ∧ (keepQueue s t).dmaLast = t.dmaLast ∧
    (keepQueue s t).aud = t.aud ∧ (keepQueue s t).sp = t.sp ∧ (keepQueue s t).kind = t.kind ∧ (keepQueue s t).ports = t.ports ∧
    (keepQueue s t).tbAcc = t.tbAcc ∧ (keepQueue s t).tbSteps = t.tbSteps ∧ (keepQueue s t).pinAcc = t.pinAcc ∧ (keepQueue s t).tmr = t.tmr ∧
    (keepQueue s t).adcTodo = t.adcTodo ∧ (keepQueue s t).adcHeld = t.adcHeld ∧
    (keepQueue s t).fires = t.fires ∧ (keepQueue s t).extl = t.extl ∧ (keepQueue s t).retain = t.retain ∧ (keepQueue s t).retDrive = t.retDrive ∧
    (keepQueue s t).keep = t.keep ∧
    (keepQueue s t).host = t.host ∧ (keepQueue s t).kiln = t.kiln ∧ (keepQueue s t).fw = t.fw ∧ (keepQueue s t).led = t.led ∧
    (keepQueue s t).txts = t.txts ∧ (keepQueue s t).wire = t.wire ∧ (keepQueue s t).trial = t.trial ∧ (keepQueue s t).ember = t.ember ∧
    (keepQueue s t).jtag = t.jtag ∧ (keepQueue s t).wdog = t.wdog ∧
    (keepQueue s t).trc = t.trc ∧ (keepQueue s t).trcLost = t.trcLost := 
  ⟨rfl, rfl, rfl, rfl, rfl, rfl, rfl, rfl, rfl, rfl, rfl, rfl, rfl, rfl, rfl, rfl, rfl, rfl, rfl, rfl, rfl, rfl, rfl, rfl, rfl, rfl, rfl, rfl, rfl, rfl, rfl, rfl, rfl, rfl, rfl, rfl, rfl, rfl, rfl, rfl, rfl, rfl, rfl, rfl, rfl, rfl, rfl⟩

@[simp] theorem settle_rest (s : State) :
    (settle s).pending = s.pending ∧ (settle s).free = s.free ∧ (settle s).mem = s.mem ∧ (settle s).blkReset = s.blkReset ∧ (settle s).ecc = s.ecc ∧
    (settle s).wb = s.wb ∧ (settle s).capture = s.capture ∧ (settle s).scrubPos = s.scrubPos ∧ (settle s).arr = s.arr ∧ (settle s).heads = s.heads ∧
    (settle s).vslot = s.vslot ∧ (settle s).pipeBands = s.pipeBands ∧ (settle s).vidBase = s.vidBase ∧ (settle s).vidHeld = s.vidHeld ∧
    (settle s).rd = s.rd ∧ (settle s).tb = s.tb ∧ (settle s).pulse = s.pulse ∧ (settle s).blk = s.blk ∧ (settle s).dma = s.dma ∧
    (settle s).dmaLast = s.dmaLast ∧ (settle s).aud = s.aud ∧ (settle s).sp = s.sp ∧ (settle s).kind = s.kind ∧ (settle s).ports = s.ports ∧
    (settle s).tbAcc = s.tbAcc ∧ (settle s).tbSteps = s.tbSteps ∧ (settle s).pinAcc = s.pinAcc ∧ (settle s).tmr = s.tmr ∧ (settle s).adcTodo = s.adcTodo ∧
    (settle s).adcHeld = s.adcHeld ∧
    (settle s).fires = s.fires ∧ (settle s).extl = s.extl ∧ (settle s).retain = s.retain ∧ (settle s).retDrive = s.retDrive ∧ (settle s).keep = s.keep ∧
    (settle s).host = s.host ∧ (settle s).kiln = s.kiln ∧ (settle s).fw = s.fw ∧ (settle s).led = s.led ∧ (settle s).txts = s.txts ∧
    (settle s).wire = s.wire ∧ (settle s).trial = s.trial ∧ (settle s).ember = s.ember ∧ (settle s).jtag = s.jtag ∧ (settle s).wdog = s.wdog ∧
    (settle s).trc = s.trc ∧ (settle s).trcLost = s.trcLost := by
  rw [settle_eq s]; simp only [and_self]

@[simp] theorem reg_keepQueue (s t : State) (a : Nat) : (keepQueue s t).reg a = t.reg a := rfl

@[simp] theorem fld_keepQueue (s t : State) (a : Nat) (f : Fld) : (keepQueue s t).fld a f = t.fld a f := rfl

@[simp] theorem bit_keepQueue (s t : State) (a : Nat) (f : Fld) : (keepQueue s t).bit a f = t.bit a f := rfl

@[simp] theorem byte_keepQueue (s t : State) (a : Nat) : (keepQueue s t).byte a = t.byte a := rfl

@[simp] theorem byte_settle (s : State) (a : Nat) : (settle s).byte a = s.byte a := by unfold State.byte; simp only [settle_rest]

/-- Settling the wires changes two registers. -/
theorem settle_reg (s : State) {a : Nat} (h : a ≠ PIN_SAFE) (h' : a ≠ SYS_ALERT) : (settle s).reg a = s.reg a := by
  unfold settle
  simp only []
  rw [reg_setBit_ne _ _ _ h', reg_setBit_ne _ _ _ h', reg_setBit_ne _ _ _ h', reg_setBit_ne _ _ _ h]

theorem settle_fld (s : State) {a : Nat} (f : Fld) (h : a ≠ PIN_SAFE) (h' : a ≠ SYS_ALERT) : (settle s).fld a f = s.fld a f := by
  unfold State.fld; rw [settle_reg s h h']

theorem settle_bit (s : State) {a : Nat} (f : Fld) (h : a ≠ PIN_SAFE) (h' : a ≠ SYS_ALERT) : (settle s).bit a f = s.bit a f := by
  unfold State.bit; rw [settle_fld s f h h']

/-- The fields of PIN_SAFE other than safe_n stay. -/
theorem settle_fld_safe (s : State) (f : Fld) (h : f.hi < PIN_SAFE_safe_n.lo ∨ PIN_SAFE_safe_n.hi < f.lo) :
    (settle s).fld PIN_SAFE f = s.fld PIN_SAFE f := by
  unfold settle
  simp only []
  rw [fld_setBit_ne _ _ _ _ (by decide), fld_setBit_ne _ _ _ _ (by decide), fld_setBit_ne _ _ _ _ (by decide), fld_setBit_apart _ _ _ _ _ _ (by decide) (by decide) h]

/-- The fields of SYS_ALERT that firmware and the boot set stay. -/
theorem settle_fld_alert (s : State) (f : Fld) (h1 : f.hi < SYS_ALERT_wdog.lo ∨ SYS_ALERT_wdog.hi < f.lo)
    (h2 : f.hi < SYS_ALERT_lockup.lo ∨ SYS_ALERT_lockup.hi < f.lo) (h3 : f.hi < SYS_ALERT_level.lo ∨ SYS_ALERT_level.hi < f.lo) :
    (settle s).fld SYS_ALERT f = s.fld SYS_ALERT f := by
  unfold settle
  simp only []
  rw [fld_setBit_apart _ _ _ _ _ _ (by decide) (by decide) h3, fld_setBit_apart _ _ _ _ _ _ (by decide) (by decide) h2,
    fld_setBit_apart _ _ _ _ _ _ (by decide) (by decide) h1, fld_setBit_ne _ _ _ _ (by decide)]

/-- A claim of what a command does, from what its meaning is and what that comes to. -/
theorem does_of {c : Instr} {s u t : State} (h : exec c s = .next (settle (keepQueue s u))) (e : u = t) : Does c s t := by
  unfold Does; rw [h, e]

/-- A claim of what holds after a command. -/
theorem completes_of {c : Instr} {s u : State} {P : State → Prop} (h : exec c s = .next (settle (keepQueue s u)))
    (p : P (settle (keepQueue s u))) : Completes c s P := ⟨_, h, p⟩

/-- A command whose effect is known completes. -/
theorem Does.completes {c : Instr} {s t : State} {P : State → Prop} (h : Does c s t) (p : P (settle (keepQueue s t))) : Completes c s P := ⟨_, h, p⟩

/-- Every command answers a next state, whose wires are settled and whose queue is the one before. -/
theorem exec_settled (c : Instr) (s : State) : ∃ t, exec c s = .next (settle (keepQueue s t)) := by
  cases c <;> exact ⟨_, rfl⟩

end Sys2Proof.Machine
end

