-- ==== Sys2Proof/Laws/Memory.lean ====
section
/-! SUPPORT. Memory: a byte read after a write, what a read or a write through the fabric touches, and the canonical form that every memory operation keeps. -/

namespace Sys2Proof.Machine

/-! ## Bytes -/

@[simp] theorem byte_setByte_self (s : State) (a : Nat) (b : Byte) : (s.setByte a b).byte a = b := smGet_smSet_self _ _ _

theorem byte_setByte_ne (s : State) {a c : Nat} (b : Byte) (h : c ≠ a) : (s.setByte a b).byte c = s.byte c := smGet_smSet_ne _ _ h

theorem byte_congr {s t : State} (h : s.mem = t.mem) (a : Nat) : s.byte a = t.byte a := by unfold State.byte; rw [h]

/-- A byte outside the bytes stored is as it was. -/
theorem byte_setBytes_outside (s : State) (bs : List Byte) : ∀ a c : Nat, (c < a ∨ a + bs.length ≤ c) → (s.setBytes a bs).byte c = s.byte c := by
  induction bs generalizing s with
  | nil => intros; rfl
  | cons b bs ih =>
    intro a c h
    simp only [List.length_cons] at h
    unfold State.setBytes
    rw [ih (s.setByte a b) (a + 1) c (by omega), byte_setByte_ne _ _ (by omega)]

/-- A byte within the bytes stored is the one stored there. -/
theorem byte_setBytes_inside (s : State) (bs : List Byte) : ∀ (a i : Nat) (h : i < bs.length), (s.setBytes a bs).byte (a + i) = bs[i] := by
  induction bs generalizing s with
  | nil => intro a i h; simp at h
  | cons b bs ih =>
    intro a i h
    unfold State.setBytes
    cases i with
    | zero => rw [byte_setBytes_outside _ _ _ _ (by omega)]; simp
    | succ i =>
      have e : a + (i + 1) = a + 1 + i := by omega
      rw [e, ih (s.setByte a b) (a + 1) i (by simpa using h)]
      simp

theorem setBytes_eq (s : State) (a : Nat) (bs : List Byte) : s.setBytes a bs = { s with mem := (s.setBytes a bs).mem } := by
  induction bs generalizing s a with
  | nil => rfl
  | cons b bs ih => unfold State.setBytes; exact ih (s.setByte a b) (a + 1)

theorem bytes_length (s : State) (a n : Nat) : (s.bytes a n).length = n := by
  induction n generalizing a with
  | zero => rfl
  | succ n ih => simp [State.bytes, ih]

/-- Bytes read back after a store of as many. -/
theorem bytes_setBytes (s : State) (bs : List Byte) : ∀ a : Nat, (s.setBytes a bs).bytes a bs.length = bs := by
  induction bs generalizing s with
  | nil => intro a; rfl
  | cons b bs ih =>
    intro a
    simp only [List.length_cons, State.bytes, State.setBytes, List.cons.injEq]
    refine ⟨?_, ih _ _⟩
    rw [byte_setBytes_outside _ _ _ _ (by omega)]; simp

/-! ## The canonical form -/

theorem setByte_memWf {s : State} (a : Nat) (b : Byte) (h : s.memWf = true) : (s.setByte a b).memWf = true := smSet_wf a b h

theorem setBytes_memWf {s : State} (a : Nat) (bs : List Byte) (h : s.memWf = true) : (s.setBytes a bs).memWf = true := by
  induction bs generalizing s a with
  | nil => exact h
  | cons b bs ih => exact ih (a + 1) (setByte_memWf a b h)

theorem memWf_congr {s t : State} (h : s.mem = t.mem) : s.memWf = t.memWf := by unfold State.memWf; rw [h]

theorem reset_memWf : State.reset.memWf = true := rfl

/-! ## What leaves memory alone -/

theorem foldl_keep {α β γ : Type} (g : β → γ) (f : β → α → β) (h : ∀ b a, g (f b a) = g b) (l : List α) (b : β) : g (l.foldl f b) = g b := by
  induction l generalizing b with
  | nil => rfl
  | cons a l ih => rw [List.foldl_cons, ih, h]

@[simp] theorem fabErr_mem (s : State) (p b c a : Nat) : (fabErr s p b c a).mem = s.mem := by
  unfold fabErr; dsimp only; split <;> simp

@[simp] theorem capturePoison_mem (s : State) (p k o d : Nat) : (capturePoison s p k o d).mem = s.mem := by
  unfold capturePoison; split <;> simp

@[simp] theorem csramPoison_mem (s : State) (h : Nat) : (csramPoison s h).mem = s.mem := by simp [csramPoison]

@[simp] theorem memTouch_mem (s : State) : (memTouch s).mem = s.mem := by simp [memTouch]

@[simp] theorem addWb_mem (s : State) (a : Nat) (d : List Byte) : (s.addWb a d).mem = s.mem := by unfold State.addWb; rfl

@[simp] theorem qdrWordRead_mem (s : State) (k off : Nat) (seen : List Nat) : (qdrWordRead s k off seen).s.mem = s.mem := by
  unfold qdrWordRead; dsimp only
  repeat' split
  all_goals simp

@[simp] theorem readWordOut_mem (s : State) (out : Bool) (p a : Nat) (seen : List Nat) : (readWordOut s out p a seen).s.mem = s.mem := by
  unfold readWordOut
  cases s.target a with
  | rom off => rfl
  | tcm h => rfl
  | kindling h => simp only []; split <;> simp only [fabErr_mem]
  | lineStore n h => simp only []; split <;> simp only [fabErr_mem]
  | csram h =>
    simp only []
    split
    · simp only [fabErr_mem]
    · split
      · rfl
      · simp only [setEcc_rest, count_rest]
      · simp only [csramPoison_mem]
  | qdr k off =>
    simp only []
    split
    · simp only [fabErr_mem]
    · split
      · simp only [memTouch_mem]
      · split <;> simp only [capturePoison_mem, count_rest, qdrWordRead_mem, memTouch_mem]
  | regs _ => simp only [fabErr_mem]
  | unmapped => simp only [fabErr_mem]
  | beyond => simp only [fabErr_mem]

@[simp] theorem readWords_mem (n : Nat) : ∀ (s : State) (out : Bool) (p a : Nat) (seen : List Nat), (readWords s out p a seen n).s.mem = s.mem := by
  induction n with
  | zero => intros; rfl
  | succ n ih =>
    intro s out p a seen
    unfold readWords; dsimp only
    split
    · simp
    · simp [ih]

/-- A read through the fabric changes no byte of memory. -/
@[simp] theorem memRead_mem (s : State) (p a n : Nat) (seen : List Nat) : (memRead s p a n seen).s.mem = s.mem := readWords_mem _ _ _ _ _ _

/-! ## Marking bands changes registers and head state only -/

/-- Only registers and the hidden state of heads differ. -/
def Marks (s t : State) : Prop := t = { s with regs := t.regs, heads := t.heads }

theorem Marks.refl (s : State) : Marks s s := rfl

theorem Marks.trans {s t u : State} (h : Marks s t) (g : Marks t u) : Marks s u := by
  unfold Marks at *; rw [g, h]

theorem Marks.setReg (s : State) (a : Nat) (w : Word) : Marks s (s.setReg a w) := rfl

theorem Marks.setHead (s : State) (n : Nat) (h : HeadSt) : Marks s (s.setHead n h) := rfl

theorem Marks.foldl {α : Type} (f : State → α → State) (h : ∀ s a, Marks s (f s a)) (l : List α) (s : State) : Marks s (l.foldl f s) := by
  induction l generalizing s with
  | nil => exact Marks.refl s
  | cons a l ih => exact (h s a).trans (ih _)

theorem markBand_marks (s : State) (n b : Nat) : Marks s (markBand s n b) := by
  unfold markBand; split
  · exact Marks.setReg _ _ _
  · exact Marks.refl s

theorem markBands_marks (c : Nat) : ∀ (s : State) (n b : Nat), Marks s (markBands s n b c) := by
  induction c with
  | zero => intro s n b; exact Marks.refl s
  | succ c ih => intro s n b; exact (markBand_marks s n b).trans (ih _ n (b + 1))

theorem markAll_marks (s : State) (n : Nat) : Marks s (markAll s n) := markBands_marks _ _ _ _

theorem markLines_marks (s : State) (n : Nat) (lo hi : Int) : Marks s (markLines s n lo hi) := by
  unfold markLines; dsimp only; split
  · exact Marks.refl s
  · exact markBands_marks _ _ _ _

theorem markSource_marks (s : State) (n src : Nat) : Marks s (markSource s n src) := Marks.foldl _ (fun _ _ => markLines_marks _ _ _ _) _ _

theorem markSprite_marks (s : State) (n : Nat) (k : SprKey) : Marks s (markSprite s n k) := by
  unfold markSprite; split
  · exact markLines_marks _ _ _ _
  · exact Marks.refl s

theorem markLineList_marks (s : State) (n : Nat) (ls : List Nat) : Marks s (markLineList s n ls) := Marks.foldl _ (fun _ _ => markLines_marks _ _ _ _) _ _

theorem rekeySprite_marks (s : State) (n a len d : Nat) : Marks s (rekeySprite s n a len d) :=
  ((markSprite_marks s n _).trans (Marks.setHead _ n _)).trans (markSprite_marks _ n _)

theorem snoopLayer_marks (s : State) (n m a len : Nat) : Marks s (snoopLayer s n m a len) := by
  unfold snoopLayer
  split
  · exact Marks.refl s
  · dsimp only; split
    · exact Marks.refl s
    · split
      · exact markSource_marks s n m
      · exact markLineList_marks _ _ _

theorem snoopBeam_marks (s : State) (n a len : Nat) : Marks s (snoopBeam s n a len) := by
  unfold snoopBeam; split
  · exact Marks.refl s
  · exact markAll_marks s n

/-- Snooping a write marks bands and takes keys, and changes nothing else. -/
theorem snoop_marks (s : State) (a len : Nat) : Marks s (snoop s a len) := by
  unfold snoop
  split
  · exact Marks.refl s
  · refine Marks.foldl _ (fun s n => ?_) _ _
    refine Marks.trans (Marks.trans ?_ (Marks.foldl _ (fun _ _ => rekeySprite_marks _ _ _ _ _) _ _)) (snoopBeam_marks _ _ _ _)
    exact Marks.foldl _ (fun _ _ => snoopLayer_marks _ _ _ _ _) _ _

/-- A write of no bytes is not snooped. -/
@[simp] theorem snoop_zero (s : State) (a : Nat) : snoop s a 0 = s := rfl

@[simp] theorem snoop_mem (s : State) (a len : Nat) : (snoop s a len).mem = s.mem := by rw [snoop_marks s a len]

@[simp] theorem snoop_ecc (s : State) (a len : Nat) : (snoop s a len).ecc = s.ecc := by rw [snoop_marks s a len]

@[simp] theorem snoop_wb (s : State) (a len : Nat) : (snoop s a len).wb = s.wb := by rw [snoop_marks s a len]

/-! ## Writes keep the canonical form -/

theorem storeQdr_memWf {s : State} (p k off i : Nat) (new : List Byte) (seen : List Nat) (h : s.memWf = true) :
    (storeQdr s p k off i new seen).memWf = true := by
  unfold storeQdr; dsimp only
  have hr : (qdrWordRead s k off seen).s.memWf = true := by rw [memWf_congr (qdrWordRead_mem s k off seen)]; exact h
  split
  · exact setBytes_memWf _ _ h
  · split
    · rw [memWf_congr (capturePoison_mem _ _ _ _ _)]; exact setBytes_memWf _ _ hr
    · exact setBytes_memWf _ _ hr

theorem storeCsram_memWf {s : State} (a i : Nat) (new : List Byte) (seen : List Nat) (h : s.memWf = true) :
    (storeCsram s a i new seen).memWf = true := by
  unfold storeCsram; dsimp only
  split
  · exact setBytes_memWf _ _ h
  · split
    · exact setBytes_memWf _ _ h
    · rw [memWf_congr (setEcc_rest _ _ _).2.2.2.1]
      split
      · rw [memWf_congr (count_rest _ _ _).2.2.1]; exact setBytes_memWf _ _ h
      · exact setBytes_memWf _ _ h

theorem writeQdr_memWf {s : State} (p k off i : Nat) (new : List Byte) (seen : List Nat) (h : s.memWf = true) :
    (writeQdr s p k off i new seen).1.memWf = true := by
  have ht : (memTouch s).memWf = true := by rw [memWf_congr (memTouch_mem s)]; exact h
  unfold writeQdr
  split
  · exact h
  · split
    · exact h
    · split
      · dsimp only
        repeat' split
        all_goals first | exact h | exact storeQdr_memWf _ _ _ _ _ _ (storeQdr_memWf _ _ _ _ _ _ ht)
      · split
        · exact h
        · exact storeQdr_memWf _ _ _ _ _ _ ht

theorem storeKindling_memWf {s : State} (a : Nat) (bs : List Byte) (h : s.memWf = true) : (storeKindling s a bs).memWf = true :=
  setBytes_memWf a bs h

theorem writeWord_memWf {s : State} (p a : Nat) (new : List Byte) (seen : List Nat) (h : s.memWf = true) :
    (writeWord s p a new seen).s.memWf = true := by
  have he : ∀ (s : State) b c, s.memWf = true → (fabErr s p b c a).memWf = true := fun s b c h => by
    rw [memWf_congr (fabErr_mem s p b c a)]; exact h
  unfold writeWord; dsimp only
  split
  · exact he _ _ _ h
  · exact setBytes_memWf _ _ h
  · split
    · exact he _ _ _ h
    · exact storeKindling_memWf _ _ h
  · split
    · exact he _ _ _ h
    · exact setBytes_memWf _ _ h
  · split
    · exact he _ _ _ h
    · exact storeCsram_memWf _ _ _ _ h
  · rename_i k off _
    have hw := writeQdr_memWf p k (off / 8 * 8) (off % 8) new seen h
    split
    · rename_i heq; rw [heq] at hw; exact he _ _ _ hw
    · rename_i heq; rw [heq] at hw; exact hw
  all_goals exact he _ _ _ h

theorem writeWords_memWf (n : Nat) : ∀ {s : State} (p : Nat) (seen : List Nat) (a : Nat) (bs : List Byte), s.memWf = true →
    (writeWords s p seen n a bs).1.s.memWf = true := by
  induction n with
  | zero => intro s p seen a bs h; exact h
  | succ n ih =>
    intro s p seen a bs h
    unfold writeWords; dsimp only
    split
    · exact h
    · split
      · exact writeWord_memWf _ _ _ _ h
      · exact ih _ _ _ _ (writeWord_memWf _ _ _ _ h)

/-- A write through the fabric keeps the canonical form of memory. -/
theorem memWrite_memWf {s : State} (p a : Nat) (bs : List Byte) (seen : List Nat) (h : s.memWf = true) :
    (memWrite s p a bs seen).s.memWf = true := by
  unfold memWrite; dsimp only
  rw [memWf_congr (snoop_mem _ _ _)]; exact writeWords_memWf _ _ _ _ _ h

/-! ## Single words -/

theorem setBytes_append (s : State) (xs ys : List Byte) : ∀ a, s.setBytes a (xs ++ ys) = (s.setBytes a xs).setBytes (a + xs.length) ys := by
  induction xs generalizing s with
  | nil => intro a; rfl
  | cons x xs ih =>
    intro a
    simp only [List.cons_append, List.length_cons, State.setBytes]
    rw [ih (s.setByte a x) (a + 1)]
    congr 1; omega

theorem bytes_congr {s t : State} (h : s.mem = t.mem) (n : Nat) : ∀ a, s.bytes a n = t.bytes a n := by
  induction n with
  | zero => intro a; rfl
  | succ n ih => intro a; simp only [State.bytes]; rw [byte_congr h, ih]

theorem bytes_getElem (s : State) (n : Nat) : ∀ a i (h : i < (s.bytes a n).length), (s.bytes a n)[i] = s.byte (a + i) := by
  induction n with
  | zero => intro a i h; simp [State.bytes] at h
  | succ n ih =>
    intro a i h
    cases i with
    | zero => rfl
    | succ i =>
      simp only [State.bytes, List.getElem_cons_succ]
      rw [ih]; congr 1; omega

/-- Some bytes out of a word's bytes. -/
theorem bytes_drop_take (s : State) (a n i len : Nat) (h : i + len ≤ n) : ((s.bytes a n).drop i).take len = s.bytes (a + i) len := by
  apply List.ext_getElem
  · simp [bytes_length]; omega
  · intro j h1 h2
    simp only [List.getElem_take, List.getElem_drop, bytes_getElem]
    congr 1; omega

/-- A word's bytes with some replaced, stored: the replaced ones are stored and the others written back as they were. -/
theorem byte_merge (s : State) (h i : Nat) (new : List Byte) (hi : i + new.length ≤ 8) (x : Nat) :
    (s.setBytes h (mergeBytes (s.bytes h 8) i new)).byte x = (s.setBytes (h + i) new).byte x := by
  have hl : (mergeBytes (s.bytes h 8) i new).length = 8 := by simp [mergeBytes, bytes_length]; omega
  by_cases hx : x < h ∨ h + 8 ≤ x
  · rw [byte_setBytes_outside _ _ _ _ (by rw [hl]; exact hx), byte_setBytes_outside _ _ _ _ (by omega)]
  · obtain ⟨j, rfl⟩ : ∃ j, x = h + j := ⟨x - h, by omega⟩
    rw [byte_setBytes_inside _ _ _ j (by rw [hl]; omega)]
    unfold mergeBytes
    by_cases h1 : j < i
    · rw [List.getElem_append_left (by simp [bytes_length]; omega), List.getElem_append_left (by simp [bytes_length]; omega)]
      simp only [List.getElem_take, bytes_getElem]
      rw [byte_setBytes_outside _ _ _ _ (by omega)]
    · by_cases h2 : j < i + new.length
      · rw [List.getElem_append_left (by simp [bytes_length]; omega), List.getElem_append_right (by simp [bytes_length]; omega)]
        obtain ⟨m, rfl⟩ : ∃ m, j = i + m := ⟨j - i, by omega⟩
        have e : h + (i + m) = h + i + m := by omega
        rw [e, byte_setBytes_inside _ _ _ m (by omega)]
        congr 1; simp [bytes_length]; omega
      · rw [List.getElem_append_right (by simp [bytes_length]; omega)]
        simp only [List.getElem_drop, bytes_getElem]
        rw [byte_setBytes_outside _ _ _ _ (by omega)]
        congr 1; simp [bytes_length]; omega

/-- A write within one word is one word's write, snooped where it is made. -/
theorem memWrite_one (s : State) (p a : Nat) (bs : List Byte) (seen : List Nat) (h0 : bs ≠ []) (h : a % 8 + bs.length ≤ 8) :
    memWrite s p a bs seen =
      if (writeWord s p a bs seen).err then writeWord s p a bs seen else ⟨snoop (writeWord s p a bs seen).s a bs.length, [], false, false⟩ := by
  unfold memWrite
  rw [show bs.length / 8 + 2 = (bs.length / 8 + 1) + 1 from rfl, writeWords]
  have hb : bs.isEmpty = false := by cases bs <;> simp_all
  have ht : bs.take (8 - a % 8) = bs := List.take_of_length_le (by omega)
  have hd : bs.drop (8 - a % 8) = [] := List.drop_of_length_le (by omega)
  simp only [hb, Bool.false_eq_true, if_false, ht, hd]
  split
  · rfl
  · rw [writeWords]; simp only [List.isEmpty_nil, if_true, Nat.add_zero]
    rw [Nat.min_eq_right (by omega)]

/-- A read within one word is one word's read. -/
theorem memRead_one (s : State) (p a len : Nat) (seen : List Nat) (h0 : 0 < len) (h : a % 8 + len ≤ 8) :
    memRead s p a len seen =
      let r := readWord s p a seen
      if r.err || r.poison then ⟨r.s, [], r.err, r.poison⟩ else ⟨r.s, (r.data.drop (a % 8)).take len, false, false⟩ := by
  unfold memRead memReadOut readWord
  have hn : (a + len + 7) / 8 - a / 8 = 1 := by omega
  have ha : a - a / 8 * 8 = a % 8 := by omega
  simp only [hn, ha, readWords]
  split
  · simp
  · simp

/-- An address of QDR memory and its offset lie at the same place in their words, and the channel is one of six. -/
theorem target_qdr {s : State} {a k off : Nat} (h : s.target a = .qdr k off) : off % 8 = a % 8 ∧ k < 6 := by
  unfold State.target at h
  split at h
  · simp at h
  split at h
  · simp at h
  split at h
  · simp at h
  split at h
  · simp at h
  split at h
  · split at h <;> simp at h
  split at h
  · simp at h
  split at h
  · split at h
    · rename_i k' off' hd
      split at h
      · simp only [Target.qdr.injEq] at h
        obtain ⟨rfl, rfl⟩ := h
        unfold State.deinterleave at hd
        dsimp only at hd
        split at hd
        · simp at hd
        · obtain ⟨k1, hk1, hk2⟩ := Option.map_eq_some_iff.1 hd
          simp only [Prod.mk.injEq] at hk2
          obtain ⟨rfl, rfl⟩ := hk2
          obtain ⟨o, eo⟩ : ∃ o, o = a - 0x20000000 := ⟨_, rfl⟩
          have hk : k1 ∈ s.ilSet := List.mem_of_getElem? hk1
          unfold State.ilSet at hk
          rw [List.mem_filter, List.mem_range] at hk
          rw [← eo]
          exact ⟨by omega, hk.1⟩
      · simp at h
    · simp at h
  · split at h
    · dsimp only at h
      split at h
      · simp only [Target.qdr.injEq] at h
        obtain ⟨rfl, rfl⟩ := h
        omega
      · simp at h
    · split at h <;> simp at h

/-- Where a CSRAM address leads. -/
theorem target_csram (s : State) {a : Nat} (h : 0x10000000 ≤ a) (h' : a < 0x10800000) : s.target a = .csram a := by
  unfold State.target
  rw [if_neg (by omega), if_neg (by omega), if_neg (by omega), if_pos ⟨h, h'⟩]

end Sys2Proof.Machine
end

