-- ==== Sys2Proof/Laws/Processor.lean ====
section
/-! SUPPORT. What the issue of an instruction comes to on Kiln and on a thread, what a load or store then does, and how the register accessors of a processor
answer one another. -/

namespace Sys2Proof.Machine

/-- With the side unit free and nothing reported, an instruction issues as it stands. -/
theorem behindSide_ready (s : State) (b : Bool) (h : s.kiln.side = none) (h' : s.kiln.late = []) : behindSide s b = s := by
  unfold behindSide; rw [h, h']; simp

/-- An instruction that issues on Kiln has just its effect. -/
theorem kiln_goes (s : State) (i : Ins) (body) (h : s.issues .kiln i) : kilnIssue s i body = body s := by
  obtain ⟨⟨h1, h2, h3, h4, h5, h6, h7, h8, h9⟩, hu, hc⟩ := h
  have hw : wakeUp s = s := by unfold wakeUp; rw [h4]; rfl
  have hs : s.stalls i = false := by unfold State.stalls; rw [h8]
  have hb : boundary s (s.atBarrier i) none = none := by unfold boundary; rw [h6]; rfl
  have hi : issueIns s i body = body s := by
    unfold issueIns; dsimp only
    rw [show condPasses s.kflags i.cond = true from hc, h5, h9, behindSide_ready s _ h8 h6, show undefIns true i = false from hu]; rfl
  unfold kilnIssue; dsimp only
  rw [h1, h2, h3, h4, hw, h5, h7, hb, hs]
  simp [h6, hi]

/-- An instruction that issues on a thread uses the slot and has what its effect answers. -/
theorem thread_goes (s : State) (t : Fin 64) (i : Ins) (body) (h : s.issues (.thread t) i) : threadIssue s t i body = (match body s.slotUsed with
    | .done s => threadDone s t i.len
    | .block s wait res => threadBlock s t wait res
    | .exit s => { s with kind := { s.kind with armed := true } }
    | .fault c => threadFault s.slotUsed t c) := by
  obtain ⟨h1, hu, hc⟩ := h
  unfold threadIssue; rw [if_neg (by rw [show s.kind.slot = some t.val from h1]; simp)]
  dsimp only; rw [show undefIns false i = false from hu, if_neg (by decide)]
  have : condPasses (({ s with kind := { s.kind with slot := none } } : State).thr t).flags i.cond = true := hc
  rw [this]; rfl

@[simp] theorem kiln_setKiln (s : State) (k : Kiln) : (s.setKiln k).kiln = k := rfl

/-- A register of Kiln reads as it was last set. -/
theorem kreg_setKreg (s : State) (r : Nat) (w : Word) : (s.setKreg r w).kreg r = w := by
  unfold State.kreg State.setKreg State.setKregAt
  by_cases h : (r == 13) = true
  · rw [if_pos h, if_pos h]
    by_cases hs : s.kiln.status.getLsbD 4 = true
    · rw [if_pos hs]; simp only [kiln_setKiln, hs, if_true]
    · rw [if_neg hs]; simp only [kiln_setKiln, hs]; rfl
  · rw [if_neg h, if_neg h]; simp only [kiln_setKiln, smGet_smSet_self]

theorem setKreg_status (s : State) (r : Nat) (w : Word) : (s.setKreg r w).kiln.status = s.kiln.status := by
  unfold State.setKreg State.setKregAt; split
  · split <;> rfl
  · rfl

theorem setKreg_mem (s : State) (r : Nat) (w : Word) : (s.setKreg r w).mem = s.mem := by
  unfold State.setKreg State.setKregAt; split
  · split <;> rfl
  · rfl

theorem setKreg_sb (s : State) (r : Nat) (w : Word) : (s.setKreg r w).kiln.sb = s.kiln.sb := by
  unfold State.setKreg State.setKregAt; split
  · split <;> rfl
  · rfl

theorem kreg_kdone (s : State) (len r : Nat) : (kdone s len).kreg r = s.kreg r := by
  have : (kdone s len).kiln.status.getLsbD 4 = s.kiln.status.getLsbD 4 := by
    have e : (kdone s len).kiln.status = (s.kiln.status &&& 0xFFFF) ||| BitVec.ofNat 32 (0 * 2 ^ 16) := rfl
    rw [e, BitVec.getLsbD_or, BitVec.getLsbD_and]
    simp
  unfold State.kreg
  rw [this]; rfl

theorem kreg_wire (s t : State) (r : Nat) : (settle (keepQueue s t)).kreg r = t.kreg r := by
  unfold State.kreg; simp only [settle_rest, keepQueue_rest]

/-- What fetch holds is hidden state: a store that touches it leaves the rest as it was. -/
theorem keepFetched_rest (s : State) (len a n : Nat) : (keepFetched s len a n).mem = s.mem ∧ (keepFetched s len a n).kiln.sb = s.kiln.sb ∧
    (∀ r, (keepFetched s len a n).kreg r = s.kreg r) := by
  unfold keepFetched; split <;> exact ⟨rfl, rfl, fun _ => rfl⟩

theorem treg_wire (s t : State) (k r : Nat) : (settle (keepQueue s t)).treg k r = t.treg k r := by
  unfold State.treg State.thr; simp only [settle_rest, keepQueue_rest]

theorem thr_threadDone (s : State) (t len : Nat) : (threadDone s t len).thr t = { s.thr t with state := .ready, wait := 0, res := 0, pc := (s.thr t).pc + BitVec.ofNat 32 len } := by
  have e : (threadDone s t len).thr t = (s.setThr t { s.thr t with state := .ready, wait := 0, res := 0, pc := (s.thr t).pc + BitVec.ofNat 32 len }).thr t := rfl
  rw [e, thr_setThr_self]

theorem treg_threadDone (s : State) (t len r : Nat) : (threadDone s t len).treg t r = s.treg t r := by
  unfold State.treg; rw [thr_threadDone]

/-- A register of a thread reads as it was last set. -/
theorem treg_setTreg (s : State) (t r : Nat) (w : Word) : (s.setTreg t r w).treg t r = w := by
  unfold State.treg State.setTreg; rw [thr_setThr_self]; exact smGet_smSet_self _ _ _

theorem tbytes_slotUsed (s : State) (t a n : Nat) : s.slotUsed.tbytes t a n = s.tbytes t a n := by
  have e : ∀ b k, s.slotUsed.bytes b k = s.bytes b k := fun b k => bytes_congr (s := s.slotUsed) (t := s) rfl k b
  unfold State.tbytes
  simp only [e]; rfl

/-- What a load or store does on a thread. -/
theorem mem_thread (s : State) (t : Fin 64) (i : Ins) (m : MemOp) (mf : Ins → Regs → MemOp) (hm : mf i (s.treg t) = m) (c : Instr)
    (hx : exec c s = .next (settle (keepQueue s (memRow s (.thread t) i mf)))) (h : s.issues (.thread t) i) :
        (m.addr.toNat % m.size ≠ 0 → Does c s (threadFault s.slotUsed t 2)) ∧
        (m.addr.toNat % m.size = 0 → 0x80000 < m.addr.toNat + m.size → Does c s (threadFault s.slotUsed t 3)) ∧
        (m.addr.toNat % m.size = 0 → m.addr.toNat + m.size ≤ 0x80000 → m.load = true →
          Does c s (threadDone ((match m.base with | some (b, w) => setRegOf s.slotUsed (.thread t) b w | none => s.slotUsed).setTreg t m.reg (extend m.size m.sext (leOf (s.tbytes t (0x12000000 + m.addr.toNat) m.size)))) t i.len)) ∧
        (m.addr.toNat % m.size = 0 → m.addr.toNat + m.size ≤ 0x80000 → m.load = false →
          Does c s (threadDone (match m.base with | some (b, w) => setRegOf (threadStore s.slotUsed t (0x12000000 + m.addr.toNat) (leBytes m.size (s.treg t m.reg).toNat)) (.thread t) b w | none => threadStore s.slotUsed t (0x12000000 + m.addr.toNat) (leBytes m.size (s.treg t m.reg).toNat)) t i.len)) := by
  have e : memRow s (.thread t) i mf = (match tMem s.slotUsed t m with
    | .done s => threadDone s t i.len
    | .block s wait res => threadBlock s t wait res
    | .exit s => { s with kind := { s.kind with armed := true } }
    | .fault c => threadFault s.slotUsed t c) := by
    unfold memRow; dsimp only; rw [thread_goes s t i _ h]
    rw [show mf i (s.slotUsed.tregs t) = m from hm]
  refine ⟨fun h1 => ?_, fun h1 h2 => ?_, fun h1 h2 h3 => ?_, fun h1 h2 h3 => ?_⟩ <;> refine does_of hx (e.trans ?_) <;> unfold tMem <;> dsimp only
  · rw [if_pos (by simpa using h1)]
  · rw [if_neg (by simpa using h1), if_pos h2]
  · rw [if_neg (by simpa using h1), if_neg (by omega)]; simp only [h3, if_true]; rw [tbytes_slotUsed]; rfl
  · rw [if_neg (by simpa using h1), if_neg (by omega)]; simp only [h3]; rfl

/-- What a load or store does on Kiln. -/
theorem mem_kiln (s : State) (i : Ins) (m : MemOp) (mf : Ins → Regs → MemOp) (hm : mf i s.kreg = m) (c : Instr)
    (hx : exec c s = .next (settle (keepQueue s (memRow s .kiln i mf)))) (h : s.issues .kiln i) :
        (m.addr.toNat % m.size ≠ 0 → Does c s (kfault s 3 m.addr)) ∧
        (m.addr.toNat % m.size = 0 → inRegs m.addr.toNat = true → s.ksup = false → Does c s (kfault s 2 (BitVec.ofNat 32 i.word))) ∧
        (m.addr.toNat % m.size = 0 → inRegs m.addr.toNat = false ∨ s.ksup = true → s.wpMatch (!m.load) m.addr.toNat m.size = none →
          (m.load = true → inTcm m.addr.toNat = true →
            Does c s (kdone ((match m.base with | some (b, w) => setRegOf s .kiln b w | none => s).setKreg m.reg (extend m.size m.sext (leOf (s.bytes m.addr.toNat m.size)))) i.len)) ∧
          (∀ bs, m.load = true → inTcm m.addr.toNat = false → s.forwarded m.addr.toNat m.size = some bs →
            Does c s (kdone ((match m.base with | some (b, w) => setRegOf s .kiln b w | none => s).setKreg m.reg (extend m.size m.sext (leOf bs))) i.len)) ∧
          (m.load = true → inTcm m.addr.toNat = false → s.forwarded m.addr.toNat m.size = none →
            let now := !s.buffered m.addr.toNat m.size
            Does c s (s.setKiln { s.kiln with load := some ⟨m.addr.toNat, m.size, m.sext, m.reg, m.base, i.len, now, now && s.passes m.addr.toNat, if now then (s.target m.addr.toNat).block else none, false⟩ })) ∧
          (m.load = false → inTcm m.addr.toNat = true → Does c s (kdone (match m.base with | some (b, w) => setRegOf ((keepFetched s i.len m.addr.toNat m.size).setBytes m.addr.toNat (leBytes m.size (s.kreg m.reg).toNat)) .kiln b w | none => (keepFetched s i.len m.addr.toNat m.size).setBytes m.addr.toNat (leBytes m.size (s.kreg m.reg).toNat)) i.len)) ∧
          (m.load = false → inTcm m.addr.toNat = false →
            let fetched := keepFetched s i.len m.addr.toNat m.size
            let roomy := if 8 ≤ fetched.kiln.sb.length then storeIssue fetched [] else fetched
            let u := roomy.setKiln { roomy.kiln with sb := roomy.kiln.sb ++ [(m.addr.toNat, leBytes m.size (s.kreg m.reg).toNat)] }
            Does c s (kdone (match m.base with | some (b, w) => setRegOf u .kiln b w | none => u) i.len))) := by
  have e : memRow s .kiln i mf = kMem s i m := by
    unfold memRow; dsimp only; rw [kiln_goes s i _ h, hm]
  have hp : inRegs m.addr.toNat = false ∨ s.ksup = true → ¬ ((inRegs m.addr.toNat && !s.ksup) = true) := by rintro (x | x) <;> rw [x] <;> simp
  refine ⟨fun h1 => ?_, fun h1 h2 h3 => ?_, fun h1 h2 h3 => ⟨fun h4 h5 => ?_, fun bs h4 h5 h6 => ?_, fun h4 h5 h6 => ?_, fun h4 h5 => ?_, fun h4 h5 => ?_⟩⟩ <;> refine does_of hx (e.trans ?_) <;> unfold kMem <;> dsimp only
  · rw [if_pos (by simpa using h1)]
  · rw [if_neg (by simpa using h1), if_pos (by rw [h2, h3]; rfl)]
  · rw [if_neg (by simpa using h1), if_neg (hp h2), h3]; dsimp only; rw [if_pos h4, if_pos h5]; rfl
  · rw [if_neg (by simpa using h1), if_neg (hp h2), h3]; dsimp only; rw [if_pos h4, if_neg (by rw [h5]; decide), h6]; rfl
  · rw [if_neg (by simpa using h1), if_neg (hp h2), h3]; dsimp only; rw [if_pos h4, if_neg (by rw [h5]; decide), h6]
  · rw [if_neg (by simpa using h1), if_neg (hp h2), h3]; dsimp only; rw [if_neg (by rw [h4]; decide)]; unfold kstore; rw [if_pos h5]; rfl
  · rw [if_neg (by simpa using h1), if_neg (hp h2), h3]; dsimp only; rw [if_neg (by rw [h4]; decide)]; unfold kstore; rw [if_neg (by rw [h5]; decide)]; rfl

theorem leBytes_length (n v : Nat) : (leBytes n v).length = n := by
  induction n generalizing v with
  | zero => rfl
  | succ k ih => simp [leBytes, ih]

theorem back_mem (u : State) (a : Agent) (b : Option (Nat × Word)) : (match b with | some (b, w) => setRegOf u a b w | none => u).mem = u.mem := by
  cases b
  · rfl
  · cases a
    · exact setKreg_mem _ _ _
    · rfl

theorem back_sb (u : State) (b : Option (Nat × Word)) : (match b with | some (b, w) => setRegOf u .kiln b w | none => u).kiln.sb = u.kiln.sb := by
  cases b
  · rfl
  · exact setKreg_sb _ _ _

theorem threadDone_mem (s : State) (t n : Nat) : (threadDone s t n).mem = s.mem := rfl

theorem kdone_mem (s : State) (n : Nat) : (kdone s n).mem = s.mem := rfl

theorem kdone_sb (s : State) (n : Nat) : (kdone s n).kiln.sb = s.kiln.sb := rfl

end Sys2Proof.Machine
end

