-- ==== Sys2Proof/Laws/Exceptions.lean ====
section
/-! SUPPORT. What taking an exception on Kiln and returning from one come to when the stack lies in a TCM. -/

namespace Sys2Proof.Machine

/-- An instruction of Kiln that issues does what its body makes of the state. -/
theorem kiln_row (s : State) (c : Instr) (i : Ins) (body : State → Ins → State) (hx : exec c s = .next (settle (keepQueue s (kilnRow s .kiln i body))))
    (h : s.issues .kiln i) (t : State) (e : body s i = t) : Does c s t := by
  refine does_of hx ?_
  unfold kilnRow; dsimp only; rw [kiln_goes s i _ h, e]

theorem inTcm_of_within (a : Nat) (n : Nat) (h : (0x100000 ≤ a ∧ a + n ≤ 0x120000) ∨ (0x200000 ≤ a ∧ a + n ≤ 0x220000)) (i : Nat) (hi : i < n) : inTcm (a + i) = true := by
  unfold inTcm; simp only [Bool.or_eq_true, Bool.and_eq_true, decide_eq_true_eq]; omega

/-- Words pushed on a stack in a TCM are its bytes. -/
theorem pushWords_tcm (ws : List Word) : ∀ (s : State) (a : Nat), (∀ i, i < 4 * ws.length → inTcm (a + i) = true) →
    pushWords s a ws = (s.setBytes a (ws.flatMap (fun w => leBytes 4 w.toNat)), true) := by
  induction ws with
  | nil => intro s a _; rfl
  | cons w ws ih =>
    intro s a h
    unfold pushWords
    rw [if_pos (by simpa using h 0 (by simp)), ih _ (a + 4) (fun i hi => by rw [Nat.add_assoc]; exact h (4 + i) (by simp only [List.length_cons]; omega))]
    rw [List.flatMap_cons, setBytes_append, leBytes_length]

theorem hostDbSet_kiln (s : State) (n : Nat) : (hostDbSet s n).kiln = s.kiln := by
  unfold hostDbSet
  split
  · rfl
  · dsimp only
    split
    · unfold msgDue; split <;> simp only [setPba_rest, setReg_rest]
    · simp only [setReg_rest]

theorem lockUp_lockup (s : State) : (lockUp s).kiln.lockup = true := by
  unfold lockUp; rw [hostDbSet_kiln]; rfl

theorem peekBytes_congr {u v : State} (h : ∀ a, v.peek a = u.peek a) (n : Nat) : ∀ a, v.peekBytes a n = u.peekBytes a n := by
  induction n with
  | zero => intro a; rfl
  | succ n ih => intro a; unfold State.peekBytes; rw [h, ih]

theorem peekLE_congr {u v : State} (h : ∀ a, v.peek a = u.peek a) (a n : Nat) : v.peekLE a n = u.peekLE a n := by
  unfold State.peekLE; rw [peekBytes_congr h]

theorem peekLE_setKiln (u : State) (k : Kiln) (a n : Nat) : (u.setKiln k).peekLE a n = u.peekLE a n := peekLE_congr (u := u) (v := u.setKiln k) (fun _ => rfl) a n

theorem setBytes_setKiln (u : State) (k : Kiln) (base : Nat) (bs : List Byte) : (u.setKiln k).setBytes base bs = (u.setBytes base bs).setKiln k := by
  rw [setBytes_eq (u.setKiln k), setBytes_eq u]
  have : ((u.setKiln k).setBytes base bs).mem = (u.setBytes base bs).mem := by
    have : ∀ (bs : List Byte) (a : Nat) (x y : State), x.mem = y.mem → (x.setBytes a bs).mem = (y.setBytes a bs).mem := by
      intro bs
      induction bs with
      | nil => intro a x y h; exact h
      | cons b bs ih => intro a x y h; exact ih _ _ _ (by unfold State.setByte; dsimp only; rw [h])
    exact this _ _ _ _ rfl
  rw [this]; rfl

theorem setKiln_setKiln (u : State) (k l : Kiln) : (u.setKiln k).setKiln l = u.setKiln l := rfl

theorem enterFrame_eq (u : State) (e : Nat) (pc : Word) (imp : Bool) (info status : Word) (side : List Word) (hd : ¬ 8 ≤ u.originDepth) (o : Word) (ho : pushOrigin u false = u.setKiln { u.kiln with origin := o }) :
    enterFrame u e pc imp info status side =
      if (u.peekLE (u.vectorAt e) 4 % 2 == 1 || u.kiln.ssp.toNat % 8 != 0) = true then lockUp (u.setKiln { u.kiln with origin := o, status := (status &&& 0x0F0F) ||| 0x10 })
      else
        match pushWords (if inTcm (u.kiln.ssp - 32).toNat = true then u.setKiln { u.kiln with origin := o, status := (status &&& 0x0F0F) ||| 0x10 } else drainOver (u.setKiln { u.kiln with origin := o, status := (status &&& 0x0F0F) ||| 0x10 }) (u.kiln.ssp - 32).toNat 32) (u.kiln.ssp - 32).toNat ([pc, status, BitVec.ofNat 32 (cond imp (2 ^ 31) 0 + e), info] ++ side) with
        | (s, false) => lockUp s
        | (s, true) => trace (setKpc (s.setKiln { s.kiln with ssp := u.kiln.ssp - 32 }) (BitVec.ofNat 32 (u.peekLE (u.vectorAt e) 4))) 2 0 e pc.toNat := by
  unfold enterFrame
  rw [if_neg hd]; dsimp only
  rw [ho]; simp only [kiln_setKiln, setKiln_setKiln, peekLE_setKiln]
  rfl

theorem enterFrame_locks (u : State) (e : Nat) (pc : Word) (imp : Bool) (info status : Word) (side : List Word) (o : Word) (ho : pushOrigin u false = u.setKiln { u.kiln with origin := o })
    (hb : 8 ≤ u.originDepth ∨ u.peekLE (u.vectorAt e) 4 % 2 = 1 ∨ u.kiln.ssp.toNat % 8 ≠ 0) : (enterFrame u e pc imp info status side).kiln.lockup = true := by
  by_cases hd : 8 ≤ u.originDepth
  · unfold enterFrame; rw [if_pos hd]; exact lockUp_lockup _
  · rw [enterFrame_eq _ _ _ _ _ _ _ hd o ho, if_pos]
    · exact lockUp_lockup _
    · simp only [Bool.or_eq_true, beq_iff_eq, bne_iff_ne]
      rcases hb with hb | hb | hb
      · exact absurd hb hd
      · exact Or.inl hb
      · exact Or.inr hb

theorem enterFrame_tcm (u : State) (e : Nat) (pc : Word) (info status : Word) (side : List Word) (hl : side.length = 4) (o : Word) (ho : pushOrigin u false = u.setKiln { u.kiln with origin := o })
    (h1 : u.originDepth < 8) (h2 : u.peekLE (u.vectorAt e) 4 % 2 = 0) (h3 : u.kiln.ssp.toNat % 8 = 0)
    (h4 : (0x100000 ≤ (u.kiln.ssp - 32).toNat ∧ (u.kiln.ssp - 32).toNat + 32 ≤ 0x120000) ∨ (0x200000 ≤ (u.kiln.ssp - 32).toNat ∧ (u.kiln.ssp - 32).toNat + 32 ≤ 0x220000)) :
    enterFrame u e pc false info status side = trace ((u.setBytes (u.kiln.ssp - 32).toNat (([pc, status, BitVec.ofNat 32 (0 + e), info] ++ side : List Word).flatMap (fun (w : Word) => leBytes 4 w.toNat))).setKiln
      { u.kiln with origin := o, status := (status &&& 0x0F0F) ||| 0x10, ssp := u.kiln.ssp - 32, pc := BitVec.ofNat 32 (u.peekLE (u.vectorAt e) 4) &&& 0xFFFFFFFE }) 2 0 e pc.toNat := by
  rw [enterFrame_eq _ _ _ _ _ _ _ (by omega) o ho, if_neg]
  · have ht := inTcm_of_within _ _ h4 0 (by decide)
    rw [Nat.add_zero] at ht
    rw [if_pos ht]
    rw [pushWords_tcm _ _ _ (fun i hi => inTcm_of_within _ 32 h4 i (by simp only [List.length_append, List.length_cons, List.length_nil, hl] at hi; omega))]
    dsimp only
    rw [setBytes_setKiln]
    unfold setKpc; simp only [kiln_setKiln, setKiln_setKiln]; rfl
  · simp only [Bool.or_eq_true, beq_iff_eq, bne_iff_ne, not_or, not_not]
    exact ⟨fun x => by omega, h3⟩

theorem sideWords_none (u : State) (hs : u.kiln.side = none) : sideWords u none = ({ u with free := u.free + 3 }, [0, Config.freeWord u.free, Config.freeWord (u.free + 1), Config.freeWord (u.free + 2)]) := by
  unfold sideWords; rw [hs]; rfl

/-- Only a bus error or a memory-data fault is noted of Falornyr's own code and data (R509). -/
theorem noteOwnFault_other (s : State) (e a : Nat) (h : e ≠ 4) (h' : e ≠ 5) : noteOwnFault s e a = s := by
  unfold noteOwnFault; rw [if_pos (by simp [h, h'])]

/-- A framed entry with a full origin stack, an odd vector or a misaligned SSP locks Kiln up. -/
theorem framedEntry_locks (s : State) (e : Nat) (he : e ≠ 4) (he' : e ≠ 5) (pc : Word) (imp : Bool) (info : Word) (src : Option Nat) (u : State) (hu : entryBegins s src = u) (hs : u.kiln.side = none)
    (o : Word) (ho : ∀ n, pushOrigin { u with free := n } false = State.setKiln { u with free := n } { u.kiln with origin := o })
    (hb : 8 ≤ u.originDepth ∨ u.peekLE (u.vectorAt e) 4 % 2 = 1 ∨ u.kiln.ssp.toNat % 8 ≠ 0) : (framedEntry s e pc imp info none src).kiln.lockup = true := by
  unfold framedEntry; dsimp only
  rw [noteOwnFault_other s e _ he he', hu, sideWords_none u hs]
  refine enterFrame_locks _ _ _ _ _ _ _ o (ho _) ?_
  rw [show ({ u with free := u.free + 3 } : State).peekLE (State.vectorAt { u with free := u.free + 3 } e) 4 = u.peekLE (u.vectorAt e) 4 from peekLE_congr (u := u) (v := { u with free := u.free + 3 }) (fun _ => rfl) _ _]
  exact hb

/-- A framed entry on a stack in a TCM, no side-unit operation outstanding. -/
theorem framedEntry_tcm (s : State) (e : Nat) (he : e ≠ 4) (he' : e ≠ 5) (pc : Word) (info : Word) (src : Option Nat) (u : State) (hu : entryBegins s src = u)
    (hs : u.kiln.side = none) (hst : s.kiln.status = u.kiln.status) 
    (o : Word) (ho : ∀ n, pushOrigin { u with free := n } false = State.setKiln { u with free := n } { u.kiln with origin := o })
    (h1 : u.originDepth < 8) (h2 : u.peekLE (u.vectorAt e) 4 % 2 = 0) (h3 : u.kiln.ssp.toNat % 8 = 0)
    (h4 : (0x100000 ≤ (u.kiln.ssp - 32).toNat ∧ (u.kiln.ssp - 32).toNat + 32 ≤ 0x120000) ∨ (0x200000 ≤ (u.kiln.ssp - 32).toNat ∧ (u.kiln.ssp - 32).toNat + 32 ≤ 0x220000)) :
    framedEntry s e pc false info none src = trace ((State.setBytes { u with free := u.free + 3 } (u.kiln.ssp - 32).toNat (([pc, u.kiln.status, BitVec.ofNat 32 (0 + e), info, 0, Config.freeWord u.free, Config.freeWord (u.free + 1), Config.freeWord (u.free + 2)] : List Word).flatMap (fun (w : Word) => leBytes 4 w.toNat))).setKiln
      { u.kiln with origin := o, status := (u.kiln.status &&& 0x0F0F) ||| 0x10, ssp := u.kiln.ssp - 32, pc := BitVec.ofNat 32 (u.peekLE (u.vectorAt e) 4) &&& 0xFFFFFFFE }) 2 0 e pc.toNat := by
  unfold framedEntry; dsimp only
  rw [noteOwnFault_other s e _ he he', hu, hst, sideWords_none u hs]; dsimp only
  have e2 : ({ u with free := u.free + 3 } : State).peekLE (State.vectorAt { u with free := u.free + 3 } e) 4 = u.peekLE (u.vectorAt e) 4 := peekLE_congr (u := u) (v := { u with free := u.free + 3 }) (fun _ => rfl) _ _
  have := enterFrame_tcm { u with free := u.free + 3 } e pc info u.kiln.status [0, Config.freeWord u.free, Config.freeWord (u.free + 1), Config.freeWord (u.free + 2)] rfl o (ho _) h1 (by rw [e2]; exact h2) h3 h4
  rw [e2] at this
  exact this

theorem pulseTaken_kiln (s : State) (n : Nat) : (pulseTaken s n).kiln = s.kiln := by
  unfold pulseTaken; split <;> rfl

theorem holdStart_kiln (s : State) (n : Nat) : (holdStart s n).kiln = s.kiln := by
  unfold holdStart; dsimp only; split
  · simp only [setBit_rest]
  · rfl

theorem fireCount_kiln (s : State) (n : Nat) : (fireCount s n).kiln = s.kiln := by
  have h (v : State) (k : Nat) (b : Prop) [Decidable b] :
      (if b then ((v.setFirings n k).setBit (INTC_SRC n) INTC_SRC_storm true).count INTC_STAT INTC_STAT_storms else v.setFirings n k).kiln = v.kiln := by
    split
    · unfold State.count State.countBy; simp only [setFld_rest, setBit_rest]; rfl
    · rfl
  have h' (v w : State) (b : Bool) (hv : v.kiln = s.kiln) (hw : w.kiln = v.kiln) : (if b = true then v else w).kiln = s.kiln := by
    cases b
    · exact hw.trans hv
    · exact hv
  exact h' _ _ _ (by simp only [setFld_rest]) (h _ _ _)

theorem noteFiring_kiln (s : State) (n : Nat) : (noteFiring s n).kiln = s.kiln := by
  unfold noteFiring; split
  · exact fireCount_kiln s n
  · rfl

theorem intcTake_kiln (s : State) (n : Nat) : (intcTake s n).kiln = s.kiln := by
  unfold intcTake; rw [holdStart_kiln]; simp only [setFld_rest]; rw [pulseTaken_kiln, noteFiring_kiln]

theorem pushOrigin_eq (s : State) (fast : Bool) : pushOrigin s fast = s.setKiln { s.kiln with origin := BitVec.ofNat 32 ((s.originDepth + 1) * 2 ^ 28 + (s.kiln.origin.toNat % 2 ^ 28 + cond fast (2 ^ (8 + s.originDepth)) 0 + cond s.ksup (2 ^ s.originDepth) 0)) } := rfl

theorem pushOrigin_of (s : State) (fast : Bool) (d : Nat) (hd : s.originDepth = d) (k : Bool) (hk : s.ksup = k) : pushOrigin s fast = s.setKiln { s.kiln with origin := BitVec.ofNat 32 ((d + 1) * 2 ^ 28 + (s.kiln.origin.toNat % 2 ^ 28 + (if fast = true then 2 ^ (8 + d) else 0) + (if k = true then 2 ^ d else 0))) } := by
  subst hd; subst hk; rw [pushOrigin_eq, Bool.cond_eq_ite, Bool.cond_eq_ite]

theorem pushOrigin_free (u : State) (fast : Bool) (n : Nat) : pushOrigin { u with free := n } fast = State.setKiln { u with free := n } { u.kiln with origin := BitVec.ofNat 32 ((u.originDepth + 1) * 2 ^ 28 + (u.kiln.origin.toNat % 2 ^ 28 + (if fast = true then 2 ^ (8 + u.originDepth) else 0) + (if u.ksup = true then 2 ^ u.originDepth else 0))) } :=
  pushOrigin_of { u with free := n } fast u.originDepth rfl u.ksup rfl

theorem entryBegins_none (s : State) :
    entryBegins s none = s.setKiln { s.kiln with waiting := false, load := none, zeroFresh := false, held := [] } := rfl

theorem kSvc_sup (s : State) (i : Ins) (h : s.ksup = true) : kSvc s i = framedEntry s 7 (s.kiln.pc + BitVec.ofNat 32 i.len) false i.immZ none none := by
  unfold kSvc; dsimp only; rw [if_pos h]

theorem kSvc_user (s : State) (i : Ins) (h : s.ksup = false) (hd : s.originDepth < 8) (o : Word) (ho : pushOrigin s true = s.setKiln { s.kiln with origin := o }) : kSvc s i =
    s.setKiln { s.kiln with
        svcPc := s.kiln.pc + BitVec.ofNat 32 i.len, svcStatus := s.kiln.status, svcNum := i.immZ, status := (s.kiln.status &&& 0xFFFF) ||| 0x10, origin := o,
        pc := s.kiln.svcVec &&& 0xFFFFFFFE, held := [] } := by
  unfold kSvc; dsimp only; rw [h, if_neg (by decide), if_neg (by omega), ho]
  unfold unfetch setKpc; simp only [kiln_setKiln, setKiln_setKiln]

theorem kSvc_full (s : State) (i : Ins) (h : s.ksup = false) (hd : 8 ≤ s.originDepth) : kSvc s i = lockUp s := by
  unfold kSvc; dsimp only; rw [h, if_neg (by decide), if_pos hd]

theorem exceptionEntry_interrupt (s : State) (n : Nat) (h1 : s.kilnRuns = true) (h2 : s.kiln.load = none) (h3 : s.kiln.haltReq = false) (h4 : s.kiln.waiting = false) (h5 : s.kiln.step = false)
    (h6 : s.kiln.late = []) (h7 : s.recognisable = some n) : exceptionEntry s = framedEntry s (32 + n) s.kiln.pc false 0 none (some n) := by
  have hw : wakeUp s = s := by unfold wakeUp; rw [if_neg (by rw [h4]; decide)]
  have he : s.kiln.late.isEmpty = true := by rw [h6]; rfl
  have hb : ∀ b, boundary s b (some n) = some (framedEntry s (32 + n) s.kiln.pc false 0 none (some n)) := by
    intro b; unfold boundary; simp only [he, Bool.not_true, Bool.false_eq_true, if_false]
  unfold exceptionEntry
  rw [if_neg (by rw [h1]; decide)]
  split
  · rename_i hl; rw [h2] at hl; cases hl
  · rw [if_neg (by simp [h3, h4])]
    simp only [hw, h5, h7, Bool.false_eq_true, if_false, hb]

/-- Words read from a stack in a TCM. -/
theorem stackRead_tcm (n : Nat) : ∀ (s : State) (a : Nat), (∀ i, i < 4 * n → inTcm (a + i) = true) →
    stackRead s a n = (s, (List.range n).map (fun j => BitVec.ofNat 32 (leOf (s.bytes (a + 4 * j) 4))), none) := by
  induction n with
  | zero => intro s a _; rfl
  | succ n ih =>
    intro s a h
    unfold stackRead
    have h0 : inTcm a = true := by simpa using h 0 (by omega)
    rw [if_pos h0]
    dsimp only
    rw [if_neg (by decide), if_neg (by decide), ih s (a + 4) (fun i hi => by rw [Nat.add_assoc]; exact h (4 + i) (by omega))]
    dsimp only
    rw [List.range_succ_eq_map, List.map_cons, List.map_map]
    congr 2
    congr 1
    apply List.map_congr_left
    intro j _
    simp only [Function.comp]
    rw [show a + 4 + 4 * j = a + 4 * (j + 1) from by omega]

theorem peekBytes_tcm (s : State) (a n : Nat) (h : ∀ i, i < n → inTcm (a + i) = true) : s.peekBytes a n = s.bytes a n := by
  induction n generalizing a with
  | zero => rfl
  | succ n ih =>
    unfold State.peekBytes State.bytes
    rw [ih (a + 1) (fun i hi => by rw [Nat.add_assoc]; exact h (1 + i) (by omega))]
    have := h 0 (by omega)
    rw [Nat.add_zero] at this
    have ht : s.target a = .tcm a := by
      unfold inTcm at this; simp only [Bool.or_eq_true, Bool.and_eq_true, decide_eq_true_eq] at this
      unfold State.target
      rcases this with h | h
      · rw [if_neg (by omega), if_pos h]
      · rw [if_neg (by omega), if_neg (by omega), if_pos h]
    have : s.peek a = s.byte a := by unfold State.peek; rw [ht]; rfl
    rw [this]

theorem kEret_eq (s : State) (i : Ins) (hs : s.ksup = true) : kEret s i =
    if (s.originDepth != 0 && s.kiln.origin.getLsbD (8 + s.originDepth - 1)) = true then
      if s.originBad (s.kiln.svcStatus &&& statusBits) = true then privReturn s
      else trace (unfetch (setKpc ((popOrigin s).setKiln { (popOrigin s).kiln with status := s.kiln.svcStatus &&& statusBits }) s.kiln.svcPc)) 3 0 0 s.kiln.svcPc.toNat
    else if (s.originDepth == 0) = true then privReturn s else eretFrame s i := by
  unfold kEret kPriv; rw [if_pos hs]

theorem popOrigin_eq (s : State) (d : Nat) (hd : s.originDepth = d) : popOrigin s = s.setKiln { s.kiln with origin := BitVec.ofNat 32 ((d - 1) * 2 ^ 28) ||| (s.kiln.origin &&& BitVec.ofNat 32 ((2 ^ (d - 1) - 1) * 257)) } := by
  subst hd; rfl

theorem privReturn_framed (s : State) (h : s.originDepth = 0 ∨ s.kiln.origin.getLsbD (8 + s.originDepth - 1) = false) : privReturn s = kfault s 8 s.kiln.ssp := by
  unfold privReturn; dsimp only; rw [if_neg]; rcases h with h | h <;> rw [h] <;> simp

theorem privReturn_fast (s : State) (h0 : s.originDepth ≠ 0) (h : s.kiln.origin.getLsbD (8 + s.originDepth - 1) = true) : privReturn s = kfault s 8 0 := by
  unfold privReturn; dsimp only; rw [if_pos]; rw [h]; simpa using h0

theorem originBad_eq (s : State) (w : Word) (h0 : s.originDepth ≠ 0) : s.originBad w = (w.getLsbD 4 != s.kiln.origin.getLsbD (s.originDepth - 1)) := by
  unfold State.originBad; dsimp only
  rw [show (s.originDepth == 0) = false from by simpa using h0, Bool.false_or]

/-- ERET of a framed entry whose frame lies in a TCM. -/
theorem eretFrame_tcm (s : State) (i : Ins) (p : State) (w : Nat → Word) (hw : ∀ j, w j = BitVec.ofNat 32 (leOf (s.bytes (s.kiln.ssp.toNat + 4 * j) 4)))
    (h4 : s.kiln.ssp.toNat % 4 = 0) (hside : s.kiln.side = none)
    (h : (0x100000 ≤ s.kiln.ssp.toNat ∧ s.kiln.ssp.toNat + 32 ≤ 0x120000) ∨ (0x200000 ≤ s.kiln.ssp.toNat ∧ s.kiln.ssp.toNat + 32 ≤ 0x220000))
    (hp : popOrigin s = p) :
    eretFrame s i =
      if s.originBad (w 1 &&& statusBits) = true then privReturn s
      else if (w 4 != 0 && !sideWord (w 4)) = true then kfault s 1 (BitVec.ofNat 32 i.word)
      else
        let r := p.setKiln { p.kiln with status := w 1 &&& statusBits, ssp := s.kiln.ssp + 32 }
        let at_ := BitVec.ofNat 32 (r.peekLE (s.kiln.ssp.toNat + 28) 4)
        trace (unfetch (setKpc (if (w 4 != 0) = true then sideIssue r (w 4) (w 5) (w 6) at_ (at_ + 4 == w 0) else r) (w 0))) 3 0 0 (w 0).toNat := by
  have hin := inTcm_of_within _ _ h
  unfold eretFrame
  dsimp only
  rw [if_neg (by simpa using h4)]
  have e1 := stackRead_tcm 2 s s.kiln.ssp.toNat (fun i hi => hin i (by omega))
  have e2 := stackRead_tcm 3 s (s.kiln.ssp.toNat + 16) (fun i hi => by rw [Nat.add_assoc]; exact hin (16 + i) (by omega))
  have l1 : (List.range 2).map (fun j => BitVec.ofNat 32 (leOf (s.bytes (s.kiln.ssp.toNat + 4 * j) 4))) = [w 0, w 1] := by rw [hw, hw]; rfl
  have l2 : (List.range 3).map (fun j => BitVec.ofNat 32 (leOf (s.bytes (s.kiln.ssp.toNat + 16 + 4 * j) 4))) = [w 4, w 5, w 6] := by
    rw [hw, hw, hw]; simp only [Nat.add_assoc]; rfl
  rw [l1] at e1; rw [l2] at e2
  have hsc : sideComplete s = s := by unfold sideComplete; rw [hside]
  simp only [e1, e2, hsc, ite_self, hp, List.getD_cons_zero, List.getD_cons_succ]

end Sys2Proof.Machine
end

