-- ==== Sys2Proof/Laws/Host.lean ====
section
/-! SUPPORT. What serving a host command does (R436 to R442): acknowledging a request leaves Falornyr's state, and a new command is checked and worked. -/

namespace Sys2Proof.Machine

theorem msgDue_fw (s : State) (i : Nat) : (msgDue s i).fw = s.fw := by
  unfold msgDue; split
  · generalize smSet (fun _ => 0) s.host.sent i (s.msixSent i + 1) = x
    try rfl
  · simp only [setPba_rest]

theorem hostDbSet_fw (s : State) (i : Nat) : (hostDbSet s i).fw = s.fw := by
  unfold hostDbSet; split
  · rfl
  · dsimp only; split
    · rw [msgDue_fw]; simp only [setReg_rest]
    · simp only [setReg_rest]

/-- Acknowledging a request mailbox leaves Falornyr's state. -/
theorem mbxAck_request_fw (s : State) (n id : Nat) (h : n < 4) : (mbxAck s n id).fw = s.fw := by
  unfold mbxAck mbxRefuse; split
  · have h4 : ¬ (n == 4) = true := by simp; omega
    have h5 : ¬ (n == 5) = true := by simp; omega
    dsimp only; rw [if_neg h4, if_neg h5]
    unfold ackBell; rw [if_pos h, hostDbSet_fw]; simp only [setBit_rest]
  · simp only [setBit_rest]

/-- A request that Falornyr copies and acknowledges, whose sequence is new (R436, R438). -/
theorem acceptCmd_new (s : State) (n : Nat) (hn : n < 4) (h : ∀ o, s.fw.last.lookup n ≠ some ((s.request n).seq, o)) :
    acceptCmd s n = (let g := mbxAck (s.setFw { s.fw with goes := s.fw.goes.erase n }) n 2
      g.setFw { g.fw with cmds := g.fw.cmds ++ [s.request n], last := smInsert n ((s.request n).seq, none) (smErase g.fw.last n) }) := by
  unfold acceptCmd idKiln; dsimp only
  generalize hg : mbxAck (s.setFw { s.fw with goes := s.fw.goes.erase n }) n 2 = g
  have e : g.fw.last = s.fw.last := by rw [← hg, mbxAck_request_fw _ _ _ hn]; rfl
  have : (g.fw.last.lookup n).filter (fun l => l.1 == (s.request n).seq) = none := by
    rw [e]; cases k : s.fw.last.lookup n with
    | none => rfl
    | some z =>
      obtain ⟨a, b⟩ := z
      refine Option.filter_eq_none_iff.mpr ?_
      intro x hx; cases hx; simp only [beq_iff_eq]; intro y; exact h b (by rw [k, y])
  rw [this]

/-- The oldest go of a mailbox without other commands, with a new sequence, is accepted, checked and worked (R436 to R442). -/
theorem hostServe_new (s : State) (n : Nat) (hn : n < 4) (op : Nat) (late : Bool) (count : Nat → Bool) (start more : State → HostCmd → State × Reply)
    (h1 : s.fwServes = true) (h2 : s.mbxBusy n = true) (h3 : s.fw.goes.head? = some n) (h4 : ∀ d ∈ s.fw.cmds, d.mbx ≠ n)
    (h5 : ∀ o, s.fw.last.lookup n ≠ some ((s.request n).seq, o)) (h6 : (s.request n).op = op) (h7 : hostOps.contains op = true) :
    hostServe s n op late count start more =
      (let u := acceptCmd s n
       match precheck u (s.request n) count with
       | some (st, det) => conclude u (s.request n) st det []
       | none => finish (s.request n) (start u (s.request n))) := by
  have cm : (s.request n).mbx = n ∧ (s.request n).told = false ∧ (s.request n).begun = false := ⟨rfl, rfl, rfl⟩
  have hc : (acceptCmd s n).fw.cmds = s.fw.cmds ++ [s.request n] := by
    rw [acceptCmd_new s n hn h5]; dsimp only
    show (mbxAck (s.setFw { s.fw with goes := s.fw.goes.erase n }) n 2).fw.cmds ++ [s.request n] = _
    rw [mbxAck_request_fw _ _ _ hn]; rfl
  unfold hostServe
  rw [if_neg (by simp [h1]; omega)]; dsimp only
  rw [if_pos (by rw [h2, h3, h6]; simp)]
  generalize s.request n = c at *
  generalize acceptCmd s n = u at *
  have f1 : u.fw.cmds.find? (fun c => c.mbx == n && c.told && c.op == op) = none := by
    rw [hc]; simp only [List.find?_eq_none, List.mem_append, List.mem_singleton]
    rintro x (hx | hx)
    · simp [h4 x hx]
    · subst hx; simp [cm]
  have f2 : u.fw.cmds.find? (fun c => c.mbx == n && !c.told) = some c := by
    rw [hc, List.find?_append, List.find?_eq_none.mpr (by intro x hx; simp [h4 x hx])]
    simp [cm]
  rw [f1]; dsimp only; rw [f2]; dsimp only
  rw [h6, h7, cm.2.2, if_neg (by decide), if_neg (by simp), if_neg (by decide)]
  all_goals cases precheck u c count <;> rfl

end Sys2Proof.Machine
end

