-- ==== Sys2Proof/Laws/System.lean ====
section
/-! SUPPORT. System registers, the side unit and BARRIER on Kiln. -/

namespace Sys2Proof.Machine

theorem bits_long (cc : BitVec 4) (arg : BitVec 20) (o5 o : Nat) : (Form.ins (.long cc arg) o5 o).bits 11 0 = arg.toNat % 4096 := by
  unfold Ins.bits bitsN; simp only [Form.ins]; omega

theorem sysReg_some (s : State) (n : Nat) (h : n ≤ 9) (v : Word) (hv : [s.kiln.status, s.kiln.vbar, s.kiln.usp, s.kiln.ssp, s.kiln.svcPc, s.kiln.svcStatus, s.kiln.svcNum, s.kiln.svcVec, s.kiln.origin, s.kiln.sidePc].getD n 0 = v) : s.sysReg n = some v := by
  subst hv
  match n, h with
  | 0, _ | 1, _ | 2, _ | 3, _ | 4, _ | 5, _ | 6, _ | 7, _ | 8, _ | 9, _ => rfl

theorem sysReg_none (s : State) (n : Nat) (h : 9 < n) : s.sysReg n = none := by
  match n, h with
  | n + 10, _ => rfl

theorem flags_word (w : Word) : (Flags.of w).word = w &&& 0xF := by
  have key : ∀ y : Fin 16, (cond (y.val.testBit 3) 8 0 + cond (y.val.testBit 2) 4 0 + cond (y.val.testBit 1) 2 0 + cond (y.val.testBit 0) 1 0) = y.val := by decide
  have hb : ∀ j, j < 4 → w.getLsbD j = (w.toNat % 16).testBit j := by
    intro j hj
    rw [show (16 : Nat) = 2 ^ 4 from rfl, Nat.testBit_mod_two_pow]; simp [hj, BitVec.getLsbD]
  apply BitVec.eq_of_toNat_eq
  rw [BitVec.toNat_and]
  show (BitVec.ofNat 32 _).toNat = w.toNat &&& 15
  rw [BitVec.toNat_ofNat, show (15 : Nat) = 2 ^ 4 - 1 from rfl, Nat.and_two_pow_sub_one_eq_mod]
  simp only [Flags.of]
  rw [hb 3 (by decide), hb 2 (by decide), hb 1 (by decide), hb 0 (by decide)]
  have := key ⟨w.toNat % 16, Nat.mod_lt _ (by decide)⟩
  simp only at this
  rw [this]; omega

theorem kMrs_none (s : State) (i : Ins) (n : Nat) (hn : i.bits 11 0 = n) (h : s.sysReg n = none) : kMrs s i = kfault s 1 (BitVec.ofNat 32 i.word) := by
  unfold kMrs; dsimp only; rw [hn, h]

theorem kMrs_some (s : State) (i : Ins) (n : Nat) (w : Word) (hn : i.bits 11 0 = n) (h : s.sysReg n = some w) :
    kMrs s i = if (n != 0 && !s.ksup) = true then kfault s 2 (BitVec.ofNat 32 i.word) else kdone (s.setKreg i.rd w) i.len := by
  unfold kMrs; dsimp only; rw [hn, h]

theorem kMsr_none (s : State) (i : Ins) (n : Nat) (hn : i.bits 11 0 = n) (h : s.sysReg n = none) : kMsr s i = kfault s 1 (BitVec.ofNat 32 i.word) := by
  unfold kMsr; dsimp only; rw [hn, h]

theorem kMsr_some (s : State) (i : Ins) (n : Nat) (w : Word) (hn : i.bits 11 0 = n) (h : s.sysReg n = some w) :
    kMsr s i = if (!s.ksup) = true then (if (n == 0) = true then kdone (setKflags s (Flags.of (s.kreg i.ra))) i.len else kfault s 2 (BitVec.ofNat 32 i.word))
      else if (n == 0) = true then (kdone s i.len).setSysReg 0 (s.kreg i.ra)
      else kdone (s.setSysReg n (s.kreg i.ra)) i.len := by
  unfold kMsr; dsimp only; rw [hn, h]

theorem setSysReg_8 (s : State) (w : Word) : s.setSysReg 8 w = s.setKiln { s.kiln with origin := BitVec.ofNat 32 ((if w.toNat / 2 ^ 28 ≤ 8 then w.toNat / 2 ^ 28 else s.kiln.origin.toNat / 2 ^ 28) * 2 ^ 28) ||| (w &&& (BitVec.ofNat 32 (2 ^ (if w.toNat / 2 ^ 28 ≤ 8 then w.toNat / 2 ^ 28 else s.kiln.origin.toNat / 2 ^ 28) - 1) ||| (BitVec.ofNat 32 (2 ^ (if w.toNat / 2 ^ 28 ≤ 8 then w.toNat / 2 ^ 28 else s.kiln.origin.toNat / 2 ^ 28) - 1) <<< 8))) } := by
  simp only [State.setSysReg]

theorem setSysReg_eq (s : State) (n : Nat) (w : Word) (h1 : n ≤ 9) (h2 : n ≠ 0) :
    let k := s.kiln
    let depth := if w.toNat / 2 ^ 28 ≤ 8 then w.toNat / 2 ^ 28 else k.origin.toNat / 2 ^ 28
    let keep := BitVec.ofNat 32 (2 ^ depth - 1)
    let after : List Kiln := [{ k with status := w &&& 0xFFFF0F9F }, { k with vbar := if w.toNat % 64 ≤ 0x3E then w &&& 0x3F else k.vbar }, { k with usp := w },
      { k with ssp := w }, { k with svcPc := w }, { k with svcStatus := w &&& 0xFFFF0F9F }, k, { k with svcVec := w },
      { k with origin := BitVec.ofNat 32 (depth * 2 ^ 28) ||| (w &&& (keep ||| (keep <<< 8))) }, k]
    s.setSysReg n w = s.setKiln (after.getD n k) := by
  intro k depth keep after
  match n, h1, h2 with
  | 1, _, _ =>
    show (if _ then _ else _) = s.setKiln { k with vbar := if w.toNat % 64 ≤ 0x3E then w &&& 0x3F else k.vbar }
    split <;> rfl
  | 2, _, _ | 3, _, _ | 4, _, _ | 5, _, _ | 6, _, _ | 7, _, _ | 9, _, _ => rfl
  | 8, _, _ => exact setSysReg_8 s w

theorem sideComplete_div (s : State) (op : KSide) (hs : s.kiln.side = some op) (ho : (⟨op.word.toNat, 4⟩ : Ins).op = 0x26) :
    sideComplete s = match sideQuot (⟨op.word.toNat, 4⟩ : Ins).f op.ra op.rb with
      | some r => (s.setKiln { s.kiln with side := none }).setKregAt op.sup (⟨op.word.toNat, 4⟩ : Ins).rd r
      | none => s.setKiln { s.kiln with side := none, sidePc := op.addr, zeroFresh := op.fresh, late := s.kiln.late ++ [(6, 0, op.addr)] } := by
  unfold sideComplete; rw [hs]; dsimp only; rw [ho]; rfl

theorem sideComplete_modr (s : State) (op : KSide) (hs : s.kiln.side = some op) (ho : (⟨op.word.toNat, 4⟩ : Ins).op = 0x27) :
    sideComplete s = match sideRem (⟨op.word.toNat, 4⟩ : Ins).f op.ra op.rb with
      | some r => (s.setKiln { s.kiln with side := none }).setKregAt op.sup (⟨op.word.toNat, 4⟩ : Ins).rd r
      | none => s.setKiln { s.kiln with side := none, sidePc := op.addr, zeroFresh := op.fresh, late := s.kiln.late ++ [(6, 0, op.addr)] } := by
  unfold sideComplete; rw [hs]; dsimp only; rw [ho]; rfl

theorem sideComplete_mul64 (s : State) (op : KSide) (hs : s.kiln.side = some op) (ho : (⟨op.word.toNat, 4⟩ : Ins).op = 0x28) :
    sideComplete s = ((s.setKiln { s.kiln with side := none }).setKregAt op.sup (⟨op.word.toNat, 4⟩ : Ins).rd (BitVec.ofNat 32 (sideProd (⟨op.word.toNat, 4⟩ : Ins).f op.ra op.rb).toNat)).setKregAt op.sup (⟨op.word.toNat, 4⟩ : Ins).rh
      (BitVec.ofNat 32 ((sideProd (⟨op.word.toNat, 4⟩ : Ins).f op.ra op.rb).toNat / 2 ^ 32)) := by
  unfold sideComplete; rw [hs]; dsimp only; rw [ho]; rfl

theorem word_lo (p : BitVec 64) : BitVec.ofNat 32 p.toNat = p.setWidth 32 := by
  apply BitVec.eq_of_toNat_eq; simp

theorem word_hi (p : BitVec 64) : BitVec.ofNat 32 (p.toNat / 2 ^ 32) = (p >>> 32).setWidth 32 := by
  apply BitVec.eq_of_toNat_eq; simp [Nat.shiftRight_eq_div_pow]

theorem kSide_eq (s : State) (i : Ins) (h : i.len = 4) : kSide s i = kdone (s.setKiln { s.kiln with side := some ⟨BitVec.ofNat 32 i.word, s.kreg i.ra, s.kreg i.rb, s.kiln.pc, true, s.ksup⟩ }) 4 := by
  unfold kSide; rw [h]; rfl

theorem sideComplete_none (s : State) (_ : s.kiln.late = []) (hs : s.kiln.side = none) : sideComplete s = s := by unfold sideComplete; rw [hs]

theorem kBarrier_free (s : State) (i : Ins) (hs : s.kiln.side = none) (hl : s.kiln.late = []) :
    kBarrier s i = if (drainAll s).kiln.late.isEmpty = true then kdone (drainAll s) i.len else takeLate (drainAll s) ((drainAll s).lateImprecise true) := by
  unfold kBarrier; dsimp only
  rw [sideComplete_none s hl hs]

theorem stalls_barrier (s : State) (f : Form) (op : KSide) (hs : s.kiln.side = some op) : s.stalls (Form.sys f 1) = false := by
  unfold State.stalls; rw [hs]; dsimp only
  cases f with
  | short cc arg =>
    have o : (Form.sys (.short cc arg) 1).op = 0x16 := by
      unfold Form.sys Ins.op; rw [show (Form.ins (.short cc (BitVec.ofNat 9 1)) 0x16 0x2E).isLong = false from rfl, if_neg (by decide)]
      unfold Ins.bits bitsN; simp only [Form.ins]; have := cc.isLt; simp only [BitVec.toNat_ofNat]; omega
    have r : (Form.sys (.short cc arg) 1).regs = [] := by
      unfold Ins.regs; rw [show (Form.sys (.short cc arg) 1).isLong = false from rfl, o]; rfl
    have b : (Form.sys (.short cc arg) 1).bits 8 0 = 1 := by
      unfold Form.sys Ins.bits bitsN; simp only [Form.ins, BitVec.toNat_ofNat]; omega
    have t : (Form.sys (.short cc arg) 1).stacks = [] := by
      unfold Ins.stacks; rw [show (Form.sys (.short cc arg) 1).isLong = false from rfl, b, o]; rfl
    rw [r, t, show (Form.sys (.short cc arg) 1).isLong = false from rfl]; rfl
  | long cc arg =>
    have o : (Form.sys (.long cc arg) 1).op = 0x2E := by
      unfold Form.sys Ins.op; rw [show (Form.ins (.long cc _) 0x16 0x2E).isLong = true from rfl, if_pos rfl]
      unfold Ins.bits bitsN; simp only [Form.ins]; have := BitVec.isLt (BitVec.ofNat 20 (arg.toNat / 2 ^ 12 * 2 ^ 12 + 1)); omega
    have r : (Form.sys (.long cc arg) 1).regs = [] := by
      unfold Ins.regs; rw [show (Form.sys (.long cc arg) 1).isLong = true from rfl, o]; rfl
    have b : (Form.sys (.long cc arg) 1).bits 11 0 = 1 := by
      unfold Form.sys; rw [bits_long, BitVec.toNat_ofNat]; omega
    have t : (Form.sys (.long cc arg) 1).stacks = [] := by
      unfold Ins.stacks; rw [show (Form.sys (.long cc arg) 1).isLong = true from rfl, b, o]; rfl
    rw [r, t, o]; rfl

theorem isBarrier_sys (f : Form) : (Form.sys f 1).isBarrier = true := by
  cases f with
  | short cc arg =>
    unfold Ins.isBarrier; rw [show (Form.sys (.short cc arg) 1).isLong = false from rfl]
    have o : (Form.sys (.short cc arg) 1).op = 0x16 := by
      unfold Form.sys Ins.op; rw [show (Form.ins (.short cc (BitVec.ofNat 9 1)) 0x16 0x2E).isLong = false from rfl, if_neg (by decide)]
      unfold Ins.bits bitsN; simp only [Form.ins]; have := cc.isLt; simp only [BitVec.toNat_ofNat]; omega
    have b : (Form.sys (.short cc arg) 1).bits 8 0 = 1 := by
      unfold Form.sys Ins.bits bitsN; simp only [Form.ins, BitVec.toNat_ofNat]; omega
    rw [o, b]; rfl
  | long cc arg =>
    unfold Ins.isBarrier; rw [show (Form.sys (.long cc arg) 1).isLong = true from rfl]
    have o : (Form.sys (.long cc arg) 1).op = 0x2E := by
      unfold Form.sys Ins.op; rw [show (Form.ins (.long cc _) 0x16 0x2E).isLong = true from rfl, if_pos rfl]
      unfold Ins.bits bitsN; simp only [Form.ins]; have := BitVec.isLt (BitVec.ofNat 20 (arg.toNat / 2 ^ 12 * 2 ^ 12 + 1)); omega
    have b : (Form.sys (.long cc arg) 1).bits 11 0 = 1 := by
      unfold Form.sys; rw [bits_long, BitVec.toNat_ofNat]; omega
    rw [o, b]; rfl

theorem setKiln_self (s : State) (k : Kiln) (h : k = s.kiln) : s.setKiln k = s := by subst h; rfl

theorem kilnIssue_barrier (s : State) (f : Form) (op : KSide) (hs : s.kiln.side = some op) (h : (s.setKiln { s.kiln with side := none }).issues .kiln (Form.sys f 1)) (body) :
    kilnIssue s (Form.sys f 1) body = body s := by
  have hb := stalls_barrier s f op hs
  have hB := isBarrier_sys f
  generalize Form.sys f 1 = i at *
  obtain ⟨⟨h1, h2, h3, h4, h5, h6, h7, h8, h9⟩, hu, hc⟩ := h
  have h1 : s.kilnRuns = true := h1
  have h2 : s.kiln.load = none := h2
  have h3 : s.kiln.haltReq = false := h3
  have h4 : s.kiln.waiting = false := h4
  have h5 : s.kiln.step = false := h5
  have h6 : s.kiln.late = [] := h6
  have h7 : s.recognisable = none := h7
  have h9 : s.bpMatch s.kiln.pc = none := h9
  have hw : wakeUp s = s := by unfold wakeUp; rw [h4]; rfl
  have hbd : boundary s (s.atBarrier i) none = none := by unfold boundary; rw [h6]; rfl
  have ha : s.atBarrier i = true := by unfold State.atBarrier; rw [hB, show undefIns true i = false from hu, show condPasses s.kflags i.cond = true from hc]; rfl
  have hi : issueIns s i body = body s := by
    have hd : behindSide s true = s := by unfold behindSide; rfl
    unfold issueIns; dsimp only
    rw [show condPasses s.kflags i.cond = true from hc, h9, show undefIns true i = false from hu, ha, hd]; simp
  unfold kilnIssue; dsimp only
  rw [h1, h2, h3, h4, hw, h5, h7, hbd, hb]
  simp [h6, hi]

theorem kBarrier_zero (s : State) (i : Ins) (op : KSide) (hb : s.kiln.sb = []) (hl : s.kiln.late = [])
    (e : sideComplete s = s.setKiln { s.kiln with side := none, sidePc := op.addr, zeroFresh := op.fresh, late := s.kiln.late ++ [(6, 0, op.addr)] }) :
    kBarrier s i = takeLate (s.setKiln { s.kiln with side := none, sidePc := op.addr, zeroFresh := op.fresh, late := [(6, 0, op.addr)] }) (!op.fresh) := by
  unfold kBarrier; dsimp only
  rw [e, hl]; dsimp only
  have d : drainAll (s.setKiln { s.kiln with side := none, sidePc := op.addr, zeroFresh := op.fresh, late := [(6, 0, op.addr)] }) = s.setKiln { s.kiln with side := none, sidePc := op.addr, zeroFresh := op.fresh, late := [(6, 0, op.addr)] } := by
    unfold drainAll; rw [show (s.setKiln { s.kiln with side := none, sidePc := op.addr, zeroFresh := op.fresh, late := [(6, 0, op.addr)] }).kiln.sb = s.kiln.sb from rfl, hb]; rfl
  simp only [List.nil_append]
  rw [d]; rfl

end Sys2Proof.Machine
end

