-- ==== Sys2Proof/Laws/LongBlock.lean ====
section
/-! SUPPORT. Long block instructions on Kiln, element by element. -/

namespace Sys2Proof.Machine

theorem elements_zero (i : Ins) (one) (limit : Nat) (s : State) : elements i one limit 0 s = kdone s i.len := by cases limit <;> rfl

/-- A long block instruction: a fresh count of 0, a misaligned pointer, or elements from the count or prog. -/
theorem kBlock_eq (s : State) (i : Ins) (limit count n : Nat) (masked : Bool) (al : Option Word) (one : State → Ins → Nat → Elem) (hs : s.kiln.step = false) (hm : decide (i.op < 0x23) = masked)
    (hn : n = if s.prog = 0 then count else if masked = true then min s.prog count else s.prog) :
    (count = 0 → s.prog = 0 → kBlock s i limit count al one = kdone s i.len) ∧
    (∀ w, al = some w → count ≠ 0 ∨ s.prog ≠ 0 → kBlock s i limit count al one = kfault s 3 w) ∧
    (al = none → kBlock s i limit count al one = elements i one limit n s) := by
  have hl : (if (s.prog == 0) = true then count else if i.op < 0x23 then min s.prog count else s.prog) = n := by
    rw [hn, ← hm]; simp only [beq_iff_eq, decide_eq_true_eq]
  refine ⟨fun h1 h2 => ?_, fun w h1 h2 => ?_, fun h1 => ?_⟩ <;> unfold kBlock <;> dsimp only <;> rw [hl, hs]
  · have : n = 0 := by rw [hn, h1, h2]; rfl
    rw [h1, h2, this]; exact elements_zero _ _ _ _
  · rw [if_neg (by simp only [Bool.and_eq_true, beq_iff_eq]; omega), h1]
  · rw [h1, ite_self]; rfl

theorem elements_stop (i : Ins) (one) (n : Nat) (s : State) (h : n ≠ 0) : elements i one 0 n s = setProg s n := by
  cases n with
  | zero => exact absurd rfl h
  | succ n => rfl

theorem elements_fault (i : Ins) (one) (n limit e : Nat) (info : Word) (s : State) (h : n ≠ 0) (ho : one s i n = .fault s e info) : elements i one (limit + 1) n s = kfault (setProg s n) e info := by
  cases n with
  | zero => exact absurd rfl h
  | succ n => unfold elements; rw [ho]

theorem elements_last (i : Ins) (one) (limit : Nat) (s t : State) (ho : one s i 1 = .done t) : elements i one (limit + 1) 1 s = kdone t i.len := by
  unfold elements; rw [ho]; exact elements_zero _ _ _ _

theorem elements_more (i : Ins) (one) (n : Nat) (s t : State) (h : 1 < n) (ho : one s i n = .done t) : elements i one 1 n s = setProg t (n - 1) := by
  match n, h with
  | n + 2, _ => unfold elements; rw [ho]; rfl

/-- What a long block instruction does, from what one element does. -/
theorem kBlock_all (s : State) (c : Nat → Instr) (i : Ins) (limit count n : Nat) (masked : Bool) (al : Option Word) (one : State → Ins → Nat → Elem) (a : Nat) (wr : Bool) (sz : Nat) (second : Prop) (E : State)
    (hx : ∀ l, s.issues .kiln i → ∀ t, kBlock s i l count al one = t → Does (c l) s t) (hlen : i.len = 4)
    (hm : decide (i.op < 0x23) = masked)
    (hn : n = if s.prog = 0 then count else if masked = true then min s.prog count else s.prog)
    (hf : inRegs a = true → s.ksup = false → one s i n = .fault s 2 (BitVec.ofNat 32 i.word))
    (hd : inTcm a = true → s.wpMatch wr a sz = none → second → one s i n = .done E) (h : s.issues .kiln i) :
      (count = 0 → s.prog = 0 → Does (c limit) s (kdone s 4)) ∧
      (∀ w, al = some w → count ≠ 0 ∨ s.prog ≠ 0 → Does (c limit) s (kfault s 3 w)) ∧
      (al = none → n ≠ 0 → Does (c 0) s (setProg s n)) ∧
      (al = none → n ≠ 0 → inRegs a = true → s.ksup = false → Does (c (limit + 1)) s (kfault (setProg s n) 2 (BitVec.ofNat 32 i.word))) ∧
      (al = none → inTcm a = true → s.wpMatch wr a sz = none → second →
        (n = 1 → Does (c (limit + 1)) s (kdone E 4)) ∧ (1 < n → Does (c 1) s (setProg E (n - 1)))) := by
  have hs : s.kiln.step = false := h.1.2.2.2.2.1
  have b := fun l => kBlock_eq s i l count n masked al one hs hm hn
  refine ⟨fun h1 h2 => hx _ h _ ?_, fun w h1 h2 => hx _ h _ ?_, fun h1 h2 => hx _ h _ ?_, fun h1 h2 h3 h4 => hx _ h _ ?_, fun h1 h2 h3 h4 => ⟨fun h5 => hx _ h _ ?_, fun h5 => hx _ h _ ?_⟩⟩
  · rw [(b limit).1 h1 h2, hlen]
  · exact (b limit).2.1 w h1 h2
  · rw [(b 0).2.2 h1, elements_stop _ _ _ _ h2]
  · rw [(b _).2.2 h1, elements_fault _ _ _ _ _ _ _ h2 (hf h3 h4)]
  · have o := hd h2 h3 h4
    rw [(b _).2.2 h1]; subst h5
    rw [elements_last _ _ _ _ _ o, hlen]
  · rw [(b _).2.2 h1, elements_more _ _ _ _ _ h5 (hd h2 h3 h4)]

theorem inRegs_of_inTcm (a : Nat) (h : inTcm a = true) : inRegs a = false := by
  unfold inTcm at h; unfold inRegs
  simp only [Bool.or_eq_true, Bool.and_eq_true, decide_eq_true_eq, decide_eq_false_iff_not] at h ⊢; omega

theorem elemRead_tcm (s : State) (i : Ins) (a n : Nat) (next) (h : inTcm a = true) (hw : s.wpMatch false a n = none) : elemRead s i a n next = next s (leOf (s.bytes a n)) := by
  unfold elemRead; dsimp only; rw [inRegs_of_inTcm a h, if_neg (by simp), hw]; dsimp only; rw [if_pos h]

theorem elemWrite_tcm (s : State) (i : Ins) (a n v : Nat) (next) (h : inTcm a = true) (hw : s.wpMatch true a n = none) : elemWrite s i a n v next = next ((keepFetched s i.len a n).setBytes a (leBytes n v)) := by
  unfold elemWrite; rw [inRegs_of_inTcm a h, if_neg (by simp), hw]; dsimp only; unfold kstore; rw [if_pos h]

theorem elemRead_user (s : State) (i : Ins) (a n : Nat) (next) (h : inRegs a = true) (hs : s.ksup = false) : elemRead s i a n next = .fault s 2 (BitVec.ofNat 32 i.word) := by
  unfold elemRead; dsimp only; rw [h, hs, if_pos (by decide)]

theorem elemWrite_user (s : State) (i : Ins) (a n v : Nat) (next) (h : inRegs a = true) (hs : s.ksup = false) : elemWrite s i a n v next = .fault s 2 (BitVec.ofNat 32 i.word) := by
  unfold elemWrite; rw [h, hs, if_pos (by decide)]

theorem misaligned_one (s : State) (n a : Nat) : s.misaligned n [a] = if (s.kreg a).toNat % n ≠ 0 then some (s.kreg a) else if (s.kreg a).toNat % n ≠ 0 then some (s.kreg a) else none := by
  simp only [State.misaligned, bne_iff_ne]; split <;> simp_all

theorem misaligned_two (s : State) (n a b : Nat) : s.misaligned n [a, b] = if (s.kreg a).toNat % n ≠ 0 then some (s.kreg a) else if (s.kreg b).toNat % n ≠ 0 then some (s.kreg b) else none := by
  simp only [State.misaligned, bne_iff_ne]

theorem op_long (cc : BitVec 4) (arg : BitVec 20) (o5 o : Nat) (h : o < 64) : (Form.ins (.long cc arg) o5 o).op = o := by
  unfold Ins.op; rw [show (Form.ins (.long cc arg) o5 o).isLong = true from rfl, if_pos rfl]
  unfold Ins.bits bitsN; simp only [Form.ins]
  have := arg.isLt; omega

end Sys2Proof.Machine
end

