-- ==== Sys2Proof/Laws/Threads.lean ====
section
/-! SUPPORT. What a thread instruction and a port operation do when they issue. -/

namespace Sys2Proof.Machine

/-- A thread instruction that issues and completes advances its thread. -/
theorem thread_does (s : State) (t : Fin 64) (c : Instr) (i : Ins) (body : State → Nat → Ins → TRes) (hx : exec c s = .next (settle (keepQueue s (threadRow s (.thread t) i body))))
    (h : s.issues (.thread t) i) (v : State) (e : body s.slotUsed t i = .done v) : Does c s (threadDone v t i.len) := by
  refine does_of hx ?_
  unfold threadRow; dsimp only; rw [thread_goes s t i _ h]; dsimp only; rw [e]

/-- A thread instruction that issues and cannot complete pauses its thread. -/
theorem thread_waits (s : State) (t : Fin 64) (c : Instr) (i : Ins) (body : State → Nat → Ins → TRes) (hx : exec c s = .next (settle (keepQueue s (threadRow s (.thread t) i body))))
    (h : s.issues (.thread t) i) (v : State) (w r : Nat) (e : body s.slotUsed t i = .block v w r) : Does c s (threadBlock v t w r) := by
  refine does_of hx ?_
  unfold threadRow; dsimp only; rw [thread_goes s t i _ h]; dsimp only; rw [e]

/-- A thread instruction that issues and faults stops its thread with the cause. -/
theorem thread_faults (s : State) (t : Fin 64) (c : Instr) (i : Ins) (body : State → Nat → Ins → TRes) (hx : exec c s = .next (settle (keepQueue s (threadRow s (.thread t) i body))))
    (h : s.issues (.thread t) i) (k : Nat) (e : body s.slotUsed t i = .fault k) : Does c s (threadFault s.slotUsed t k) := by
  refine does_of hx ?_
  unfold threadRow; dsimp only; rw [thread_goes s t i _ h]; dsimp only; rw [e]

/-- A port operation with a result writes it to the named register. -/
theorem port_gives (s : State) (t : Fin 64) (c : Instr) (i : Ins) (body) (hx : exec c s = .next (settle (keepQueue s (threadRow s (.thread t) i body))))
    (h : s.issues (.thread t) i) (id : Word) (rd : Nat) (R : PortRes) (e : body s.slotUsed t i = tPort t id (some rd) R) (v : State) (w : Word) (hR : R = .done v w) : Does c s (threadDone (v.setTreg t rd w) t i.len) :=
  thread_does s t c i body hx h _ (by rw [e, hR]; rfl)

/-- A port operation without a result completes. -/
theorem port_does (s : State) (t : Fin 64) (c : Instr) (i : Ins) (body) (hx : exec c s = .next (settle (keepQueue s (threadRow s (.thread t) i body))))
    (h : s.issues (.thread t) i) (id : Word) (R : PortRes) (e : body s.slotUsed t i = tPort t id none R) (v : State) (w : Word) (hR : R = .done v w) : Does c s (threadDone v t i.len) :=
  thread_does s t c i body hx h _ (by rw [e, hR]; rfl)

/-- A port operation that waits pauses its thread on the port. -/
theorem port_waits (s : State) (t : Fin 64) (c : Instr) (i : Ins) (body) (hx : exec c s = .next (settle (keepQueue s (threadRow s (.thread t) i body))))
    (h : s.issues (.thread t) i) (id : Word) (rd : Option Nat) (R : PortRes) (e : body s.slotUsed t i = tPort t id rd R) (v : State) (hR : R = .block v) : Does c s (threadBlock v t 6 id.toNat) :=
  thread_waits s t c i body hx h _ _ _ (by rw [e, hR]; rfl)

/-- A port operation that faults stops its thread. -/
theorem port_faults (s : State) (t : Fin 64) (c : Instr) (i : Ins) (body) (hx : exec c s = .next (settle (keepQueue s (threadRow s (.thread t) i body))))
    (h : s.issues (.thread t) i) (id : Word) (rd : Option Nat) (R : PortRes) (e : body s.slotUsed t i = tPort t id rd R) (k : Nat) (hR : R = .fault k) : Does c s (threadFault s.slotUsed t k) :=
  thread_faults s t c i body hx h _ (by rw [e, hR]; rfl)

/-- An identifier of no port. -/
theorem portUse_none (s : State) (t : Nat) (id : Word) (h : id.toNat / 256 ≠ 1 ∨ 96 ≤ id.toNat % 256) : portUse s t id = .error 4 := by
  unfold portUse; dsimp only; rw [if_pos (by simpa using h)]

/-- A port that is not enabled. -/
theorem portUse_off (s : State) (t : Nat) (id : Word) (n : Nat) (h : id.toNat = 256 + n) (hn : n < 96) (he : (s.reg (KPORT_EN (n / 16))).getLsbD (n % 16) = false) : portUse s t id = .error 11 := by
  unfold portUse; dsimp only
  rw [if_neg (by simp only [Bool.or_eq_true, bne_iff_ne, decide_eq_true_eq]; omega), show id.toNat % 256 = n from by omega, he, if_pos (by decide)]

/-- A port that another thread owns. -/
theorem portUse_owned (s : State) (t : Nat) (id : Word) (n : Nat) (h : id.toNat = 256 + n) (hn : n < 96) (he : (s.reg (KPORT_EN (n / 16))).getLsbD (n % 16) = true)
    (ho : s.bit (KPORT_CFG n) KPORT_CFG_owned = true ∧ s.fld (KPORT_CFG n) KPORT_CFG_owner ≠ t) : portUse s t id = .error 12 := by
  unfold portUse; dsimp only
  rw [if_neg (by simp only [Bool.or_eq_true, bne_iff_ne, decide_eq_true_eq]; omega), show id.toNat % 256 = n from by omega, he, if_neg (by decide), ho.1, if_pos (by simpa using ho.2)]

/-- A port a thread may use. -/
theorem portUse_ok (s : State) (t : Nat) (id : Word) (n : Nat) (h : id.toNat = 256 + n ∧ n < 96 ∧ (s.reg (KPORT_EN (n / 16))).getLsbD (n % 16) = true ∧
    ¬ (s.bit (KPORT_CFG n) KPORT_CFG_owned = true ∧ s.fld (KPORT_CFG n) KPORT_CFG_owner ≠ t)) : portUse s t id = .ok n := by
  obtain ⟨h, hn, he, ho⟩ := h
  unfold portUse; dsimp only
  rw [if_neg (by simp only [Bool.or_eq_true, bne_iff_ne, decide_eq_true_eq]; omega), show id.toNat % 256 = n from by omega, he, if_neg (by decide), if_neg (by simpa using ho)]

/-- PCFG of a port. -/
theorem tPcfg_port (s : State) (t : Nat) (i : Ins) (h : (s.treg t i.ra).toNat / 256 ≠ 5) : tPcfg s t i = withPort s t (s.treg t i.ra) none fun n =>
      match i.bits 11 8 with
      | 0 => pcfgMode s t n (s.treg t i.rb)
      | 1 => pcfgCond s n (s.treg t i.rb)
      | 2 => pcfgCompare s n (s.treg t i.rb)
      | 3 => pcfgOutTime s n (s.treg t i.rb)
      | 4 => pcfgClock s n (s.treg t i.rb)
      | _ => pcfgWidth s n (s.treg t i.rb) := by
  unfold tPcfg; dsimp only; rw [if_neg (by simpa using h)]; try rfl

/-- PCFG of a clock block. -/
theorem tPcfg_clock (s : State) (t : Nat) (i : Ins) (h : (s.treg t i.ra).toNat / 256 = 5) : tPcfg s t i = match clockUse (s.treg t i.ra) with
    | .error c => .fault c
    | .ok k =>
      match i.bits 11 8 with
      | 0 => tPort t (s.treg t i.ra) none (pcfgCbSource s k (s.treg t i.rb))
      | 1 => tPort t (s.treg t i.ra) none (pcfgCbGate s k (s.treg t i.rb))
      | 2 => tPort t (s.treg t i.ra) none (pcfgCbTime s k KPORT_CB_TIME_hi (s.treg t i.rb))
      | 3 => tPort t (s.treg t i.ra) none (pcfgCbTime s k KPORT_CB_TIME_lo (s.treg t i.rb))
      | _ => .fault 1 := by
  unfold tPcfg; dsimp only; rw [if_pos (by simpa using h)]; try rfl

/-- A port that a thread may not use. -/
theorem withPort_error (s : State) (t : Nat) (id : Word) (rd) (op) (c : Nat) (h : portUse s t id = .error c) : withPort s t id rd op = .fault c := by
  unfold withPort; rw [h]

/-- A port that a thread may use. -/
theorem withPort_ok (s : State) (t : Nat) (id : Word) (rd) (op) (n : Nat) (h : portUse s t id = .ok n) : withPort s t id rd op = tPort t id rd (op n) := by
  unfold withPort; rw [h]

/-- The sub-operation of an instruction word. -/
theorem threadOp_bits (cc : BitVec 4) (arg : BitVec 20) (op m sub : Nat) : (threadOp cc arg op m sub).bits 11 8 = ((arg.toNat &&& (0xFFFFF - m * 2 ^ 8)) + sub * 2 ^ 8) / 256 % 16 := by
  unfold threadOp Ins.bits bitsN; simp only [Form.ins, BitVec.toNat_ofNat]; omega

theorem and_clear (n : Nat) : (n &&& (0xFFFFF - 0xF * 2 ^ 8)) / 256 % 16 = 0 := by
  rw [show (256 : Nat) = 2 ^ 8 from rfl, show (16 : Nat) = 2 ^ 4 from rfl, ← Nat.shiftRight_eq_div_pow, Nat.shiftRight_and_distrib, Nat.and_mod_two_pow]
  simp

/-- The sub-operation of a word that fixes it. -/
theorem threadOp_sub (cc : BitVec 4) (arg : BitVec 20) (op sub : Nat) (h : sub < 16) : (threadOp cc arg op 0xF sub).bits 11 8 = sub := by
  rw [threadOp_bits]; have := and_clear arg.toNat; omega

/-- Completing counts the instruction and leaves every other register. -/
theorem reg_threadDone (v : State) (t n a : Nat) (h : a ≠ KIND_T_ISSUE t) : (threadDone v t n).reg a = v.reg a := by
  have : (threadDone v t n).reg a = ((v.setThr t { v.thr t with state := .ready, wait := 0, res := 0, pc := (v.thr t).pc + BitVec.ofNat 32 n }).count (KIND_T_ISSUE t) KIND_T_ISSUE_count).reg a := rfl
  rw [this]; unfold State.count
  rw [reg_countBy_ne _ _ _ h]; rfl

/-- A bus keeper's level is no register. -/
theorem padKeep_regs (s t : State) (n : Nat) : (padKeep s t n).regs = t.regs := by
  unfold padKeep; split <;> rfl

theorem padKeep_kind (s t : State) (n : Nat) : (padKeep s t n).kind = t.kind := by
  unfold padKeep; split <;> rfl

/-- A port that goes off. -/
theorem portOff_regs (s : State) (n : Nat) : (portOff s n).regs = (((portRestart s n).setBit (KPORT_CFG n) KPORT_CFG_owned false).setFld (KPORT_CFG n) KPORT_CFG_mode 0).regs := by
  unfold portOff; dsimp only; rw [padKeep_regs]; rfl

/-- A port that restarts clears its condition. -/
theorem fld_portRestart (s : State) (n : Nat) (f : Fld) : (portRestart s n).fld (KPORT_CFG n) f = (s.setFld (KPORT_CFG n) KPORT_CFG_cond 0).fld (KPORT_CFG n) f := by
  unfold portRestart; dsimp only
  unfold State.fld
  rw [reg_setFld_self, reg_setFld_self]; rfl

/-- A port's own state is no register. -/
theorem fld_setKport (s : State) (n : Nat) (p : Port) (a : Nat) (f : Fld) : (s.setKport n p).fld a f = s.fld a f := rfl

/-- A port's own state leaves the threads. -/
theorem setKport_kind (s : State) (n : Nat) (p : Port) : (s.setKport n p).kind = s.kind := rfl

theorem portRestart_kind (s : State) (n : Nat) : (portRestart s n).kind = s.kind := by
  unfold portRestart; dsimp only; simp only [setFld_rest, setKport_kind]

theorem portOff_kind (s : State) (n : Nat) : (portOff s n).kind = s.kind := by
  refine (padKeep_kind _ _ _).trans ((setKport_kind _ _ _).trans ?_)
  simp only [setFld_rest, setBit_rest, portRestart_kind]

/-- The mode that PCFG sets. -/
theorem pcfgMode_done (u : State) (t n : Nat) (x : Word) (h : ¬ (decide (5 ≤ bitsN x.toNat 2 0) || bitsN x.toNat 7 6 != 0 || bitsN x.toNat 31 15 != 0) = true) :
    ∃ v, pcfgMode u t n x = .done v 0 ∧ v.fld (KPORT_CFG n) KPORT_CFG_mode = x.toNat % 8 ∧ v.fld (KPORT_CFG n) KPORT_CFG_cond = 0 ∧ v.kind = u.kind := by
  have e8 : bitsN x.toNat 2 0 = x.toNat % 8 := by unfold bitsN; omega
  unfold pcfgMode; dsimp only
  rw [if_neg h]
  by_cases h0 : (bitsN x.toNat 2 0 == 0) = true
  · rw [if_pos h0]
    refine ⟨_, rfl, ?_, ?_, ?_⟩
    · rw [fld_congr (padKeep_regs _ _ n), fld_congr (portOff_regs _ n), fld_setFld_self _ _ _ _ (by decide) (by decide)]
      have : x.toNat % 8 = 0 := by rw [← e8]; simpa using h0
      rw [this]; rfl
    · rw [fld_congr (padKeep_regs _ _ n), fld_congr (portOff_regs _ n), fld_setFld_apart _ _ _ _ _ _ (by decide) (by decide) (by decide),
        fld_setBit_apart _ _ _ _ _ _ (by decide) (by decide) (by decide), fld_portRestart, fld_setFld_self _ _ _ _ (by decide) (by decide)]; rfl
    · rw [padKeep_kind, portOff_kind]; simp only [setFld_rest, setBit_rest, portRestart_kind]
  · rw [if_neg h0]
    refine ⟨_, rfl, ?_, ?_, ?_⟩
    · rw [fld_congr (padKeep_regs _ _ n), fld_setKport, fld_setFld_self _ _ _ _ (by decide) (by decide), e8]
      show x.toNat % 8 % 8 = x.toNat % 8
      omega
    · rw [fld_congr (padKeep_regs _ _ n), fld_setKport,
        fld_setFld_apart _ _ _ _ _ _ (by decide) (by decide) (by decide), fld_setFld_apart _ _ _ _ _ _ (by decide) (by decide) (by decide), fld_setBit_apart _ _ _ _ _ _ (by decide) (by decide) (by decide),
        fld_setFld_apart _ _ _ _ _ _ (by decide) (by decide) (by decide), fld_setFld_apart _ _ _ _ _ _ (by decide) (by decide) (by decide), fld_setBit_apart _ _ _ _ _ _ (by decide) (by decide) (by decide),
        fld_setBit_apart _ _ _ _ _ _ (by decide) (by decide) (by decide), fld_setBit_apart _ _ _ _ _ _ (by decide) (by decide) (by decide),
        fld_portRestart, fld_setFld_self _ _ _ _ (by decide) (by decide)]; rfl
    · rw [padKeep_kind, setKport_kind]; simp only [setFld_rest, setBit_rest, portRestart_kind]

end Sys2Proof.Machine
end

