-- ==== Sys2Proof/WellFormed.lean ====
section
/-! DEFINITION. Which commands are well formed: an operand beyond what its type bounds is one that an access or event can have. -/

namespace Sys2Proof

/-- Whether an access to a data BAR of a size lies within it and keeps the endpoint's limits: a write of 1 to 256 bytes, a read of 1 to 512 (R425, R427). -/
def barFits (off : Nat) (wr : Option (List Byte)) (len size : Nat) : Bool :=
  match wr with
  | some bs => !bs.isEmpty && bs.length ≤ 256 && off + bs.length ≤ size
  | none => 0 < len && len ≤ 512 && off + len ≤ size

/-- Whether a command is well formed. -/
def Instr.wf (i : Instr) : Bool :=
  match i with
  | .registerWrite _ _ a _ size => 0x40000000 ≤ a.toNat && a.toNat % 2 ^ size.val == 0
  | .readClear _ _ a size => 0x40000000 ≤ a.toNat && a.toNat % 2 ^ size.val == 0
  | .blockEnableWrite _ _ => true
  | .startSequenceDone _ => true
  | .stopSequenceDone _ => true
  | .drainTimeout _ => true
  | .blockReset _ => true
  | .blockResetRelease _ => true
  | .qdrRead _ _ len _ => 0 < len
  | .qdrWrite _ _ bytes _ => !bytes.isEmpty
  | .correctiveWriteBack _ => true
  | .addressParityError _ => true
  | .scrubGranule _ _ => true
  | .trainChannel _ => true
  | .trainDone _ _ _ => true
  | .zqRecalibrate _ _ => true
  | .eyeTrackWindow _ _ early late => early + late == 4096
  | .trackingInject _ => true
  | .dozeEnter => true
  | .dozeExit => true
  | .mirrorConfigWrite _ _ => true
  | .intlvWrite _ => true
  | .csramAccess _ _ wr len _ => match wr with | some bs => !bs.isEmpty | none => 0 < len
  | .frameBoundary _ => true
  | .composeLine _ => true
  | .spriteLineEval _ => true
  | .lastLineComposed _ => true
  | .palDataAccess _ _ => true
  | .paletteLoad _ _ => true
  | .paletteLoadDone _ => true
  | .sprReloadRequest _ => true
  | .updateHoldWrite _ _ => true
  | .beamPrefetchFill _ _ => true
  | .beamEnd _ => true
  | .beamWaitl _ => true
  | .beamWaitlRelease _ => true
  | .beamWaitx _ => true
  | .beamWaitxRelease _ => true
  | .beamWr _ => true
  | .beamBwr _ => true
  | .beamSkip _ => true
  | .beamLoop _ => true
  | .beamSig _ => true
  | .beamTouch _ => true
  | .pipeAssign _ _ => true
  | .videoBaseWrite _ _ _ _ => true
  | .vidCoefDataAccess _ _ => true
  | .gammaDataAccess _ _ => true
  | .teSample _ => true
  | .teMissing _ => true
  | .btaTeRequest _ _ => true
  | .btaTimeout _ => true
  | .linePacketStart _ _ => true
  | .linePacketEnd _ => true
  | .videoLineStart _ _ => true
  | .headPacketSend _ _ => true
  | .headPacketDone _ resp _ => resp.length ≤ 16
  | .headMarkWrite _ _ => true
  | .flipRecordRead _ => true
  | .headCtrlWrite _ _ => true
  | .deskewDone _ => true
  | .rowCheckDone _ _ => true
  | .digestComplete _ => true
  | .witnessCtrlWrite _ _ => true
  | .witnessLogConfigWrite _ _ _ => true
  | .witnessStatus _ => true
  | .witnessBind _ => true
  | .witnessEnable _ => true
  | .witnessLogAck _ => true
  | .blitGo => true
  | .blitAbort => true
  | .blkEnd => true
  | .blkCopy => true
  | .blkFill => true
  | .blkBlend => true
  | .blkConvert => true
  | .blkExpand => true
  | .blkWait => true
  | .blkWaitline => true
  | .blkWaitRelease => true
  | .blkSig => true
  | .blkBurst => true
  | .dmaGo _ => true
  | .dmaAbort _ => true
  | .dmaPause _ => true
  | .dmaResume _ => true
  | .dmaTrigSw _ => true
  | .dmaTrigger _ => true
  | .dmaDescLoad _ _ => true
  | .dmaBurst => true
  | .dmaBurstDone _ _ => true
  | .dmaDescEnd _ => true
  | .audioBlockBoundary _ => true
  | .audioRenderDone => true
  | .voiceKeyOn _ => true
  | .voiceKeyOff _ => true
  | .fxEnd _ => true
  | .fxMulk _ _ _ _ => true
  | .fxMack _ _ _ _ => true
  | .fxMul _ _ _ _ => true
  | .fxAdd _ _ _ _ => true
  | .fxSub _ _ _ _ => true
  | .fxDrd _ _ _ => true
  | .fxDwr _ _ => true
  | .fxSat _ _ _ => true
  | .fxLdk _ _ _ => true
  | .audioPortLock _ _ => true
  | .audioPortLockLoss _ => true
  | .audioFifoAccess _ _ => true
  | .mov _ _ => true
  | .add _ _ => true
  | .sub _ _ => true
  | .and _ _ => true
  | .or _ _ => true
  | .xor _ _ => true
  | .cmp _ _ => true
  | .tst _ _ => true
  | .movi _ _ _ => true
  | .addi _ _ => true
  | .cmpi _ _ => true
  | .lsl _ _ _ => true
  | .lsr _ _ _ => true
  | .asr _ _ _ => true
  | .ld _ _ _ => true
  | .st _ _ _ => true
  | .ldsp _ _ _ => true
  | .stsp _ _ _ => true
  | .branch _ _ => true
  | .call _ _ => true
  | .jr _ _ => true
  | .not _ _ _ => true
  | .neg _ _ _ => true
  | .adc _ _ _ => true
  | .sbc _ _ _ => true
  | .rsb _ _ _ => true
  | .bic _ _ _ => true
  | .mvn _ _ _ => true
  | .mul _ _ _ => true
  | .shv _ _ _ => true
  | .clz _ _ _ => true
  | .subi _ _ _ => true
  | .andi _ _ _ => true
  | .ori _ _ _ => true
  | .xori _ _ _ => true
  | .movw _ _ _ => true
  | .movt _ _ _ => true
  | .ldw _ _ _ => true
  | .ldh _ _ _ => true
  | .ldhs _ _ _ => true
  | .ldb _ _ _ => true
  | .ldbs _ _ _ => true
  | .stw _ _ _ => true
  | .sth _ _ _ => true
  | .stb _ _ _ => true
  | .lea _ _ _ => true
  | .ldm _ _ _ _ => true
  | .stm _ _ _ _ => true
  | .bmov _ _ _ _ => true
  | .bfill _ _ _ _ => true
  | .bcrc _ _ _ _ => true
  | .div _ _ _ => true
  | .modr _ _ _ => true
  | .mul64 _ _ _ => true
  | .sideUnitComplete => true
  | .adr _ _ _ => true
  | .svc _ _ _ => true
  | .mrs _ _ _ => true
  | .msr _ _ _ => true
  | .nop _ _ => true
  | .barrier _ _ => true
  | .iflush _ _ => true
  | .wait _ _ => true
  | .eret _ _ => true
  | .brk _ _ => true
  | .portIn _ _ _ => true
  | .portOut _ _ _ => true
  | .pcfgMode _ _ _ => true
  | .pcfgCondition _ _ _ => true
  | .pcfgCompare _ _ _ => true
  | .pcfgOutputTime _ _ _ => true
  | .pcfgClock _ _ _ => true
  | .pcfgWidth _ _ _ => true
  | .pcfgCbSource _ _ _ => true
  | .pcfgCbGate _ _ _ => true
  | .pcfgCbHigh _ _ _ => true
  | .pcfgCbLow _ _ _ => true
  | .pts _ _ _ => true
  | .cinData _ _ _ => true
  | .cinControl _ _ _ => true
  | .coutData _ _ _ => true
  | .coutControl _ _ _ => true
  | .coutEnd _ _ _ => true
  | .fork _ _ _ => true
  | .join _ _ _ => true
  | .lock _ _ _ => true
  | .unlock _ _ _ => true
  | .texit _ _ _ => true
  | .tid _ _ _ => true
  | .getch _ _ _ => true
  | .freech _ _ _ => true
  | .route _ _ _ => true
  | .ewait _ _ _ => true
  | .earm _ _ _ => true
  | .edis _ _ _ => true
  | .eclr _ _ _ => true
  | .exceptionEntry => true
  | .storeBufferIssue _ => true
  | .loadDataReturn _ => true
  | .slotIssue => true
  | .slotTableSwitch => true
  | .threadStart _ => true
  | .threadFree _ => true
  | .tokenDeliver _ => true
  | .kendRxRead _ => true
  | .kendTxWrite _ _ => true
  | .kendTxSend _ => true
  | .channelAbandon _ => true
  | .stallDetect => true
  | .portConditionMet _ _ _ => true
  | .portWordIn _ _ bits => [1, 8, 16, 32].contains bits.length
  | .portWordBoundary _ _ => true
  | .portTimedOutput _ => true
  | .filterPulseLost _ => true
  | .portContention _ _ => true
  | .actuatorTrip _ => true
  | .kportLockSet => true
  | .pinFunctionSwitch _ => true
  | .extlLevelChange _ _ _ => true
  | .guardTrip _ => true
  | .guardClear _ => true
  | .guardLock => true
  | .safeReleaseWrite _ => true
  | .bankSupplyChange _ _ => true
  | .timebaseStep _ => true
  | .timebasePairRead _ => true
  | .timerMatch _ => true
  | .timerWrap _ => true
  | .timerCmpWrite _ _ _ => true
  | .timerCapture _ _ => true
  | .edgeOverrun _ => true
  | .timerCapRead _ => true
  | .timerCntRead _ _ => true
  | .adcStart => true
  | .adcConversionDone _ => true
  | .interruptSourceFire _ => true
  | .intcEoi _ => true
  | .holdoffExpire _ => true
  | .stormWindowExpire _ => true
  | .stormClear _ => true
  | .mbxLockRead _ _ => true
  | .mbxLockWrite _ _ _ => true
  | .mbxDataWrite _ _ _ _ => true
  | .mbxGo _ _ _ => true
  | .mbxAck _ _ => true
  | .agentLock _ => true
  | .agentUnlock _ => true
  | .agentWrite _ => true
  | .agentRead _ => true
  | .agentGo _ => true
  | .agentAck _ => true
  | .agentRing _ => true
  | .doorbellSet _ _ _ => true
  | .doorbellClear _ _ _ => true
  | .doorbellMaskWrite _ _ => true
  | .msixUnmask _ => true
  | .ledgerSqTailWrite _ => true
  | .ledgerNop _ => true
  | .ledgerVerify _ => true
  | .ledgerSeal _ => true
  | .ledgerAdmit _ => true
  | .ledgerBatch _ => true
  | .seenCheck _ => true
  | .seenInsert _ => true
  | .ledgerHash _ => true
  | .frameSeal _ => true
  | .frameOpen _ => true
  | .sessionDerive _ => true
  | .sessionClear _ => true
  | .keyPut _ => true
  | .xlate _ => true
  | .ledgerCompletion _ => true
  | .xlEnd _ => true
  | .xlFail _ => true
  | .xlMti _ => true
  | .xlBmap _ => true
  | .xlFld _ => true
  | .xlJnb _ => true
  | .xlJmp _ => true
  | .xlCmpi _ => true
  | .xlMovi _ => true
  | .xlNum _ => true
  | .xlLut _ => true
  | .xlPut _ => true
  | .xlCpy _ => true
  | .xlPhash _ => true
  | .floorWrite _ => true
  | .cordTailWrite _ => true
  | .cordSeqRead => true
  | .seenSaltWrite _ _ _ => true
  | .keyLoad => true
  | .keyLoadDone => true
  | .moneyEvent _ _ _ _ _ => true
  | .transactionTimeout _ => true
  | .batchAckVerify _ _ => true
  | .batchClose => true
  | .frameReceive _ f _ _ => !f.isEmpty
  | .helloReceived _ => true
  | .controlReceived _ _ => true
  | .dataReceived _ _ => true
  | .recordReceived => true
  | .batchHead => true
  | .batchPart => true
  | .pointReceived => true
  | .replicaReceived => true
  | .takeoverReceived => true
  | .helloTimer _ => true
  | .ackTimer _ => true
  | .retransmitTimeout _ _ => true
  | .pathTimeout _ _ => true
  | .heartbeatTimer _ _ => true
  | .portLinkChange _ _ => true
  | .fallbackTimer _ => true
  | .keeperSilence => true
  | .batchIdTimeout _ _ => true
  | .txqTailWrite _ _ => true
  | .txDescriptorDone _ _ => true
  | .txtsRead _ => true
  | .ptpMessage => true
  | .bar0Access off size _ _ => [1, 2, 4, 8].contains size && off.toNat + size ≤ 0x10000
  | .bar2Access off wr len _ => barFits off wr len 0x10000000
  | .bar4Access off wr len _ => barFits off wr len 0x1000000
  | .hostLinkDown => true
  | .hostLinkUp gen width => 1 ≤ gen && gen ≤ 4 && width ≤ 2
  | .flr => true
  | .sysVersion _ => true
  | .sysProfileSelect _ => true
  | .sysWindowOpen _ => true
  | .sysWindowClose _ => true
  | .sysBar4 _ => true
  | .sysTime _ => true
  | .sysCert _ => true
  | .sysImageStage _ => true
  | .sysEcho _ => true
  | .powerState _ _ => true
  | .powerStatus _ => true
  | .powerWake _ => true
  | .powerLimit _ => true
  | .sceneCommit _ => true
  | .scenePalette _ => true
  | .sceneBlit _ _ => true
  | .sceneAssign _ => true
  | .sceneBeam _ => true
  | .sceneStatus _ => true
  | .headConfig _ _ => true
  | .headEnable _ _ => true
  | .headMark _ => true
  | .headStatus _ => true
  | .headPacket _ _ => true
  | .audioVoice _ => true
  | .audioBus _ => true
  | .audioRoute _ => true
  | .audioFxLoad _ => true
  | .audioPort _ => true
  | .audioStatus _ => true
  | .kindleLoad _ => true
  | .kindleSlots _ _ => true
  | .kindleStart _ => true
  | .kindleStop _ _ => true
  | .kindlePorts _ => true
  | .kindlePolicy _ => true
  | .kindleStatus _ => true
  | .ledgerStatus _ => true
  | .ledgerPersisted _ => true
  | .ledgerRecover _ => true
  | .ledgerExport _ => true
  | .ledgerSubmit _ => true
  | .ledgerProgram _ => true
  | .floorConfig _ => true
  | .floorTable _ => true
  | .floorPeerAdd _ => true
  | .floorPeerRemove _ => true
  | .floorResync _ _ => true
  | .floorPtp _ => true
  | .floorStatus _ => true
  | .healthRead _ => true
  | .healthClear _ => true
  | .healthAlert _ => true
  | .healthHeartbeat _ => true
  | .debugUnlock _ => true
  | .debugTrace _ => true
  | .debugPeek _ => true
  | .hostPushBoot _ => true
  | .fuseLoad _ => true
  | .fuseLoadDone => true
  | .fuseProgram _ => true
  | .bootStart _ => true
  | .noonEntry => true
  | .oscStable _ => true
  | .oscLost _ => true
  | .pllLocked _ => true
  | .pllUnlock _ => true
  | .rootSwitch _ _ => true
  | .pllCtrlWrite _ _ _ => true
  | .clkSrcWrite _ => true
  | .frcTrim _ => true
  | .frcTrimStep => true
  | .freqMeasure _ => true
  | .freqMeasureDone _ => true
  | .powerOn => true
  | .resetNAssert _ => true
  | .resetRelease _ => true
  | .upSequenceStep => true
  | .pgRise _ => true
  | .pgTimeout => true
  | .powerFault _ => true
  | .downSequenceStep => true
  | .midnightRequest => true
  | .wake pins _ => pins < 16
  | .avsStep _ _ vout status => vout < 65536 && status < 65536
  | .thermalSample temps => temps.length == 4
  | .throttleRelease => true
  | .coolDownExpire => true
  | .thermalTripClear => true
  | .threadFaultPolicy _ => true
  | .stallRecovery => true
  | .headRestart _ => true
  | .xtalLossPolicy _ => true
  | .healthPoll noted => noted.length == 8
  | .heartbeatPost => true
  | .wdogEnable _ => true
  | .wdogKick _ => true
  | .wdogExpire => true
  | .extest cells => cells.all (·.1 < 96)
  | .samplePreload _ => true
  | .idcode => true
  | .extestPulse cells => cells.all (·.1 < 96)
  | .extestTrain cells => cells.all (·.1 < 96)
  | .fusestat => true
  | .dbgacc _ _ _ _ => true
  | .bypass => true
  | .debugAuth => true
  | .debugAuthDone => true
  | .debugLock => true
  | .kilnHalt => true
  | .kilnResume => true
  | .kilnStep => true
  | .dbgMemAccess _ _ => true
  | .threadHalt _ => true
  | .threadResume _ => true
  | .benchTest _ => true
  | .benchTestDone _ _ => true
  | .alwaysOnSupplyLoss => true
  | .guardInputInactive _ => true
  | .powerManagementStateChange _ => true
  | .serialPortFrame _ rx => rx.own.length ≤ 16 && rx.alt.length ≤ 16
  | .pointSend => true

end Sys2Proof
end

