-- ==== Sys2Proof/Tests/Slice0.lean ====
section
/-! SUPPORT. Tests: a refused term for each well-formedness check, values from the spec's tables and examples, and for each statement states and
operands that meet its hypotheses, among them the boundaries at which its clauses meet. -/

set_option maxRecDepth 100000

namespace Sys2Proof.Tests

open Sys2Proof.Machine

/-! ## Small states -/

/-- The islands run. -/
def up : State := { State.reset with ember := { State.reset.ember with phase := .run } }

/-- Registers set. -/
def put (s : State) (l : List (Nat × Word)) : State := l.foldl (fun s e => s.setReg e.1 e.2) s

/-- Block `n` in state `v`. -/
def blk (s : State) (n v : Nat) : State := s.setFld (FAB_BLK_STAT n) FAB_BLK_STAT_state v

/-- The blocks listed ON. -/
def lit (s : State) (l : List Nat) : State := l.foldl (fun s n => blk s n 2) s

/-- Thread 5 in its slot, with registers. -/
def slot (regs : List (Nat × Word)) : State :=
  { lit up [14] with kind := { (lit up [14]).kind with slot := some 5 } }.setThr 5 { Thr.init with state := .ready, pc := 0x12000010, g := regs }

/-- Kiln at Supervisor or User with status and registers. -/
def kilnAt (status : Word) (regs : List (Nat × Word)) : State :=
  let s := regs.foldl (fun s e => s.setKreg e.1 e.2) up
  s.setKiln { s.kiln with status := status, pc := 0x100100, ssp := 0x11F000 }

/-- Channels 0 and 1 ON, trained, with 32 MB each. -/
def mem : State := [0, 1].foldl (fun s k => (s.setBit (MEM_TRAIN_STAT k) MEM_TRAIN_STAT_trained true).setFld (MEM_CH_CFG k) MEM_CH_CFG_density 3) (lit up [1, 2])

/-- Head 0 in command mode with 16 by 32 pixels, a frame in progress, its set both bands, and `h` changed. -/
def headAt (f : HeadSt → HeadSt) : State :=
  let s := put (lit up [7, 9]) [(HEAD_SIZE 0, 0x00200010), (HEAD_VTOTAL 0, 40)]
  s.setHead 0 (f { s.head 0 with mode := 2, inFrame := true, fset := 3, pushOk := true })

/-! ## Ill-formed commands are refused -/

theorem test_wf_register_access : (Instr.registerWrite 0 true 0x3FFFFFFC 0 2).wf = false ∧ (Instr.registerWrite 0 true 0x40000002 0 2).wf = false ∧
    (Instr.readClear 0 true 0x40000001 1).wf = false ∧ (Instr.readClear 0 true 0x40000002 1).wf = true := by decide
theorem test_wf_memory_access : (Instr.qdrRead 0 0x20000000 0 []).wf = false ∧ (Instr.qdrWrite 0 0x20000000 [] []).wf = false ∧
    (Instr.csramAccess 0 0x10000000 none 0 []).wf = false ∧ (Instr.csramAccess 0 0x10000000 (some []) 1 []).wf = false := by decide
theorem test_wf_eye_track_window : (Instr.eyeTrackWindow 0 0 2048 2047).wf = false ∧ (Instr.eyeTrackWindow 0 0 2048 2048).wf = true := by decide
theorem test_wf_head_packet_done : (Instr.headPacketDone 0 (List.replicate 17 0) false).wf = false ∧ (Instr.headPacketDone 0 (List.replicate 16 0) false).wf = true := by
  decide
theorem test_wf_port_word_in : (Instr.portWordIn 0 0 (List.replicate 9 true)).wf = false ∧ (Instr.portWordIn 0 0 (List.replicate 8 true)).wf = true := by decide
theorem test_wf_frame_receive : (Instr.frameReceive 0 [] true 0).wf = false := by decide
theorem test_wf_bar_access : (Instr.bar0Access 0 3 true 0).wf = false ∧ (Instr.bar0Access 0xFFFC 4 true 0).wf = true ∧ (Instr.bar0Access 0xFFFD 4 true 0).wf = false ∧
    (Instr.bar2Access 0 none 0 []).wf = false ∧ (Instr.bar2Access 0 (some []) 0 []).wf = false ∧ (Instr.bar2Access 0 none 512 []).wf = true ∧ (Instr.bar2Access 0 none 513 []).wf = false ∧
    (Instr.bar2Access 0xFFFFFFF none 2 []).wf = false ∧ (Instr.bar2Access 0 (some (List.replicate 257 0)) 0 []).wf = false ∧ (Instr.bar4Access 0 none 0 []).wf = false ∧
    (Instr.bar4Access 0 (some []) 0 []).wf = false ∧ (Instr.bar4Access 0xFFFFFF (some [0, 0]) 0 []).wf = false := by decide
theorem test_wf_host_link_up : (Instr.hostLinkUp 0 0).wf = false ∧ (Instr.hostLinkUp 5 0).wf = false ∧ (Instr.hostLinkUp 4 3).wf = false := by decide
theorem test_wf_power : (Instr.wake 16 false).wf = false ∧ (Instr.avsStep 0 true 65536 0).wf = false ∧ (Instr.avsStep 0 true 0 65536).wf = false := by decide
theorem test_wf_health_poll : (Instr.healthPoll [0, 0, 0, 0, 0, 0, 0]).wf = false := by decide
theorem test_wf_boundary_cells : (Instr.extest [(96, true)]).wf = false ∧ (Instr.extestPulse [(96, true)]).wf = false ∧ (Instr.extestTrain [(96, true)]).wf = false := by decide
theorem test_wf_serial_port_frame : (Instr.serialPortFrame 0 ⟨List.replicate 17 0, []⟩).wf = false ∧ (Instr.serialPortFrame 0 ⟨[], List.replicate 17 0⟩).wf = false := by decide

/-! ## Steps, queues, wires -/

theorem wit_IdleStepIsOneTimebaseCycle : State.reset.pending = [] ∧ State.reset.trc = [] ∧ State.reset.fw.ended = [] ∧ (∀ k < 16, State.reset.tmrRun k = false) ∧
    State.reset.ember.tbOn = false ∧ ({ up with ember := { up.ember with tbOn := true } } : State).reg TB_ADJ = 0 ∧ up.tbAcc = 0 ∧ up.tbSteps = [] ∧
    ({ up with tbSteps := [-7] } : State).tbSteps = [-7] := by decide
theorem wit_EveryStepSettlesWires : ∃ t, step (State.reset.setPending [.powerOn]) = .next t := ⟨_, rfl⟩
theorem wit_CanonicalMemoriesWithEqualBytesAreEqual : (State.reset.setBytes 0x10000000 [0, 7]).memWf = true ∧ (State.reset.setBytes 0x10000000 [0, 7]).mem ≠ [] := by decide
theorem wit_FieldWriteFollowsAccessCode : TB_CTRL_mono.hi < 32 ∧ TB_CTRL_mono.lo ≤ TB_CTRL_mono.hi := by decide
theorem wit_ReservedEncodingLeavesItsField : ∃ r ∈ (regRow (MEM_MIRROR 0)).toList, ∃ f ∈ r.fields, f.acc = .rw ∧ f.legal 5 = true ∧ f.legal 6 = false := by decide
theorem wit_RegisterAccessReachesItsRegister : SYS_PROFILE / 0x10000 = 0x4000 ∧ SYS_PROFILE % 4 = 0 ∧ (regRow SYS_PROFILE).isSome = true ∧ up.ember.phase = .run ∧
    State.reset.ember.phase ≠ .run ∧ SYS_PROFILE ≠ SYS_WDOG_CTRL ∧ SYS_PROFILE ≠ SYS_WDOG_KICK := by decide

/-! ## Blocks -/

theorem wit_EnableWrittenDuringASequence : (blk up 8 1).blkState 8 = 1 ∧ (blk up 8 3).blkState 8 = 3 := by decide
theorem wit_BlockStateTransitions : up.blkState 8 = 0 ∧ (blk up 8 2).blkState 8 = 2 ∧ (blk up 8 1).bit (FAB_BLK_STAT 8) FAB_BLK_STAT_pending_stop = false ∧
    ((blk up 8 1).setBit (FAB_BLK_STAT 8) FAB_BLK_STAT_pending_stop true).bit (FAB_BLK_STAT 8) FAB_BLK_STAT_pending_stop = true ∧
    ((blk up 9 1).setBit (CLK_PLL_CTRL 5) CLK_PLL_CTRL_locked true).bit (CLK_PLL_CTRL 5) CLK_PLL_CTRL_locked = true ∧
    (blk up 8 3).drained 8 = true ∧ (blk up 8 3).sending 8 = false ∧ (blk up 8 3).bit (FAB_BLK_STAT 8) FAB_BLK_STAT_pending_start = false ∧
    ((blk up 9 3).setHead 0 { HeadSt.init with pkt := some ⟨0, 0, 0, true⟩ }).sending 9 = true := by decide
theorem wit_BlockResetIsRefusedUnlessOn : up.blkState 8 ≠ 2 ∧ (blk up 8 1).blkState 8 ≠ 2 ∧ (blk up 8 3).blkState 8 ≠ 2 := by decide
theorem wit_BlockResetHoldsThenReleases : (blk up 8 2).blkOn 8 = true ∧ (blk up 8 2).idleMode 8 = false ∧
    (put (blk up 8 2) [(BLK_STAT, 0)]).blockIdle 8 = true ∧ ({ blk up 8 2 with blkReset := [(8, true)] } : State).inReset 8 = true ∧ up.inReset 8 = false := by decide

/-! ## Memory -/

theorem wit_QdrReadFollowsTable33 : up.target 0x30000000 = .beyond ∧ mem.target 0x30000000 = .qdr 0 0 ∧ mem.wrapper (blkChannel 0) = none ∧ mem.inTracking 0 0 = false ∧
    mem.eccAt (aliasAddr 0 0) = 0 ∧ (mem.setEcc (aliasAddr 0 0) 1).eccAt (aliasAddr 0 0) = 1 ∧ (mem.setEcc (aliasAddr 0 0) 2).eccAt (aliasAddr 0 0) = 2 ∧
    mem.mirrorOf MEM_MIRROR_primary 0 0 = none ∧ (blk mem 1 0).wrapper (blkChannel 0) = some 2 ∧ ({ mem with blkReset := [(1, true)] } : State).wrapper (blkChannel 0) = some 3 := by decide
/-- Channel 0 mirrors the 1 MB from 1 MB on into channel 1. -/
def mirrored : State := put mem [(MEM_MIRROR 0, setF (setF (setF (setF 0 MEM_MIRROR_valid 1) MEM_MIRROR_mirror 1) MEM_MIRROR_base 4) MEM_MIRROR_size 4)]
theorem wit_QdrWriteStoresItsBytes : mirrored.target 0x30100000 = .qdr 0 0x100000 ∧ mirrored.mirrorOf MEM_MIRROR_primary 0 0x100000 = some 0 ∧
    mirrored.mirrorOf MEM_MIRROR_primary 0 0x1FFFF8 = some 0 ∧ mirrored.mirrorOf MEM_MIRROR_primary 0 0x200000 = none ∧ mirrored.mirrorOf MEM_MIRROR_primary 0 0xFFFF8 = none ∧
    mirrored.mirrorOf MEM_MIRROR_mirror 1 0x100000 = some 0 ∧ mirrored.inTracking 0 0x100000 = false ∧ mirrored.inTracking 1 0x100000 = false ∧
    mirrored.chanTrained 1 = true ∧ 0x100000 < mirrored.chanCapacity 1 ∧ mirrored.blkOn (blkChannel 0) = true ∧ (blk mirrored 2 0).blkOn (blkChannel 1) = false ∧
    ({ mirrored with blkReset := [(2, true)] } : State).inReset (blkChannel 1) = true ∧ mem.inTracking 0 (mem.chanCapacity 0 - 8) = true := by decide
theorem wit_WriteCancelsCorrectiveWriteBack : mem.target 0x30000007 = .qdr 0 7 ∧ 0x30000007 % 8 + [(0 : Byte)].length ≤ 8 ∧ mem.wrapper (blkChannel 0) = none ∧
    (mem.addWb 0x30000000 (List.replicate 8 1)).wb.lookup 0x30000000 ≠ none ∧ mem.wb.lookup 0x30000000 = none := by decide
theorem wit_MemoryCommandsKeepCanonicalMemory : (mem.setBytes 0x30000000 [1, 0, 2]).memWf = true := by decide
/-- Channel 0 in training; tracking at its last step; patrol on; doze permitted. -/
def training : State := put mem [(MEM_TRAIN_CTRL, 1)]
/-- Every source states a tolerance just above the limit, and doze is enabled. -/
def calm : State := (List.range 7).foldl (fun s i => s.setFld (MEM_LTR i) MEM_LTR_tolerance 501) (mem.setBit MEM_DOZE_CFG MEM_DOZE_CFG_enable true)
theorem wit_MemoryIslandEvents : mem.blkOn (blkChannel 0) = true ∧ (training.fld MEM_TRAIN_CTRL MEM_TRAIN_CTRL_start).testBit 0 = true ∧ mem.chanTrained 0 = true ∧
    ({ mem with capture := [(5, 15)] } : State).captureOf 0 5 = 15 ∧ ({ mem with capture := [(5, -15)] } : State).captureOf 0 5 = -15 ∧
    (mem.setBit (MEM_CH_CFG 0) MEM_CH_CFG_ap_en true).bit (MEM_CH_CFG 0) MEM_CH_CFG_ap_en = true ∧ mem.mayDoze = false ∧
    calm.mayDoze = true ∧ (mem.setBit MEM_SCRUB MEM_SCRUB_enable true).bit MEM_SCRUB MEM_SCRUB_enable = true ∧
    mem.bit MEM_DOZE_STAT MEM_DOZE_STAT_dozing = false ∧ (mem.setBit MEM_DOZE_STAT MEM_DOZE_STAT_dozing true).bit MEM_DOZE_STAT MEM_DOZE_STAT_dozing = true := by decide
theorem wit_MirrorAndInterleaveWritesAreChecked : mem.mirrorOk 0 (mirrored.reg (MEM_MIRROR 0)) = true ∧ mem.mirrorOk 0 0 = false ∧
    bitOf (setF 0 MEM_INTLV_enable 1) MEM_INTLV_enable = true ∧ mem.chanTrained 1 = true ∧ mem.chanTrained 2 = false := by decide
theorem wit_CsramAccessReadsAndStores : 0x107FFFF8 % 8 + 8 ≤ 8 ∧ (lit up [0]).wrapper 0 = none ∧ up.wrapper 0 = some 2 ∧ (lit up [0]).eccAt 0x10000000 = 0 ∧
    ((lit up [0]).setEcc 0x10000000 1).eccAt 0x10000000 = 1 ∧ ((lit up [0]).setEcc 0x10000000 2).eccAt 0x10000000 = 2 := by decide

/-! ## Picture -/

/-- A video pipe serves slot 0 of head 0. -/
def piped : State := put (lit up [7, 9]) [(SCENE_ASSIGN 32, setF 0 SCENE_ASSIGN_present 1)]
theorem wit_PaletteGammaAndTapAccess : (put (lit up [7]) [(SCENE_PAL_INDEX 0, 0x80007FFF)]).palIndex 0 = 0x7FFF ∧ piped.coefSel 0 ≠ none ∧
    (put (lit up [7]) (((List.range 8).map (fun k => (SCENE_ASSIGN (32 + k), 0))))).coefSel 0 = none ∧
    (put (lit up [7]) [(SCENE_GAMMA_INDEX 0, setF (setF 0 SCENE_GAMMA_INDEX_channel 2) SCENE_GAMMA_INDEX_entry 1023)]).fld (SCENE_GAMMA_INDEX 0) SCENE_GAMMA_INDEX_entry = 1023 := by
  decide
/-- A palette copy under way or waiting. -/
def copying (waits : Bool) : State := headAt (fun h => { h with palJob := some ⟨waits, 1, 2, 3⟩ })
theorem wit_HeldWritesPaletteLoadAndReload : ((headAt id).head 0).palJob = none ∧ ((copying false).head 0).palJob.any (fun j => !j.waits) = true ∧
    ((copying true).head 0).palJob.any (·.waits) = true ∧ (copying false).blkOn 7 = true ∧ (blk (copying false) 7 0).blkOn 7 = false ∧
    bitOf (setF 0 SCENE_PAL_LOAD_go 1) SCENE_PAL_LOAD_go = true ∧ (headAt id).bit (SCENE_UPDATE 0) SCENE_UPDATE_hold = false ∧
    ((headAt id).setBit (SCENE_UPDATE 0) SCENE_UPDATE_hold true).bit (SCENE_UPDATE 0) SCENE_UPDATE_hold = true := by decide
/-- Sprites are enabled. -/
def sprites (f : HeadSt → HeadSt) : State := (headAt f).setBit (SCENE_SPR_CTRL 0) SCENE_SPR_CTRL_enable true
theorem wit_SpriteEvaluationKeepsItsLimits : (sprites id).bit (SCENE_SPR_CTRL 0) SCENE_SPR_CTRL_enable = true ∧ (sprites id).lineOpen 0 = true ∧ (sprites id).wantsLine 0 1 = true ∧
    (sprites id).evaluated 0 1 = false ∧ (sprites (fun h => { h with evals := [⟨1, [], none⟩] })).evaluated 0 1 = true ∧ (sprites (fun h => { h with line := 31 })).wantsLine 0 32 = false := by
  decide
/-- Head 0 seeded. -/
def seeded (f : HeadSt → HeadSt) : State := put (headAt f) [(HEAD_BEAM 0, setF (setF 0 HEAD_BEAM_seeded 1) HEAD_BEAM_period 4000000)]
theorem wit_FrameAndLineProgress : (seeded id).boundaryOk 0 = true ∧ (seeded (fun h => { h with starting := true })).boundaryOk 0 = false ∧ (headAt id).lineOpen 0 = true ∧
    (headAt id).inSet 0 31 = true ∧ (headAt id).unsent 0 0 = true ∧ (headAt (fun h => { h with fset := 1, line := 16 })).inSet 0 16 = false ∧
    (headAt (fun h => { h with slots := List.replicate 48 ⟨0, 0, []⟩ })).lineOpen 0 = true ∧ (headAt id).beamPast 0 = true ∧
    (put (headAt id) [(SCENE_BEAM_STAT 0, setF 0 SCENE_BEAM_STAT_running 1)]).beamPast 0 = false ∧ (headAt (fun h => { h with line := 32 })).lineOpen 0 = false ∧
    (headAt id).useBit 0 (SCENE_SPR_CTRL 0) SCENE_SPR_CTRL_coll_full = false ∧
    ((headAt (fun h => { h with fset := 1, line := 16 })).setBit (SCENE_SPR_CTRL 0) SCENE_SPR_CTRL_coll_full true).useBit 0 (SCENE_SPR_CTRL 0) SCENE_SPR_CTRL_coll_full = true := by decide
theorem wit_PipesAndVideoBasesWaitForTheBoundary : piped.videoAccess 0 0 = some 32 ∧ (put piped [(SCENE_ASSIGN 33, setF 0 SCENE_ASSIGN_pending 1)]).videoAccess 0 1 = none ∧ piped.pipeOff 32 SCENE_ASSIGN_cur_head = false ∧ (blk piped 9 0).pipeOff 32 SCENE_ASSIGN_cur_head = true ∧
    bitOf (setF 0 SCENE_ASSIGN_park 1) SCENE_ASSIGN_park = true := by decide
/-- Head 0's beam list runs with words buffered. -/
def beam (ws : List Word) (f : HeadSt → HeadSt := id) : State :=
  put (headAt (fun h => f { h with buf := ws, beamBase := 0x10000000, beamLen := 64, pc := 0x10000000 })) [(SCENE_BEAM_STAT 0, setF 0 SCENE_BEAM_STAT_running 1)]
theorem wit_BeamWaitsReleaseAndStop : (beam [0]).beamCmd 0 0 = some 0 ∧ (beam [0x10000020]).beamCmd 0 1 = some 0x10000020 ∧ (beam [0x1000001F]).height 0 = 32 ∧
    (beam [0x2000000F]).beamCmd 0 2 = some 0x2000000F ∧ (beam [0x2000000F]).lineComposed 0 = true ∧ (beam [0x20000002]).beamCmd 0 0 = none ∧
    ((beam [] (fun h => { h with wait := .line })).head 0).wait = .line ∧ ((beam [] (fun h => { h with wait := .col 70 })).head 0).wait = .col 70 := by decide
theorem wit_BeamWritesLandWhereTheirClassSays : (beam [0x30000000, 7]).beamCmd 0 3 = some 0x30000000 ∧ (beam [0x30000000]).beamCmd 0 3 = none ∧ (beam [0x40000000, 9]).beamCmd 0 4 = some 0x40000000 ∧
    (beam [0x44000000]).beamCmd 0 4 = some 0x44000000 ∧ (0x44000000 : Word).getLsbD 26 = true ∧ (beam [0x50010000]).beamCmd 0 5 = some 0x50010000 ∧
    (beam [0x60004000]).beamCmd 0 6 = some 0x60004000 ∧ (beam [0x70000003]).beamCmd 0 7 = some 0x70000003 ∧ (beam [0x80000000]).beamCmd 0 8 = some 0x80000000 ∧
    (beam [0x80000000]).cmdMode 0 = true ∧ (beam []).beamRunning 0 = true ∧ beamClass (4 * 1023) = 0 ∧ (beam []).blkOn 7 = true ∧
    (blk (beam [0x44000000]) 7 0).beamCmd 0 4 = some 0x44000000 ∧ (blk (beam [0x44000000]) 7 0).blkOn 7 = false := by decide

/-! ## Display heads and their witness -/

/-- Head 0 takes its samples by bus turn-around. -/
def byBus (f : HeadSt → HeadSt) : State := (seeded f).setFld (HEAD_CTRL 0) HEAD_CTRL_te_src 1
theorem wit_TearingEffectSeedsTracksAndLosesTheModel : (headAt id).cmdMode 0 = true ∧ (headAt id).blkOn (blkHead 0) = true ∧ (headAt id).fld (HEAD_CTRL 0) HEAD_CTRL_te_src = 0 ∧
    (byBus id).fld (HEAD_CTRL 0) HEAD_CTRL_te_src = 1 ∧ ((byBus (fun h => { h with bta := some 0 })).head 0).bta.isSome = true ∧ (headAt id).bit (HEAD_BEAM 0) HEAD_BEAM_seeded = false ∧
    ((headAt (fun h => { h with tLast := some 0 })).head 0).tLast.isSome = true ∧ (seeded id).bit (HEAD_BEAM 0) HEAD_BEAM_seeded = true ∧ (seeded id).period 0 = 4000000 ∧
    ((250000 : Int)).natAbs ≤ 4000000 / 16 ∧ (byBus id).lanesFree 0 = true ∧ (byBus id).bit (HEAD_STAT 0) HEAD_STAT_bta_stuck = false ∧
    (headAt id).bit (HEAD_TE 0) HEAD_TE_falling = false ∧ ((headAt id).setBit (HEAD_TE 0) HEAD_TE_falling true).bit (HEAD_TE 0) HEAD_TE_falling = true ∧
    ((byBus id).setBit (HEAD_BEAM 0) HEAD_BEAM_seeded false).lanesFree 0 = true ∧
    ((byBus (fun h => { h with pkt := some ⟨0, 0, 0, true⟩ })).setBit (HEAD_BEAM 0) HEAD_BEAM_seeded false).lanesFree 0 = false ∧
    ((byBus (fun h => { h with mode := 0, bta := some 0 })).head 0).bta.isSome = true ∧ (byBus (fun h => { h with mode := 0, bta := some 0 })).cmdMode 0 = false := by decide
theorem wit_LinePacketsLeaveInOrderAndFreeTheirSlots : (headAt id).lanesFree 0 = true ∧ (headAt id).nextLine 0 0 = some 0 ∧
    (headAt (fun h => { h with fset := 2 })).nextLine 0 0 = some 16 ∧ (headAt (fun h => { h with pushOk := false })).nextLine 0 0 = none ∧
    ((headAt (fun h => { h with slots := [⟨0, 0, []⟩] })).head 0).slots.find? (fun l => l.frame == 0 && l.line == 0) = some ⟨0, 0, []⟩ ∧
    (headAt (fun h => { h with mode := 0 })).cmdMode 0 = false ∧ (put (headAt (fun h => { h with mode := 0 })) [(HEAD_VID_H 0, setF 0 HEAD_VID_H_htotal 100)]).geomOk 0 = true ∧
    ((headAt (fun h => { h with pkt := some ⟨0, 31, 0, true⟩, sendNext := 32 })).head 0).pkt = some ⟨0, 31, 0, true⟩ ∧
    (headAt (fun h => { h with sendNext := 32 })).frameSent 0 0 = true ∧ (headAt (fun h => { h with sendNext := 31 })).frameSent 0 0 = false ∧
    ((headAt (fun h => { h with starting := true })).head 0).starting = true ∧ (headAt id).geomOk 0 = true ∧ (put (headAt (fun h => { h with starting := true })) [(HEAD_SIZE 0, 0)]).geomOk 0 = false ∧
    (blk (headAt (fun h => { h with pkt := some ⟨0, 31, 0, true⟩ })) 9 3).blkOn (blkHead 0) = false := by decide
/-- Head 0 in video mode, at line `v` of a frame of its 32 active lines and a front porch, its boundary past. -/
def videoAt (v : Nat) : State :=
  put (headAt (fun h => { h with mode := 0, vline := v, vbound := true })) [(HEAD_VID_H 0, setF 0 HEAD_VID_H_htotal 100), (HEAD_VID_V 0, setF 0 HEAD_VID_V_vfp 4)]
theorem wit_LinePacketsLeaveInOrderAndFreeTheirSlots_video : (videoAt 0).boundaryOk 0 = false ∧ (videoAt 0).geomOk 0 = true ∧ (videoAt 0).videoTop 0 = 0 ∧ (videoAt 0).lanesFree 0 = true ∧
    ((videoAt 0).head 0).inFrame = true ∧ ((videoAt 31).head 0).vline < (videoAt 31).videoTop 0 + (videoAt 31).height 0 ∧
    ¬ ((videoAt 32).head 0).vline < (videoAt 32).videoTop 0 + (videoAt 32).height 0 ∧ (videoAt 32).bit (HEAD_CTRL 0) HEAD_CTRL_lp_blank = false := by decide
theorem wit_HeadPacketsMarksAndWitness : ((headAt id).setBit (HEAD_PKT_CTRL 0) HEAD_PKT_CTRL_go true).bit (HEAD_PKT_CTRL 0) HEAD_PKT_CTRL_go = true ∧ (headAt id).lanesFree 0 = true ∧
    (headAt id).witOn 0 = false ∧ ((headAt id).setBit (HEAD_WIT_CTRL 0) HEAD_WIT_CTRL_enable true).witOn 0 = true ∧ bitOf (setF 0 HEAD_MARK_all 1) HEAD_MARK_all = true ∧
    ((headAt id).head 0).rowToCheck = none ∧ ((headAt (fun h => { h with rows := [⟨0, 3, 7, false, false, false⟩] })).head 0).rowToCheck = some ⟨0, 3, 7, false, false, false⟩ ∧
    dsiLong 0x39 = true ∧ dsiLong 0x15 = false ∧ decodeLong (longPacket 0x39 [0x2C, 1, 2]) = some [0x2C, 1, 2] ∧ decodeLong ((longPacket 0x39 [0x2C, 1, 2]).set 5 3) = none ∧
    decodeLong ((longPacket 0x39 [0x2C, 1, 2]).set 3 0) = none ∧ ((headAt id).head 0).jobs = [] ∧ ((headAt (fun h => { h with jobs := [⟨0, [], true, [], true, 0, 0, false⟩] })).head 0).jobs.length = 1 := by decide

/-! ## Block engine, DMA and sound -/

/-- The block engine at its list in CSRAM, with a command's words there. -/
def blitting (ws : List Word) : State :=
  let s := put (lit up [0, 8, 9]) [(BLK_LIST, 0x10000000), (BLK_STAT, setF 0 BLK_STAT_running 1)]
  { s.setBytes 0x10000000 (ws.flatMap (fun w => leBytes 4 w.toNat)) with blk := ⟨0x10000000, 0, none, .none⟩ }
theorem wit_BlockEngineTakesItsCommandInOrder : (blitting []).blkRunning = true ∧ (blitting []).blk.wait = .none ∧ up.blkRunning = false ∧ (blkFetch (blitting [0])).2.1 = true ∧
    (blkFetch (blk (blitting [0]) 0 0)).2.1 = false ∧ cmdOp (blkFetch (blitting [0])).2.2 = 0 ∧ cmdOp (blkFetch (blitting [0x20000000, 0, 0, 0])).2.2 = 2 ∧
    cmdOp (blkFetch (blitting [0x60000000])).2.2 = 6 ∧ cmdOp (blkFetch (blitting [0x70000000])).2.2 = 7 ∧ cmdOp (blkFetch (blitting [0x80000000])).2.2 = 8 ∧
    9 ≤ cmdOp (blkFetch (blitting [0x90000000])).2.2 ∧ (blitting []).blkState (blkHead 0) ≠ 0 ∧ (blk (blitting []) 9 0).blkState (blkHead 0) = 0 ∧
    ({ blitting [] with blk := ⟨0, 0, none, .hit⟩ } : State).blk.wait = .hit ∧ (lit up [8]).bit BLK_STAT BLK_STAT_running = false := by decide
/-- DMA channel 0 in a state, with its hidden part. -/
def chan (st : Nat) (f : DmaCh → DmaCh) : State := (put (lit up [0, 13]) [(DMA_CH_STAT 0, setF 0 DMA_CH_STAT_state st)]).setDma 0 (f DmaCh.init)
/-- A descriptor of 4 lines of 64 bytes, waiting for trigger 41 at each. -/
def words41 : List Nat := [0x10000000, 0x10001000, 64, 4, 64, 64, 0x40000029, 0]
theorem wit_DmaChannelsLoadMoveAndEnd : (chan 0 id).dmaState 0 = 0 ∧ (chan 1 id).dmaState 0 = 1 ∧ (chan 2 id).dmaState 0 = 2 ∧ (chan 3 id).dmaState 0 = 3 ∧ (chan 1 id).blkOn 13 = true ∧
    ((chan 1 (fun c => { c with burst := some 64 })).dmaCh 0).burst = some 64 ∧ ((chan 3 (fun c => { c with phase := .lineStart })).dmaCh 0).phase = .lineStart ∧
    ((chan 1 (fun c => { c with phase := .load })).dmaCh 0).phase = .load ∧ (chan 1 (fun c => { c with phase := .move, words := words41 })).dmaNext = some 0 ∧ (chan 1 id).dmaNext = none ∧
    ((chan 1 (fun c => { c with phase := .ended, words := words41 })).dmaCh 0).phase = .ended ∧ ((chan 0 id).dmaCh 0).words = [] ∧
    ((chan 1 (fun c => { c with words := words41 })).dmaCh 0).trigMode ≠ 0 ∧ ((chan 1 (fun c => { c with words := words41 })).dmaCh 0).trig = 41 ∧
    ((chan 1 (fun c => { c with words := words41.set 6 41 })).dmaCh 0).trigMode = 0 ∧ ((chan 1 (fun c => { c with words := words41.set 6 41 })).dmaCh 0).words ≠ [] ∧ (41 : Fin 64).val ≤ 41 ∧ 41 < (42 : Fin 64).val := by
  decide
/-- Serial port 0 a slave, enabled, with its clock and frame pins. -/
def port0 (cfg : Word) : State :=
  let s := put (lit up [15]) [(AUD_SP_CFG 0, cfg)]
  { (List.range 4).foldl (fun s i => s.setFld (PIN_CFG (32 + i)) PIN_CFG_func 4) s with aud := { s.aud with latches := [(0, [(AUD_SP_CFG 0, cfg)])] } }
theorem wit_AudioBoundariesKeysAndPorts : (lit up [15]).blkOn 15 = true ∧ up.blkOn 15 = false ∧ up.aud.jobs = [] ∧
    (port0 (setF 0 AUD_SP_CFG_enable 1)).spCfg 0 AUD_SP_CFG_enable = 1 ∧ (port0 (setF 0 AUD_SP_CFG_enable 1)).spCfg 0 AUD_SP_CFG_master = 0 ∧ (signed 16 2000).natAbs ≤ 2000 ∧
    2000 < (signed 16 (65536 - 2001)).natAbs ∧ (port0 (setF (setF 0 AUD_SP_CFG_enable 1) AUD_SP_CFG_raw 1)).portRaw 0 = true ∧ (port0 0).portRaw 0 = false ∧
    (port0 (setF 0 AUD_SP_CFG_master 1)).spCfg 0 AUD_SP_CFG_master = 1 ∧ blocksAhead 1 0xFFFFFFFF = some 2 ∧ blocksAhead 0xFFFFFFFF 1 = none ∧ (2147483647 + 5) % 2 ^ 32 = 2147483652 ∧
    ((port0 0).setBit (AUD_SP_TRACK 0) AUD_SP_TRACK_locked true).bit (AUD_SP_TRACK 0) AUD_SP_TRACK_locked = true := by decide
theorem wit_AudioBoundariesKeysAndPorts_slave : (port0 (setF 0 AUD_SP_CFG_enable 1)).inputLive 16 = true ∧ (port0 (setF 0 AUD_SP_CFG_enable 1)).inputLive 17 = true := by decide
theorem wit_EffectInstructionsComputeTheirTable : (-2147483648 : Int) ≤ (2147483647 : Int) * (32767 : BitVec 16).toInt / 32768 ∧ (2147483647 : Int) * (32767 : BitVec 16).toInt / 32768 ≤ 2147483647 ∧
    ¬ ((-2147483648 : Int) * (-32768 : BitVec 16).toInt / 32768 ≤ 2147483647) ∧ up.aud.dwr.lookup 0 = none ∧ (audFetch (lit up [0, 15]) 0x10000000 4).err = false ∧ (audFetch up 0x10000000 4).err = true := by
  decide

/-! ## Processors -/

/-- An instruction issues. -/
theorem wit_RegisterInstructionsWriteResultAndFlags : (slot []).issues (.thread 5) (Form.ins (.short 0 0) 0x01 0x00) ∧ (kilnAt 0x10 []).issues .kiln (Form.ins (.long 0 0) 0x01 0x00) := by
  unfold State.issues State.turnOf State.kilnReady; decide
theorem wit_BranchesCallsAndNop : (slot []).issues (.thread 5) (Form.ins (.short 0 0) 0x11 0x2A) ∧ ((Form.ins (.short 0 0) 0x11 0x2A).target 0x12000010).getLsbD 0 = false ∧
    (slot [(0, 1)]).issues (.thread 5) (Form.ins (.short 0 0) 0x13 0x2C) ∧ ((slot [(0, 1)]).treg 5 0).getLsbD 0 = true ∧ (slot []).issues (.thread 5) (Form.sys (.short 0 0) 0) := by
  unfold State.issues State.turnOf; decide
/-- LDW and STW of the base register g0 with no offset, at an edge of memory. -/
theorem wit_LoadsAndStoresAccessTheirAddress : (slot [(0, 0x7FFFC)]).issues (.thread 5) (Form.ins (.long 0 0) 0 0x18) ∧
    ((Form.ins (.long 0 0) 0 0x18).memM ((slot [(0, 0x7FFFC)]).treg 5) 4 true false).addr.toNat + 4 ≤ 0x80000 ∧
    0x80000 < ((Form.ins (.long 0 0) 0 0x18).memM ((slot [(0, 0x80000)]).treg 5) 4 true false).addr.toNat + 4 ∧
    ((Form.ins (.long 0 0) 0 0x18).memM ((slot [(0, 2)]).treg 5) 4 true false).addr.toNat % 4 ≠ 0 ∧ inTcm 0x11FFFC = true ∧ inTcm 0x120000 = false ∧ inRegs 0x40000000 = true ∧
    (kilnAt 0 []).ksup = false ∧ (kilnAt 0x10 []).ksup = true ∧ (kilnAt 0x10 []).wpMatch true 0x100000 4 = none ∧ (kilnAt 0x10 []).forwarded 0x10000000 4 = none ∧
    (kilnAt 0x10 [] |>.setKiln { (kilnAt 0x10 []).kiln with sb := [(0x10000000, [1, 2, 3, 4])] }).forwarded 0x10000002 2 = some [3, 4] ∧
    (kilnAt 0x10 [] |>.setKiln { (kilnAt 0x10 []).kiln with sb := [(0x10000000, [1, 2, 3, 4])] }).forwarded 0x10000002 4 = none ∧
    (kilnAt 0x10 [] |>.setKiln { (kilnAt 0x10 []).kiln with sb := [(0x10000000, [1, 2, 3, 4])] }).buffered 0x10000002 4 = true ∧ (kilnAt 0x10 []).buffered 0x10000002 4 = false := by
  unfold State.issues State.turnOf; decide
theorem wit_IssueFollowsTurnEncodingAndCondition : up.kind.slot ≠ some 5 ∧ (slot []).kind.slot = some 5 ∧ undefIns false (Form.ins (.long 0xF 0) 0 0x18) = true ∧
    condPasses (Flags.mk false false false false) 1 = false ∧ undefIns true (Form.ins (.long 0 0) 0 0x18) = false ∧ (kilnAt 0x10 []).kilnRuns = true ∧ State.reset.kilnRuns = false := by decide
theorem wit_SystemRegistersAndPrivilege : (kilnAt 0x10 []).issues .kiln (Form.ins (.long 0 9) 0 0x2F) ∧ (kilnAt 0 []).issues .kiln (Form.ins (.long 0 1) 0 0x30) ∧
    (kilnAt 0 []).ksup = false ∧ (9 : BitVec 20).toNat % 4096 ≤ 9 ∧ 9 < (10 : BitVec 20).toNat % 4096 ∧ (kilnAt 0 []).issues .kiln (Form.sys (.long 0 0) 4) ∧
    (kilnAt 0 []).issues .kiln (Form.sys (.long 0 0) 3) ∧ (kilnAt 0 []).issues .kiln (Form.sys (.long 0 0) 2) := by
  unfold State.issues State.turnOf State.kilnReady; decide

theorem wit_WriteBackToTheDataRegister : (Form.ins (.long 0 0x00400) 0 0x18).kind = 1 ∧ (Form.ins (.long 0 0x00400) 0 0x18).rd = (Form.ins (.long 0 0x00400) 0 0x18).ra ∧
    (slot []).issues (.thread 5) (Form.ins (.long 0 0x00400) 0 0x18) ∧ (kilnAt 0x10 [(0, 0x100000)]).issues .kiln (Form.ins (.long 0 0x00400) 0 0x1D) ∧
    inTcm (((Form.ins (.long 0 0x00400) 0 0x1D).memM (kilnAt 0x10 [(0, 0x100000)]).kreg 4 false false).addr).toNat = true := by
  unfold State.issues State.turnOf State.kilnReady; decide
/-- A side unit at work. -/
def siding (op : Nat) (d : Word) : State := let s := kilnAt 0x10 []; s.setKiln { s.kiln with side := some ⟨BitVec.ofNat 32 (3 * 2 ^ 30 + op * 2 ^ 20), 7, d, 0x100000, true, true⟩ }
theorem wit_SideUnitBarriersAndWaits : (kilnAt 0x10 []).issues .kiln (Form.ins (.long 0 0) 0 0x26) ∧ (kilnAt 0x10 []).issues .kiln (Form.ins (.long 0 0x00010) 0 0x28) ∧
    ((siding 0x26 0).kiln.side.map (fun o => (Ins.mk o.word.toNat 4).op)) = some 0x26 ∧ (kilnAt 0x10 []).issues .kiln (Form.sys (.long 0 0) 1) ∧ (drainAll (kilnAt 0x10 [])).kiln.late = [] ∧
    (kilnAt 0x10 []).issues .kiln (Form.sys (.short 0 0) 5) ∧ (kilnAt 0x10 []).kiln.sb = [] ∧ (kilnAt 0x10 []).ksup = true := by
  unfold State.issues State.turnOf State.kilnReady; decide
/-- Doorbell 5 is offered to Kiln with interrupts enabled. -/
def offering : State := put (kilnAt 0x90 []) [(INTC_SRC 5, setF (setF 0 INTC_SRC_enable 1) INTC_SRC_prio 3), (KILN_DB, 0x20)]
theorem wit_EntriesSaveTheirFrame : (kilnAt 0x10 []).issues .kiln (Form.ins (.long 0 0) 0 0x2D) ∧ (kilnAt 0x10 []).originDepth < 8 ∧ (kilnAt 0x10 []).kiln.ssp.toNat % 8 = 0 ∧
    (kilnAt 0x10 []).peekLE (0x200000 + 4 * 7) 4 % 2 = 0 ∧ 0x100000 ≤ ((kilnAt 0x10 []).kiln.ssp - 32).toNat ∧
    8 ≤ ((kilnAt 0x10 []).setKiln { (kilnAt 0x10 []).kiln with origin := 0x80000000 }).originDepth ∧ offering.recognisable = some 5 ∧ (kilnAt 0 []).issues .kiln (Form.ins (.long 0 0) 0 0x2D) := by
  unfold State.issues State.turnOf State.kilnReady; decide
/-- Kiln with an origin stack. -/
def returning (origin : Word) : State := let s := kilnAt 0x10 []; s.setKiln { s.kiln with origin := origin }
theorem wit_ReturnsRestoreOrTakePrivReturn : (returning 0).issues .kiln (Form.sys (.short 0 0) 4) ∧ (returning 0x10000000).issues .kiln (Form.sys (.long 0 0) 4) ∧ (returning 0).ksup = true ∧
    ((returning 0x10000100).kiln.origin.getLsbD 8) = true ∧ ((returning 0x10000001).kiln.origin.getLsbD 8) = false ∧ 0x11F000 % 4 = 0 ∧ undefIns true ⟨3 * 2 ^ 30 + 0x26 * 2 ^ 20, 4⟩ = false ∧
    undefIns true ⟨3 * 2 ^ 30 + 0x26 * 2 ^ 20 + 0x700, 4⟩ = true := by
  unfold State.issues State.turnOf State.kilnReady; decide
/-- LDM of the registers of a mask from g1, and BFILL of g2 bytes. -/
theorem wit_LongBlocksGoElementByElement : (kilnAt 0x10 [(1, 0x100000)]).issues .kiln (Form.ins (.long 0 0x1005) 0 0x21) ∧ (kilnAt 0x10 []).prog = 0 ∧
    (Form.ins (.long 0 0x1005) 0 0x21).mask.length ≠ 0 ∧ (Form.ins (.long 0 0x1000) 0 0x21).mask.length = 0 ∧ inTcm 0x100000 = true ∧ (kilnAt 0x10 []).wpMatch false 0x100000 4 = none ∧
    (setProg (kilnAt 0x10 []) 3).prog = 3 := by
  unfold State.issues State.turnOf State.kilnReady; decide
/-- Kiln with a store buffered, or a load waiting. -/
def buffering : State := let s := kilnAt 0x10 []; s.setKiln { s.kiln with sb := [(0x10000000, [1, 2, 3, 4])], load := some ⟨0x10000004, 4, false, 3, none, 4, true, true, none, false⟩ }
/-- A load at an address that a store may hold back. -/
def heldBack (a : Nat) : State := buffering.setKiln { buffering.kiln with load := some ⟨a, 4, false, 3, none, 4, false, false, none, false⟩ }
theorem wit_BuffersAndReturnsFollowProgramOrder : buffering.ember.phase = .run ∧ buffering.kiln.sb ≠ [] ∧ buffering.kiln.load.isSome = true ∧ buffering.buffered 0x10000004 4 = false ∧
    buffering.buffered 0x10000003 1 = true ∧ (heldBack 0x10000000).buffered 0x10000000 4 = true ∧ (heldBack 0x10000004).buffered 0x10000004 4 = false ∧
    (heldBack 0x10000004).kiln.load.any (fun l => !l.asked) = true ∧ (busWrite buffering iniKiln 0x10000000 [1] []).err = true ∧ (busWrite (lit buffering [0]) iniKiln 0x10000000 [1] []).err = false := by decide

/-! ## Threads -/

/-- Thread 5 with an enabled port 0 in a mode and width, and the port's identifier in g0. -/
def ported (mode width : Nat) (f : Port → Port) : State :=
  let s := put (slot [(0, 256), (1, 1)]) [(KPORT_EN 0, 1), (KPORT_CFG 0, setF (setF 0 KPORT_CFG_mode mode) KPORT_CFG_width width)]
  s.setKport 0 (f (s.kport 0))
/-- Port 0 is an actuator that a trip holds. -/
def tripped (s : State) : State := (s.setBit (KPORT_ACT 0) KPORT_ACT_actuator true).setBit (KPORT_STAT 0) KPORT_STAT_trip true
theorem wit_PortInstructionsReadDriveAndConfigure : (ported 1 0 id).issues (.thread 5) (threadOp 0 0 0x38 0 0) ∧ (ported 2 0 id).issues (.thread 5) (threadOp 0 0 0x39 0 0) ∧
    ((ported 1 0 id).treg 5 (threadOp 0 0 0x38 0 0).ra).toNat = 256 ∧ (ported 1 0 id).portMode 0 = 1 ∧ (ported 2 0 id).portDrives 0 = true ∧ (ported 1 1 id).portWidth 0 = 1 ∧
    ((ported 1 0 (fun p => { p with met := some (true, ⟨5, 6⟩) })).kport 0).met = some (true, ⟨5, 6⟩) ∧ ((ported 2 0 (fun p => { p with outTime := some 9 })).kport 0).outTime = some 9 ∧
    ((ported 2 0 (fun p => { p with pend := some (9, 1) })).kport 0).pend ≠ none ∧ (ported 2 0 id).gateMet 0 = true ∧ (ported 1 0 id).clockBusy 7 = false ∧
    (ported 2 0 id).outHeld 0 = false ∧ (tripped (ported 2 0 id)).outHeld 0 = true ∧ (ported 2 1 (fun p => { p with xfer := some 3, outTime := some 9 })).portWidth 0 ≠ 0 ∧
    (ported 2 0 id).timeAhead 0 0 = 0 ∧ (ported 2 0 id).timeAhead 0 32767 = 32767 ∧ (ported 2 0 id).timeAhead 0 32768 = 32768 ∧ (0x4001 : Nat).testBit 14 = true ∧ (ported 1 0 id).portMode 1 ≠ 1 ∧
    (0x4000 : Nat).testBit 14 = true ∧ (ported 1 0 id).portMode 0 = 1 ∧
    (put (ported 1 0 id) [(KPORT_EN 0, 0)]).reg (KPORT_EN 0) = 0 := by
  unfold State.issues State.turnOf; decide
/-- Thread 5 with an end and its destination. -/
def ended (f : ChEnd → ChEnd) (id_ : Word) : State := let s := slot [(0, id_), (1, 300)]; s.setEnd 7 (f { s.chEnd 7 with alloc := true, owner := 5 })
theorem wit_ChannelInstructionsMoveTokens : (ended id 0x207).issues (.thread 5) (threadOp 0 0 0x3C 8 0) ∧ (ended id 0x207).issues (.thread 5) (threadOp 0 0 0x3D 0xC 8) ∧
    ((ended id 0x207).treg 5 (threadOp 0 0 0x3C 8 0).ra).toNat = 512 + 7 ∧ ((ended id 0x207).chEnd 7).alloc = true ∧ ((ended id 0x207).chEnd 6).alloc = false ∧
    ((ended (fun x => { x with buf := [1, 2, 3, 4] }) 0x207).chEnd 7).buf.length = 4 ∧ ((ended (fun x => { x with buf := [1, ctEnd] }) 0x207).chEnd 7).buf.length = 2 ∧
    ((ended (fun x => { x with dest := some 9 }) 0x207).chEnd 7).dest = some 9 ∧ (takeDest ((ended id 0x207).setEnd 9 { ChEnd.init with alloc := true }) 7 9 4).2 = true ∧
    (ended id 0x207).endBusy 7 = false ∧ (ended (fun x => { x with out := true }) 0x207).endBusy 7 = true ∧ (ended id 0x207).routeInto 7 = none := by
  unfold State.issues State.turnOf; decide
theorem wit_ThreadsForkJoinLockAndWaitForEvents : (slot [(0, 0x406)]).issues (.thread 5) (threadOp 0 0 0x3E 0xF 1) ∧ ((slot []).setReg KIND_POOL_LO 0x40).reg KIND_POOL_LO = 0x40 ∧
    ((slot []).thr 6).state = .free ∧ (((slot []).setThr 6 { Thr.init with state := .ready, parent := some 5 }).thr 6).parent = some 5 ∧ ((slot []).lock 31).holder = none ∧
    (((slot []).setLock 31 ⟨some 5, []⟩).lock 31).holder = some 5 ∧ (((slot []).setThr 5 { Thr.init with wait := 3, res := 768 + 31 }).thr 5).res = 768 + 31 ∧
    ((slot []).thr 5).events = [] ∧ (slot []).eventReady 0x700 = false ∧ ((slot []).setReg KIND_DB 1).eventReady 0x700 = true ∧ (armUse (slot []) 5 0x71F true).toOption = some 0x71F ∧
    (armUse (slot []) 5 0x720 true).toOption = none := by
  unfold State.issues State.turnOf; decide
/-- A token in flight for an end. -/
def flying (d w : Nat) : State := let s := lit up [14]; { s with kind := { s.kind with flight := [⟨d, w, 7, none, 0⟩] } }
theorem wit_KindlingSlotsThreadsAndTokensMove : (lit up [14]).blkOn 14 = true ∧ (lit up [14]).slotFor = none ∧
    ((slot []).setReg (KIND_SLOT 0 0) 0x85).slotFor = some (5, false) ∧ (lit up [14]).kind.cyc % 128 = 0 ∧ (put (lit up [14]) [(KIND_CTRL, setF 0 KIND_CTRL_next 1)]).fld KIND_CTRL KIND_CTRL_next ≠ 0 ∧
    ((lit up [14]).thr 0).state = .free ∧ (((lit up [14]).setThr 0 { Thr.init with state := .halted }).thr 0).state = .halted ∧ (takeFirst 256 (flying 256 ctEnd).kind.flight).isSome = true ∧
    (takeFirst 3 (flying 256 ctEnd).kind.flight).isNone = true ∧ isMarker ctEnd = true ∧ (lit up [14]).agentOn 0 = false ∧ (List.replicate 64 0).length = 64 ∧
    (put (lit up [14]) [(MBX_AGENT, 0xFFFFFFFF)]).agentOn 14 = true ∧ (flying 256 ctEnd).keepsDest 7 256 = true ∧ (lit up [14]).keepsDest 7 256 = false ∧ ((lit up [14]).chEnd 7).alloc = false ∧
    ((lit up [14]).kEnd 14).out = false ∧ ((lit up [14]).setThr 5 { Thr.init with state := .blocked, wait := 1, res := 519, calm := 1024 }).stallBlocked 5 = true ∧
    (((lit up [14]).setThr 5 { Thr.init with state := .blocked, wait := 1, res := 519, calm := 1024 }).thr 5).calm = 1024 ∧
    (((lit up [14]).setThr 5 { Thr.init with state := .blocked, calm := 1023 }).thr 5).calm < 1024 := by decide
/-- Port 0 of a clock block that runs, its pin connected to it. -/
def clocked (mode width : Nat) (f : Port → Port) : State :=
  put ((ported mode width f).setFld (PIN_CFG 0) PIN_CFG_func 1) [(KPORT_CB 0, setF (setF 0 KPORT_CB_run 1) KPORT_CB_gate_port 0x7F), (PIN_BANK 0, 0)]
theorem wit_PortEventsMeetConditionsAndTimes_clock : (clocked 1 0 id).portTicks 0 = true ∧ (ported 1 0 id).portTicks 0 = false ∧ (clocked 1 0 id).pinSeen 1 0 = true ∧
    (clocked 1 0 id).portLevel 0 = false ∧ (clocked 1 0 (fun p => { p with level := true })).portLevel 0 = true ∧
    ((clocked 2 1 (fun p => { p with shift := some (3, 0), xfer := some 5, pend := some (9, 1), due := true })).kport 0).due = true ∧
    ((clocked 2 1 (fun p => { p with shift := some (3, 0), xfer := some 5, pend := some (9, 1), due := true })).kport 0).pend = some (9, 1) ∧
    (clocked 2 1 (fun p => { p with xfer := some 5, pend := some (9, 1) })).portWidth 0 ≠ 0 ∧ ((clocked 2 0 (fun p => { p with pend := some (9, 1) })).kport 0).due = false ∧
    (clocked 2 0 (fun p => { p with drive := some true })).padDrive 0 = some true ∧ (clocked 3 0 (fun p => { p with drive := some true })).padDrive 0 = none ∧
    (clocked 2 0 (fun p => { p with drive := some true })).portDrives 0 = true ∧ (clocked 2 0 id).fld (PIN_CFG 0) PIN_CFG_func = 1 ∧
    (put (clocked 2 0 (fun p => { p with drive := some true })) [(KPORT_ACT 0, 0xFFFFFFFF)]).isActuator 0 = true ∧
    (put (clocked 2 0 (fun p => { p with drive := some true })) [(KPORT_ACT 0, 0xFFFFFFFF)]).padDrive 0 =
      some ((put (clocked 2 0 (fun p => { p with drive := some true })) [(KPORT_ACT 0, 0xFFFFFFFF)]).bit (KPORT_ACT 0) KPORT_ACT_level) ∧
    (put (clocked 2 0 id) [(KPORT_ACT 0, 0xFFFFFFFF)]).fld (KPORT_ACT 0) KPORT_ACT_maxon ≠ 0 := by decide
theorem wit_PortEventsMeetConditionsAndTimes : (ported 1 0 id).portMode 0 = 1 ∧ (ported 1 0 (fun p => { p with met := none })).portWidth 0 = 0 ∧ (ported 1 1 id).portBits 0 = 8 ∧
    (ported 2 1 (fun p => { p with shift := some (3, 0), xfer := none })).portDrives 0 = true ∧ (ported 2 1 id).gatedOn 0 = false ∧ ((ported 2 0 (fun p => { p with pend := some (3, 1) })).kport 0).pend = some (3, 1) ∧
    (ported 0 0 id).portMode 0 = 0 ∧ ((ported 2 0 id).setFld (PIN_CFG 0) PIN_CFG_func 1).fld (PIN_CFG 0) PIN_CFG_func = 1 ∧
    (((ported 2 0 (fun p => { p with drive := some true })).setBit (KPORT_ACT 0) KPORT_ACT_actuator true).bit (KPORT_ACT 0) KPORT_ACT_actuator) = true := by decide

/-! ## Pins, timers, interrupts, mailboxes -/

/-- Everything ON. -/
def all : State := lit up (List.range 40)
/-- Timer 3 counts time, its compare value below its top, and its input catches both edges. -/
def timed : State := put all [(TMR_CTRL 3, setF (setF 0 TMR_CTRL_run 1) TMR_CTRL_trig_sel 3), (TMR_TOP 3, 100), (TMR_CMP 3, 7), (TMR_IN 3, setF 0 TMR_IN_edge 3), (PIN_CFG 3, setF 0 PIN_CFG_func 2), (PIN_GUARD_CFG, 0x8000)]
theorem wit_PinsTimersAndAdcFollowTheirEvents : timed.pinOwner 3 ≠ timed.fld (PIN_CFG 3) PIN_CFG_func ∧ timed.pinOwner 4 = timed.fld (PIN_CFG 4) PIN_CFG_func ∧
    timed.bit (PIN_CFG 2) PIN_CFG_analog = false ∧ timed.extLevel 2 = false ∧ (timed.reg PIN_GUARD_CFG).getLsbD 15 = true ∧ (timed.reg PIN_GUARD_CFG).getLsbD 7 = false ∧
    (put timed [(PIN_GUARD_STAT, 0xFFFFFFFF)]).fld PIN_GUARD_STAT PIN_GUARD_STAT_tripped ≠ 0 ∧ timed.fld PIN_GUARD_STAT PIN_GUARD_STAT_tripped = 0 ∧
    (timed.setBit TB_CTRL TB_CTRL_mono true).bit TB_CTRL TB_CTRL_mono = true ∧ (0x80000000 : Word).msb = true ∧ timed.tmrRun 3 = true ∧ timed.tmrRun 4 = false ∧
    timed.reg (TMR_CMP 3) ≤ timed.reg (TMR_TOP 3) ∧ timed.fld (TMR_CTRL 3) TMR_CTRL_out_mode = 0 ∧ timed.fld (TMR_CTRL 3) TMR_CTRL_trig_sel ≠ 2 ∧ timed.tmrSrc 4 ≠ 3 ∧
    timed.inputLive 3 = true ∧ timed.edgeSeen 3 true false = true ∧ timed.edgeSeen 4 true false = false ∧ (timed.setBit (TMR_STAT 3) TMR_STAT_pending true).bit (TMR_STAT 3) TMR_STAT_pending = true ∧
    (put all [(ADC_SEQ, 3)]).adcMask ≠ [] ∧ all.bit ADC_CTRL ADC_CTRL_busy = false ∧ ({ all with adcTodo := [20, 5] } : State).adcTodo = [20, 5] := by decide
theorem wit_PinsTimersAndAdcFollowTheirEvents_timers : timed.blkOn 37 = true ∧ up.blkOn 37 = false ∧ (put timed [(TMR_CNT 3, 7)]).reg (TMR_CNT 3) = timed.reg (TMR_CMP 3) ∧
    (put timed [(TMR_CNT 3, 100)]).reg (TMR_CNT 3) = timed.reg (TMR_TOP 3) ∧ timed.reg (TMR_CNT 3) ≠ timed.reg (TMR_TOP 3) ∧ (put timed [(TMR_CNT 3, 100), (TMR_CMP 3, 0)]).reg (TMR_CMP 3) = 0 ∧
    (timed.setBit (TMR_CTRL 3) TMR_CTRL_late_fire true).bit (TMR_CTRL 3) TMR_CTRL_late_fire = true ∧ timed.bit (TMR_CTRL 3) TMR_CTRL_late_fire = false ∧ (put timed [(TMR_TOP 3, 5)]).reg (TMR_TOP 3) < 7 ∧
    timed.fld (TMR_IN 3) TMR_IN_fclk = 0 ∧ timed.fld (TMR_IN 3) TMR_IN_filt = 0 ∧ (timed.setFld (TMR_IN 3) TMR_IN_filt 15).fld (TMR_IN 3) TMR_IN_filt = 15 ∧
    ((timed.timer 3).edges + 1) % 2 ^ timed.fld (TMR_IN 3) TMR_IN_prescale = 0 ∧ ((timed.timer 3).edges + 1) % 2 ^ (timed.setFld (TMR_IN 3) TMR_IN_prescale 1).fld (TMR_IN 3) TMR_IN_prescale ≠ 0 ∧
    timed.tmrSrc 3 = 0 ∧ (timed.setFld (TMR_CTRL 3) TMR_CTRL_src 1).tmrSrc 3 = 1 ∧ (timed.setFld (TMR_CTRL 3) TMR_CTRL_src 1).tmrRun 3 = true ∧ timed.reg (TMR_CNT 3) + 1 ≠ timed.reg (TMR_CMP 3) := by decide
theorem wit_PinsTimersAndAdcFollowTheirEvents_after : (pinCycles timed 2).reg (TMR_CNT 3) = 2 ∧ (pinCycles timed 2).blkOn 37 = true := by decide
/-- Doorbell 5's source in a state, for a destination. -/
def source (st dest : Nat) : State := (put all [(KILN_DB, 0x20)]).setReg (INTC_SRC 5) (setF (setF (setF 0 INTC_SRC_enable 1) INTC_SRC_state st) INTC_SRC_dest dest)
/-- Mailbox `n` held by `id`, posted or not. -/
def held (n id : Nat) (go : Bool) : State := (((all.setBit HOST_LINK HOST_LINK_up true).setFld (MBX_STAT n) MBX_STAT_holder id).setBit (MBX_CTRL n) MBX_CTRL_go go)
/-- Agent 6 with a request for a reply at thread 5's end 7. -/
def request (bytes : List Nat) : State :=
  let s := put (held 6 21 false) [(MBX_AGENT, 0xFFFFFFFF)]
  let s := s.setEnd 7 { ChEnd.init with alloc := true, owner := 5 }
  s.setKEnd 14 { s.kEnd 14 with rx := bytes ++ [ctEnd], src := 7, ids := [21] }
theorem wit_InterruptsMailboxesAndDoorbells : (source 0 0).isEdge 5 = false ∧ (source 0 0).asserted 5 = true ∧ (source 1 0).asserted 6 = false ∧ (source 0 0).firings 5 ≠ 1023 ∧
    ((source 0 0).setFirings 5 1023).firings 5 = 1023 ∧ ({ source 0 1 with pulse := [(5, true)] } : State).pulsed 5 = true ∧ (source 0 2).reg HOST_DB_MASK = 0 ∧
    (source 3 0).fld (INTC_SRC 5) INTC_SRC_state = 3 ∧ (held 5 0 false).barsOpen = true ∧ (held 3 1 false).fld (MBX_STAT 3) MBX_STAT_holder = 1 ∧
    (held 4 2 true).bit (MBX_CTRL 4) MBX_CTRL_go = true ∧ (held 4 2 true).fw.resps = [] ∧ (request [1, 7]).agentBusy 6 = false ∧ (request [1, 7]).agentRequest 6 = some [1, 7] ∧
    ((request [1, 7]).chEnd 7).alloc = true ∧ firstMessage ((request [5, 7, 16]).kEnd 14).rx = some ([5, 7] ++ [16], ctEnd, []) ∧ (request [5, 7, 16]).agentId 6 = 21 ∧
    (request [3, 7, 15, 1, 1, 2, 3, 4]).agentRequest 6 = some [3, 7, 15, 1, 1, 2, 3, 4] ∧ ((held 5 0 false).msix 0).masked = true ∧ (all.setFld HOST_LINK HOST_LINK_up 0).barsOpen = false := by decide
theorem wit_InterruptsMailboxesAndDoorbells_counted : (source 0 0).uncounted 5 = true ∧ (source 1 0).uncounted 5 = false ∧ (source 0 0).firings 5 < 1023 ∧ 1023 ≤ ((source 0 0).setFirings 5 1023).firings 5 ∧
    (source 0 0).bit (INTC_SRC 5) INTC_SRC_enable = true ∧ (source 0 0).bit (INTC_SRC 5) INTC_SRC_hold_en = false ∧ (source 3 0).uncounted 5 = false ∧ (source 0 0).srcPending 5 = true := by decide

/-! ## Ledger -/

/-- A command with operation, a, b and its own source bytes alone in the island, and at work. -/
def cmd (op a b : Nat) (own : Option (List Byte)) : LCmd :=
  ⟨[op * 2 ^ 24 + 5, a * 65536 + b, 0x10000000, 128, 0x10002000, 64, 0x10001000, 0, 77, 0, 0, 0, 0, 0, 0, 0], own, true, none, none, none, List.replicate 16 0, none, none⟩
def inIsland (c : LCmd) : State := all.setLed { all.led with cmds := [c] }
/-- A record with a TXID of node 3. -/
def rec3 : List Byte := leBytes 8 (3 * 2 ^ 54 + 5) ++ List.replicate 120 0
theorem wit_LedgerCommandsEndWithTheirStatus : (inIsland (cmd 0 0 0 none)).led.cmds = [cmd 0 0 0 none] ∧ (cmd 0 0 0 none).op = 0 ∧ (cmd 12 9 0 none).a = 9 ∧ (cmd 7 0 2 none).b = 2 ∧
    (ledSrc (inIsland (cmd 2 0 0 (some rec3))) (cmd 2 0 0 (some rec3))).2 = some rec3 ∧ recTxid rec3 / 2 ^ 54 = 3 ∧ recTxid (List.replicate 128 0) = 0 ∧
    (ledRead all 0x10001000 64).2 = some (List.replicate 64 0) ∧ (ledWrite all 0x10002000 [1]).2 = true ∧ (ledRead all 0x50000000 64).2 = none ∧ (put all [(LEDGER_CORD_CAP, 0)]).cordNoRoom = true ∧
    peerAlg (List.replicate 96 0 ++ [1]) = 1 ∧ peerAlg (List.replicate 96 0 ++ [2]) = 2 ∧ all.cqFull = false ∧ (all.setFld LEDGER_CQ_HEAD LEDGER_CQ_HEAD_index 1).cqFull = true ∧ all.led.seq = 0 ∧
    all.fwServes = false ∧ all.ember.phase = .run ∧ all.led.loading = false ∧ (all.setLed { all.led with loading := true }).led.loading = true := by decide
/-- A Cord of a capacity in 256 KB of channel 0, some entries in it. -/
def corded (cap seq : Nat) : State :=
  let s := put all [(MEM_CH_CFG 0, setF 0 MEM_CH_CFG_density 3), (MEM_MIRROR 0, setF (setF (setF 0 MEM_MIRROR_valid 1) MEM_MIRROR_base 2) MEM_MIRROR_size 1), (LEDGER_CORD_CAP, BitVec.ofNat 32 cap)]
  s.setLed { s.led with seq := seq }
theorem wit_LedgerCommandsEndWithTheirStatus_cord : (corded 0 0).cordShut = true ∧ (corded 1366 0).cordShut = true ∧ (corded 1365 0).cordShut = false ∧ (corded 2 2).cordShut = false ∧
    (corded 2 2).cordNoRoom = true ∧ (corded 2 1).cordNoRoom = false ∧ (cmd 3 3 0 none).held = none ∧ (cmd 3 3 0 none).a ≠ recTxid (leBytes 8 (4 * 2 ^ 54)) / 2 ^ 54 ∧
    (signedSrc all (cmd 3 3 0 (some (rec3 ++ List.replicate 64 7)))).2 = some (rec3, List.replicate 64 7) ∧ (signedSrc all (cmd 3 3 0 none)).2.isSome = true ∧ (cmd 3 3 0 none).own = none := by decide
/-- Context 0's floor of node 5 is selected, or context 1's. -/
def selecting (ctx : Nat) : State := put all [(LEDGER_FLOOR_SEL, setF (setF 0 LEDGER_FLOOR_SEL_ctx ctx) LEDGER_FLOOR_SEL_node 5)]
theorem wit_LedgerCommandsEndWithTheirStatus_floor : (selecting 0).floorSel = (0, 5) ∧ (selecting 1).floorSel = (1, 5) ∧ (selecting 0).floorOf 0 5 = 0 ∧ (selecting 0).led.floorLo = 0 ∧
    (selecting 0).fw.jobs = [] ∧ bitOf 0x1000 LEDGER_FLOOR_HI_refused = false ∧ getF 0x1000 LEDGER_FLOOR_HI_epoch = 1 := by decide
/-- Translation engine 2 at instruction `w`, with input and output. -/
def translating (w : Word) (input : List Byte) (n : Nat) (stop : Option (Nat × Nat)) : State :=
  let s := put all [(LEDGER_XL_PROG 20, w), (LEDGER_XL_PROG 50, 3), (LEDGER_XL_PROG 51, 0), (LEDGER_XL_PROG 52, 33)]
  s.setLed { s.led with xl := [(2, ⟨input, 0, [0, 0], [0, 3, 6, 9, 12, 15, 18, 21], false, [3], [1], [(2, ⟨[0x31], [1], false⟩)], 20, n, stop⟩)] }
/-- The engine's registers there. -/
def engine (w : Word) (input : List Byte) : Option Xl := ((translating w input 5 none).led.xl.find? (fun a => a.1 == 2)).map (·.2)
theorem wit_TranslationEngineExecutesItsInstructions : (engine 0 []).map (fun x => (x.stop, x.n, x.pc)) = some (none, 5, 20) ∧
    ((translating 0x28000000 [] 5 none).reg (LEDGER_XL_PROG 20)).toNat / 2 ^ 26 = 10 ∧ ((translating 0x34000000 [] 5 none).reg (LEDGER_XL_PROG 20)).toNat / 2 ^ 26 = 13 ∧
    ((translating 0 [] 5 none).reg (LEDGER_XL_PROG 50)).toNat ≤ 256 ∧ 50 + 1 + 2 * 3 ≤ 4096 ∧ (0x08000800 : Word).toNat / 2 ^ 11 % 4 = 1 ∧
    ([0x30, 0x39, 0x35, 0x31] : List Byte).all (fun b => 0x30 ≤ b.toNat && b.toNat ≤ 0x39) = true ∧ (engine 0 [0x7F, 0, 0, 0, 0, 0, 0, 1]).map (fun x => (x.input.headD 0).toNat) = some 127 ∧
    (0x10018000 : Word).toNat / 2 ^ 15 % 256 = 3 ∧ ((translating 0 [] 4096 none).led.xl.map (fun e => e.2.n)) = [4096] ∧ ((translating 0 [] 5 (some (9, 1))).led.xl.map (fun e => e.2.stop)) = [some (9, 1)] := by decide

/-! ## Falornyr -/

/-- A profile with every block. -/
def profile : Profile := ⟨0xFFFFFFFFFF, 0, [], 0, [], 1000, 100, []⟩
/-- Falornyr serves, in profile 1, its state changed. -/
def served (f : Fw → Fw) : State :=
  let s := (all.setFld SYS_PROFILE SYS_PROFILE_cur 1).setFld SYS_PROFILE SYS_PROFILE_permitted 15
  s.setFw (f { s.fw with running := true, node := 3, image := some ⟨7, 1, [], [(0, profile), (1, profile)]⟩ })
/-- Kiln end 4 with a message from end 7. -/
def telling (mark : Nat) (f : Fw → Fw) : State :=
  let s := (served f).setKEnd 4 { (served f).kEnd 4 with rx := [4, 5, mark, 9] }
  { s with kind := { s.kind with arrived := [⟨4, 7, none, 3⟩] } }
/-- A message of a type in the inbox, from node 5. -/
def inboxed (t : Nat) (v : List Byte) (f : Fw → Fw) : State := served (fun x => f { x with inbox := [(5, t, v)] })
/-- A Keeper that is active. -/
def keeping (x : Fw) : Fw := { x with role := 1, keepers := [(3, 1)], active := some 3, epochOpen := true, synced := true }
/-- A session with node 5. -/
def session (f : FwSess → FwSess) : State := served (fun x => { x with sess := [(5, f { FwSess.init with opening := true, held := [⟨0, 3, [], 9, 0, false, false⟩] })] })
/-- Port 0 receives, its ring not full. -/
def receiving : State :=
  let s := (((all.setBit (FLOOR_CTRL 0) FLOOR_CTRL_enable true).setBit (FLOOR_STAT 0) FLOOR_STAT_link true).setFld (FLOOR_Q_CFG 0) FLOOR_Q_CFG_rx_log2 3).setFld (FLOOR_RXQ_HEAD 0) FLOOR_RXQ_HEAD_index 1
  (s.setFld FLOOR_ETYPE FLOOR_ETYPE_etype 0x88B5).setFld (FLOOR_TXQ_TAIL 0) FLOOR_TXQ_TAIL_index 1
def ether : List Byte := List.replicate 6 0xFF ++ List.replicate 6 2 ++ [0x88, 0xB5] ++ List.replicate 46 0
/-- A HELLO from node 5, and a sealed frame with nothing in it: CONTROL from node 5 under its session key. -/
def hello : List Byte := [1, 1, 0, 0, 5, 0, 3, 0] ++ List.replicate 28 0 ++ [40, 0, 0, 0] ++ List.replicate 40 0
def slot5 : Sess := ⟨List.replicate 32 1, [1, 2, 3, 4], 6⟩
def sealedFrame (kind ctr seq : Nat) : List Byte := [1, BitVec.ofNat 8 kind, 0, 0, 5, 0, 3, 0, 1, 2, 3, 4] ++ beBytes 8 ctr ++ leBytes 4 seq ++ List.replicate 16 0
/-- A DATA frame whose source has a high byte: with 3, node 1,023; with 4, no node. -/
def from1023 (high : Nat) : List Byte := [1, BitVec.ofNat 8 kindData, 0, 0, 0xFF, BitVec.ofNat 8 high] ++ List.replicate 34 0
/-- An Ethernet frame of a type in port 0's next receive descriptor. -/
def etherOf (type : Nat) (m : List Byte) : List Byte := List.replicate 6 0xFF ++ List.replicate 6 2 ++ beBytes 2 type ++ m
def framed (type : Nat) (m : List Byte) (f : Fw → Fw) : State :=
  let g := etherOf type m
  let s := ((served f).setFld FLOOR_ETYPE FLOOR_ETYPE_etype 0x88B5).setFld (FLOOR_RXQ_BASE 0) FLOOR_RXQ_BASE_base 0x1000000
  let s := (s.setBytes 0x10000000 (leBytes 4 0x10001000 ++ leBytes 4 (2 ^ 31 + g.length) ++ leBytes 8 7)).setBytes 0x10001000 g
  s.setLed { s.led with peers := [(5, List.replicate 128 0)], sess := [(5, slot5)] }
/-- The state after the descriptor is given back. -/
def given (type : Nat) (m : List Byte) (f : Fw → Fw) : State := rxBack (rxFrame (framed type m f) 0).1 0
/-- A transaction that waits, and two batches: one whole, one without its head. -/
def batchRecord (body : List Byte) : List Byte := leBytes 8 0 ++ leBytes 2 0x0401 ++ [0, 0, 0, 0] ++ leBytes 8 1 ++ List.replicate 42 0 ++ sha256 body ++ List.replicate 32 0
def body1 : List Byte := leBytes 8 (3 * 2 ^ 54 + 5) ++ leBytes 4 77 ++ [0, 0, 0, 0]
def waiting (x : Fw) : Fw :=
  { x with pend := [⟨3 * 2 ^ 54 + 5, 77, [], [], 7⟩], keepers := [(5, 1)], asms := [⟨5, 7, some (16, batchRecord body1, []), [(8, body1.drop 8), (0, body1.take 8)]⟩, ⟨5, 8, none, [(0, [1])]⟩] }
/-- A command of Falornyr's own ends with a status: a SEAL's, or one asked for a purpose. -/
def sealing (st tries : Nat) (why : SealFor) : State :=
  let s := served (fun x => { x with jobs := [⟨5, rec3, [], why, tries, none, 0⟩] })
  s.setLed { s.led with cmds := [{ cmd 2 0 0 (some []) with res := some (st, 0, none) }] }
def asking (st : Nat) (why : AskFor) : State :=
  let s := served (fun x => { keeping x with asks := [⟨5, why⟩] })
  s.setLed { s.led with cmds := [{ cmd 2 0 0 (some []) with res := some (st, 0, none) }] }
/-- Head 1 of a node with heads has a witness entry that may be cited. -/
def citing (f : Fw → Fw) : State :=
  put ((telling ctEnd f).setFld SYS_PROFILE SYS_PROFILE_cur 0) [(HEAD_WIT_CTRL 1, setF 0 HEAD_WIT_CTRL_enable 1), (HEAD_WIT_SEQ 1, 3), (HEAD_WIT_RING 1 (16 * 3 + 14), 0x01000000), (HEAD_WIT_RING 1 (16 * 3 + 9), 3)]
theorem wit_TransactionsAndFloorFollowTheirEvents : (served id).fwServes = true ∧ all.fwServes = false ∧ firstMessage ((telling ctAbort id).kEnd 4).rx = some ([4, 5], ctAbort, [9]) ∧
    firstMessage ((telling ctEnd keeping).kEnd 4).rx = some ([4, 5], ctEnd, [9]) ∧ (telling ctEnd keeping).kind.arrived = [⟨4, 7, none, 3⟩] ∧ (telling ctEnd keeping).takesMoney = true ∧
    (telling ctEnd id).takesMoney = false ∧ (telling ctEnd keeping).witnessFor none 5 = none ∧ 0x0101 ∈ moneyTypes ∧ 0x0005 ∉ moneyTypes ∧ (telling ctEnd keeping).hasHeads = false ∧
    (item 2 (List.replicate 156 0)).length ≤ 320 ∧ ((citing keeping).witnessFor (some 1) 5).map (·.1) = some 1 ∧ (citing keeping).takesMoney = true ∧
    (served waiting).fw.pend.find? (fun e => e.txid == 3 * 2 ^ 54 + 5) = some ⟨3 * 2 ^ 54 + 5, 77, [], [], 7⟩ ∧ (served waiting).fw.asms.any (fun b => b.peer == 5 && b.id == 7 && b.whole.isSome) = true ∧
    (served waiting).fw.asms.any (fun b => b.peer == 5 && b.id == 8 && b.whole.isNone) = true ∧ (served waiting).fw.asms.any (fun b => b.peer == 6) = false ∧
    (served keeping).isActive = true ∧ (served id).isActive = false ∧ (served keeping).engineOn 4 = true ∧ receiving.portUp 0 = true ∧ all.portUp 0 = false := by decide
theorem wit_TransactionsAndFloorFollowTheirEvents_batch : (((served waiting).fw.asms.map (·.whole)).headD none).map (·.2.2) = some body1 ∧
    (served waiting).batchOk 5 (batchRecord body1) body1 = true ∧ (served waiting).batchOk 6 (batchRecord body1) body1 = false ∧ (bodyEntry body1 0).1 / 2 ^ 54 = 3 ∧ (bodyEntry body1 0).2.1 = 77 := by decide
theorem wit_TransactionsAndFloorFollowTheirEvents_ends : (sealing 0 0 .event).mayComplete 0 = true ∧ (ledgerComplete (sealing 0 0 .event) 0).fwServes = true ∧
    (ledgerComplete (sealing 0 0 .event) 0).fw.jobs = [⟨5, rec3, [], .event, 0, none, 0⟩] ∧ (sealing 8 3 .event).mayComplete 0 = true ∧ (sealing 6 0 (.raise 5 9)).mayComplete 0 = true ∧
    ({ sealing 0 0 .event with fw := { (sealing 0 0 .event).fw with running := false } } : State).fwServes = false ∧
    ({ sealing 0 0 .event with fw := { (sealing 0 0 .event).fw with running := false } } : State).mayComplete 0 = true ∧
    (asking 0 (.verify body1)).mayComplete 0 = true ∧ (asking 0 (.verify body1)).fw.jobs = [] ∧ (asking 0 (.verify body1)).fw.asks = [⟨5, .verify body1⟩] ∧ (asking 0 .seen).isActive = true ∧
    batchStatus 4 = some 1 ∧ batchStatus 5 = some 2 ∧ batchStatus 12 = some 3 ∧ batchStatus 13 = none ∧ (sealing 0 0 .event).fw.asks = [] := by decide
theorem wit_TransactionsAndFloorFollowTheirEvents_frames : ether.length = 60 ∧ isTagged ether = false ∧ receiving.typeOk (etherType ether) = true ∧ receiving.destOk 0 ether = true ∧
    (rxFrame ((served id).setFld (FLOOR_RXQ_BASE 0) FLOOR_RXQ_BASE_base 0x1000000) 0).2.isNone = true ∧ (rxFrame (framed 0x88B5 hello id) 0).2 = some (etherOf 0x88B5 hello, 7) ∧ (framed 0x88B5 hello id).isFloor kindHello (etherOf 0x88B5 hello) = true ∧
    (framed 0x88B5 hello id).isFloor kindData (etherOf 0x88B5 hello) = false ∧ (framed 0x88B5 hello id).knownFrame (etherOf 0x88B5 hello) = true ∧ (framed 0x88B6 hello id).knownFrame (etherOf 0x88B6 hello) = false ∧
    (given 0x88B5 hello id).hdrOk hello kindHello = true ∧ hdrLen hello = 40 ∧ hdrSrc hello = 5 ∧ (given 0x88B5 hello id).peer 5 ≠ none ∧ (given 0x88B5 hello id).peer 6 = none ∧
    (given 0x88B5 hello (fun x => { x with sess := [(5, { FwSess.init with est := true, up1 := true })] })).fwServes = true ∧
    ((given 0x88B5 hello (fun x => { x with sess := [(5, { FwSess.init with est := true, up1 := true })] })).fsess 5).up1 = true ∧
    (openFrame (given 0x88B5 hello id) kindData hello).2 = none ∧ (given 0x88B5 hello id).sess 5 = some slot5 ∧ (given 0x88B5 hello id).sess 6 = none ∧
    (framed 0x88B5 hello id).isFrom kindControl 5 (etherOf 0x88B5 (sealedFrame kindControl 4 1)) = true ∧ (framed 0x88B5 hello id).isFrom kindControl 6 (etherOf 0x88B5 (sealedFrame kindControl 4 1)) = false ∧
    (framed 0x88B5 hello id).isFrom kindData 1023 (etherOf 0x88B5 (from1023 3)) = true ∧ (framed 0x88B5 hello id).knownFrame (etherOf 0x88B5 (from1023 4)) = false := by decide
theorem wit_TransactionsAndFloorFollowTheirEvents_node : (inboxed 1 [] keeping).fw.inbox = [(5, 1, [])] ∧ (inboxed 1 [] keeping).keeper = true ∧ (inboxed 6 [9, 0, 0, 0] id).fw.term < 9 ∧
    (inboxed 1 [] (fun x => { keeping x with rebuilt := true })).fw.rebuilt = true ∧ (inboxed 1 [] (fun x => { keeping x with rebuilt := false })).fw.rebuilt = false ∧ (inboxed 4 [] keeping).fw.nextSeq < 2 ^ 34 - 1 ∧
    (inboxed 4 [] (fun x => { keeping x with jobs := [⟨5, rec3, [], .raise 5 9, 0, none, 0⟩] })).fw.jobs.any (fun j => !j.dead) = true ∧
    ((session id).fsess 5).opening = true ∧ ((session id).fsess 6).opening = false ∧ (((session id).fsess 5).held.map (·.seq)) = [3] ∧ hasReplica [] = false ∧ FwSess.init.nonce.length ≤ 32 ∧
    receiving.linkUp 0 = true ∧ receiving.linkUp 1 = false ∧ (served (fun x => { keeping x with active := none })).isActive = false ∧
    receiving.fld (FLOOR_TXQ_HEAD 0) FLOOR_TXQ_HEAD_index ≠ receiving.fld (FLOOR_TXQ_TAIL 0) FLOOR_TXQ_TAIL_index ∧ receiving.fld (FLOOR_Q_CFG 0) FLOOR_Q_CFG_tx_log2 ≤ 12 := by decide
/-- A message of IEEE 1588 of a type and sequenceId from a clock. -/
def ptp (type seq : Nat) (body : List Byte) : List Byte := [BitVec.ofNat 8 type, 2, 0, 54] ++ List.replicate 16 0 ++ List.replicate 10 9 ++ beBytes 2 seq ++ [0, 0] ++ body
/-- The clock runs, with that one as its master. -/
def following (x : Fw) : Fw := { x with ptp := (0, 200, true), clock := { PtpClock.init with master := some (0, List.replicate 10 9, 5), sync := 4, t1 := some 1, t2 := some 2, req := 6, next := 7 } }
theorem wit_TransactionsAndFloorFollowTheirEvents_clock : (framed 0x88F7 (ptp 0 4 (List.replicate 10 0)) following).fw.ptp.2.2 = true ∧ (served id).fw.ptp.2.2 = false ∧
    (rxFrame (framed 0x88F7 (ptp 0 4 (List.replicate 10 0)) following) 0).2.isSome = true ∧ etherType (etherOf 0x88F7 (ptp 0 4 [])) = 0x88F7 ∧ ptpVersion (ptp 0 4 []) = 2 ∧ ptpDomain (ptp 0 4 []) = 0 ∧
    ptpType (ptp 11 4 []) = 11 ∧ ptpType (ptp 9 4 []) = 9 ∧ ptpSeq (ptp 8 4 []) = 4 ∧ ptpSource (ptp 0 4 []) = List.replicate 10 9 ∧
    (given 0x88F7 (ptp 0 4 (List.replicate 10 0)) following).portId 0 ≠ List.replicate 10 9 ∧ (given 0x88F7 (ptp 0 4 (List.replicate 10 0)) following).fromMaster 0 (ptp 0 4 []) = true ∧
    (given 0x88F7 (ptp 11 4 (List.replicate 30 0)) (fun x => { x with ptp := (0, 200, true) })).fw.clock.master = none ∧
    ptpRank (ptp 11 4 (List.replicate 30 0)) < (given 0x88F7 (ptp 11 4 (List.replicate 30 0)) (fun x => { x with ptp := (0, 200, true) })).ownRank ∧
    ((ptp 9 6 (List.replicate 10 0 ++ (given 0x88F7 [] following).portId 0)).drop 44).take 10 = (given 0x88F7 [] following).portId 0 ∧ ptpSeq (ptp 9 6 []) = (given 0x88F7 [] following).fw.clock.req % 65536 ∧
    ((given 0x88F7 [] following).setBit (FLOOR_TXTS_ID 0) FLOOR_TXTS_ID_valid true).bit (FLOOR_TXTS_ID 0) FLOOR_TXTS_ID_valid = true := by decide
/-- The clock runs, neither port's ring holds a frame. -/
def ticking (f : Fw → Fw) : State := ((served fun x => f { x with ptp := (0, 200, true) }).setFld (FLOOR_RXQ_BASE 0) FLOOR_RXQ_BASE_base 0x1000000).setFld (FLOOR_RXQ_BASE 1) FLOOR_RXQ_BASE_base 0x1000000
/-- Port 1's ring alone holds a frame, a Sync. -/
def second : State :=
  ((framed 0x88F7 (ptp 0 4 (List.replicate 10 0)) following).setFld (FLOOR_RXQ_BASE 1) FLOOR_RXQ_BASE_base 0x1000000).setFld (FLOOR_RXQ_BASE 0) FLOOR_RXQ_BASE_base 0x1100000
theorem wit_TransactionsAndFloorFollowTheirEvents_ports : (rxFrame (ticking id) 0).2.isNone = true ∧ (rxFrame (rxFrame (ticking id) 0).1 1).2.isNone = true ∧
    (rxFrame (rxFrame (ticking id) 0).1 1).1.fw.clock.master = none ∧ (rxFrame (rxFrame (ticking following) 0).1 1).1.fw.clock.master.isSome = true ∧
    (List.range 2).all (fun j => !(rxFrame (rxFrame (ticking id) 0).1 1).1.bit (FLOOR_TXTS_ID j) FLOOR_TXTS_ID_valid) = true ∧
    (rxFrame (framed 0x88B5 hello following) 0).2.map (fun e => etherType e.1) = some 0x88B5 ∧
    (rxFrame second 0).2.isNone = true ∧ (rxFrame (rxFrame second 0).1 1).2 = some (etherOf 0x88F7 (ptp 0 4 (List.replicate 10 0)), 7) := by decide

/-- Mailbox 0 holds a request with an operation and parameters. -/
def posted (op : Nat) (ps : List Nat) (f : Fw → Fw) : State :=
  let s := served (fun x => f { x with goes := [0] })
  let s := put s (((op * 2 ^ 16 + 5 * 256) :: ps).zipIdx.map (fun e => (MBX_DATA 0 e.2, BitVec.ofNat 32 e.1)))
  let s := ((s.setFld (MBX_CTRL 0) MBX_CTRL_len (ps.length + 1)).setBit (MBX_CTRL 0) MBX_CTRL_go true).setBit HOST_LINK HOST_LINK_up true
  put s [(HOST_WIN_CFG 0, setF (setF (setF 0 HOST_WIN_CFG_enable 1) HOST_WIN_CFG_write 1) HOST_WIN_CFG_size 16), (HOST_WIN_BASE 0, 0x10000000), (DBG_AUTH, setF 0 DBG_AUTH_unlocked 1)]
/-- The premise that a request of `op` with its parameters has come to Falornyr, in both statements on its commands. -/
def asks (op : Nat) (ps : List Nat) : Bool :=
  let s := posted op ps id
  let c := s.request 0
  let u := acceptCmd s 0
  s.fwServes && s.mbxBusy 0 && s.fw.goes.head? == some 0 && s.fw.cmds == [] && (s.fw.last.lookup 0).map (·.1) != some c.seq && c.op == op && c.flags == 0 && c.len == ps.length + 1 &&
    !u.fw.restart && u.curProfile != 0xFF && ((groupBlocks op).isEmpty || (groupBlocks op).any u.provides) && u.unlocked && c.params.take ps.length == ps
/-- A command whose work goes on. -/
def working (op : Nat) (ps : List Nat) : State := served (fun x => { x with cmds := [⟨0, op * 2 ^ 16 + 9 * 256, ps.length + 1, ps, true, false⟩] })
theorem wit_HostAccessesAndFirmwareCommandsAnswer :
    [(0x0100, []), (0x0101, [0]), (0x0102, [3, aliasAddr 0 0, 1, 0]), (0x0103, [3]), (0x0104, [7]), (0x0105, []), (0x0106, [0, 192]), (0x0107, [0, 256]), (0x0108, List.replicate 14 9)].all (fun e => asks e.1 e.2) = true ∧
    [(0x0200, [2]), (0x0201, []), (0x0202, [15, 7]), (0x0203, [1000]), (0x4000, []), (0x4001, [0, 0]), (0x4002, [0, 432]), (0x4003, [1]), (0x4004, [0, 4096, 4095, 0x0203]), (0x4005, [4095, 1, 0])].all (fun e => asks e.1 e.2) = true ∧
    [(0x4100, [1023, 1, 255, 0, 1, 2, 3, 4, 0x600]), (0x4101, [0, 16]), (0x4102, [5, 0, 192]), (0x4103, [1023]), (0x4104, [5]), (0x4105, [255, 255, 1]), (0x4106, [1023])].all (fun e => asks e.1 e.2) = true ∧
    [(0x5000, [7]), (0x5001, [7]), (0x5002, [7, 5]), (0x5003, [5]), (0x7F00, [0]), (0x7F01, [0, 0, 0]), (0x7F02, [0x10000000, 14])].all (fun e => asks e.1 e.2) = true ∧
    (posted 0x0105 [] id).barsOpen = true ∧ all.barsOpen = false ∧ (posted 0x0106 [0, 192] id).buffer 0 192 = some 0x10000000 ∧ (posted 0x0105 [] id).bit (HOST_WIN_CFG 0) HOST_WIN_CFG_write = true ∧
    (posted 0x0105 [] id).bit (HOST_WIN_CFG 1) HOST_WIN_CFG_enable = false ∧ (busRead (posted 0x0105 [] id) iniHost 0x10000000 8 []).err = false ∧ (busRead (posted 0x0105 [] id) iniHost 0x10000000 8 [2]).poison = true ∧
    (fwRead (acceptCmd (posted 0x0107 [0, 256] id) 0) 0x10000000 256).2.isSome = true ∧ (posted 0x0200 [2] id).profileNow = some profile ∧ mem.windowRegion (aliasAddr 0 0) 65536 = true ∧
    ((working 0x0200 [2]).fw.cmds.map (fun d => (d.op, d.mbx, d.params))) = [(0x0200, 0, [2])] ∧ (working 0x0200 [2]).mbxBusy 0 = false ∧ (peekWords (posted 0x7F02 [0, 1] id) 0x10000000 1).2 = some [0] ∧
    (peekWords (posted 0x7F02 [0, 1] id) 0x70000000 1).2 = none := by decide
/-- Every translation engine that is ON has a command. -/
def translatingAll : State := let s := lit up [28]; s.setLed { s.led with cmds := [{ cmd 0xD 0 0 none with eng := some 12 }] }
theorem wit_HostAccessesAndFirmwareCommandsAnswer_waits : up.engineOn 0xD = false ∧ translatingAll.engineOn 0xD = true ∧ translatingAll.xlIdle = false ∧ (posted 0x4004 [0, 4096, 4095, 0x0203] id).xlIdle = true ∧
    ((working 0x4004 [0, 192, 0, 0x0203]).fw.cmds.map (·.op)) = [0x4004] ∧ whySeq ∉ (working 0x4004 []).fw.stop ∧ (served keeping).fw.epochOpen = true ∧ (served id).mayKeep = true ∧
    ((served id).setFld SYS_PROFILE SYS_PROFILE_cur 0).mayKeep = false ∧ asks 0x4100 [1023, 1, 255, 0, 1, 2, 3, 4, 0x600] = true ∧ (served keeping).fw.keepers.any (fun e => e.1 == 3) = true ∧
    (served keeping).fw.keepers.any (fun e => e.1 == 4) = false := by decide
theorem wit_PictureSoundAndThreadCommandsAnswer :
    [(0x1000, [3, 0, 1024]), (0x1001, [3, 127, 127, 0, 1]), (0x1002, [0, 0, 255]), (0x1003, [39, 0xFF, 1]), (0x1004, [3, 0, 16383, 0, 1]), (0x1005, [3])].all (fun e => asks e.1 e.2) = true ∧
    [(0x1100, [3, 0]), (0x1101, [3, 1]), (0x1102, [3, 5]), (0x1103, [3]), (0x1104, [3, 0x21000005, 1, 2, 3, 4]), (0x1200, [3]), (0x1201, [127, 0xFF]), (0x1202, [3, 1, 1, 0, 16]), (0x1203, [3, 0])].all (fun e => asks e.1 e.2) = true ∧
    [(0x2000, [127, 0, 0, 0, 16, 0x80000, 0]), (0x2001, [15, (setF 0 AUD_BUS_CTRL_nref 1).toNat, 0, 0, 32]), (0x2002, [1, 71, 0]), (0x2003, [2047, 1, 0]), (0x2004, [3, 0, 0]), (0x2005, [])].all (fun e => asks e.1 e.2) = true ∧
    [(0x3000, [0x7FFFC, 4, 0]), (0x3001, [1, 0, 1]), (0x3002, [63, 0x12000000, 0x12001000]), (0x3003, [63]), (0x3004, [5, 0]), (0x3005, [63, 3]), (0x3006, [63])].all (fun e => asks e.1 e.2) = true ∧
    (all.head 3).palJob.isSome = false ∧ all.bit BLK_STAT BLK_STAT_running = false ∧ (working 0x1100 [3, 0]).blkOn 12 = true ∧ (working 0x1104 [3]).bit (HEAD_PKT_CTRL 3) HEAD_PKT_CTRL_go = false ∧
    pktCtrlOk 0x21000005 = true ∧ busCtrlOk 15 (setF 0 AUD_BUS_CTRL_nref 1).toNat = true ∧ busFxOk 0 = true ∧ (all.thr 63).state = .free ∧ ((all.setThr 63 { Thr.init with state := .halted }).thr 63).state = .halted ∧
    (working 0x3001 [0]).curTable = 0 ∧ configBad (List.replicate 11 0) = none := by decide

/-! ## Supplies, clocks, policies, debug -/

/-- Ember in a phase. -/
def inPhase (p : EmberPhase) : State := all.setEmber { all.ember with phase := p }
/-- PLL 0 runs, locked, from crystal A, and crystal B is stable. -/
def runningPll : State := put all [(CLK_PLL_CTRL 0, setF (setF (setF 0 CLK_PLL_CTRL_enable 1) CLK_PLL_CTRL_locked 1) CLK_PLL_CTRL_n 100), (CLK_OSC_STAT, 0xFFFFFFFF), (CLK_SRC, 0xFFFFFFFF)]
theorem wit_FusesBootClocksAndPowerFollowTheirEvents : (inPhase .load).ember.phase = .load ∧ fusesPass [] = true ∧ fusesPass [5] = false ∧ bitOf 0x80000000 FUSE_PROG_go = true ∧
    getF (setF 0x80000000 FUSE_PROG_bit 4096) FUSE_PROG_bit = 4096 ∧ all.inRom = false ∧ all.fuse 925 925 ≠ 1 ∧ (served id).runnable 0 = some profile ∧ (served id).runnable 9 = none ∧
    runningPll.bit CLK_SRC CLK_SRC_xa_en = true ∧ runningPll.bit CLK_OSC_STAT CLK_OSC_STAT_xb_stable = true ∧ runningPll.anyPll = true ∧ runningPll.bit (CLK_PLL_CTRL 0) CLK_PLL_CTRL_locked = true ∧
    all.bit (CLK_PLL_CTRL 0) CLK_PLL_CTRL_enable = false ∧ all.pllInUse 4 false 0 0 0 = false ∧ 2000000000 * 1048576 ≤ vcoHz 100 0 ∧ vcoHz 100 0 ≤ 6400000000 * 1048576 ∧
    (all.setBit CLK_MEAS CLK_MEAS_busy true).bit CLK_MEAS CLK_MEAS_busy = true ∧ ((inPhase .held).setEmber { (inPhase .held).ember with again := false }).ember.again = false ∧ (inPhase (.up 5)).ember.phase = .up 5 ∧ (inPhase (.good 5)).ember.phase = .good 5 ∧
    (inPhase (.down 1)).ember.wakes = 0 ∧ (put all [(PWR_STAT, 0xFFFFFFFF)]).fld PWR_STAT PWR_STAT_en = 63 ∧ (put all [(PWR_WAKE, 0xFFFFFFFF)]).fld PWR_WAKE PWR_WAKE_pin_en = 15 ∧
    (inPhase .midnight).ember.cooling = false ∧ ((all.setFld PWR_STATE PWR_STATE_state 1).setBit PWR_AVS PWR_AVS_enable true).bit PWR_AVS PWR_AVS_enable = true ∧ linearMv 0 (all.fld PWR_PMBUS PWR_PMBUS_exp) < 4096 := by decide
/-- Thread 63 faulted, with its start known and restarts left to it. -/
def faulted : State := (served (fun x => { x with starts := [(63, (0x12000011, 0x12001000))], policy := [(63, 1)] })).setThr 63 { Thr.init with state := .faulted }
/-- Debug is open, and Kiln halted or not. -/
def debugging (halted : Bool) : State := (all.setBit DBG_AUTH DBG_AUTH_unlocked true).setKiln { all.kiln with halted := halted }
/-- Serial port 3 plays from its FIFO as a master. -/
def playing (tx rx : List Nat) (w : Word) : State :=
  let cfg := setF (setF (setF w AUD_SP_CFG_enable 1) AUD_SP_CFG_master 1) AUD_SP_CFG_raw 1
  let s := { put all [(AUD_SP_CFG 3, cfg)] with aud := { all.aud with latches := [(0, [(AUD_SP_CFG 3, cfg)])] } }
  s.setPort 3 { s.port 3 with tx := tx, rx := rx }
theorem wit_PoliciesWatchdogJtagAndDebugAct : ([134, 135] : List Int).any (fun x => (135 : Int) ≤ x) = true ∧ ([134] : List Int).any (fun x => (135 : Int) ≤ x) = false ∧
    ([145] : List Int).any (fun x => (145 : Int) ≤ x) = true ∧ all.ember.temps.all (fun x => x < 130) = true ∧ (put all [(PWR_THERM, 0xFFFFFFFF)]).bit PWR_THERM PWR_THERM_throttle = true ∧
    faulted.fwServes = true ∧ (faulted.thr 63).state = .faulted ∧ faulted.fw.starts.lookup 63 = some (0x12000011, 0x12001000) ∧ (faulted.recent 63 minute).length < smGet (fun _ => 0) faulted.fw.policy 63 ∧
    (served id).fw.starts.lookup 63 = none ∧ ((served id).setBit KIND_STALL KIND_STALL_fired true).bit KIND_STALL KIND_STALL_fired = true ∧ ((List.range 64).any (fun i => (all.thr i).state == .halted)) = false ∧
    ((served id).setBit (HEAD_WIT_STAT 3) HEAD_WIT_STAT_stuck true).bit (HEAD_WIT_STAT 3) HEAD_WIT_STAT_stuck = true ∧ ((served id).recent 67 tenMinutes).length < 3 ∧
    (served (fun x => { x with restarts := [(67, [0, 0, 0])] })).recent 67 tenMinutes = [0, 0, 0] ∧ (served id).bit CLK_OSC_STAT CLK_OSC_STAT_xa_stable = false ∧
    (served (fun x => { x with mend := some 0x10000013 })).fw.mend = some 0x10000013 ∧ (served id).fw.jobs = [] ∧ (all.setBit SYS_WDOG_CTRL SYS_WDOG_CTRL_enable true).bit SYS_WDOG_CTRL SYS_WDOG_CTRL_enable = true ∧
    ({ (all.setBit SYS_WDOG_CTRL SYS_WDOG_CTRL_enable true) with tb := 2 ^ 50 } : State).wdog + all.fld SYS_WDOG_CTRL SYS_WDOG_CTRL_timeout * 250000 ≤ 2 ^ 50 ∧ getF 0xA5 SYS_WDOG_KICK_key = 0xA5 ∧
    (debugging true).unlocked = true ∧ all.unlocked = false ∧ (debugging false).kiln.load = none ∧ dbgOpen DBG_AUTH = true ∧ 0x10000000 / 0x10000 ≠ 0x4030 ∧
    ((debugging true).setFld SYS_PROFILE SYS_PROFILE_cur 3).curProfile = 3 ∧ (all.setFld DBG_BENCH DBG_BENCH_start 8).fld DBG_BENCH DBG_BENCH_start = 8 ∧ (playing [] [] 0).spCfg 3 AUD_SP_CFG_enable = 1 ∧
    (playing [] [] 0).portClocked 3 = true ∧ (playing [1] [] (setF 0 AUD_SP_CFG_tx_en 1)).spCfg 3 AUD_SP_CFG_tx_en = 1 ∧ ((playing (List.replicate 64 1) [] 0).slotCount 3 ≤ 64) ∧
    ((playing [] (List.replicate 64 1) (setF 0 AUD_SP_CFG_rx_en 1)).port 3).rx.length = 64 ∧ (playing [] [] 0).blkOn 15 = true := by decide

end Sys2Proof.Tests
end

section
/-! SUPPORT. A register written field by field (R7, R10): the fields of every register of the map lie within the word and apart from one another, so
each field ends a write with the value its own access code gives it. -/

namespace Sys2Proof

/-- Two bit ranges with no bit in common. -/
abbrev Fld.Apart (f g : Fld) : Prop := f.hi < g.lo ∨ g.hi < f.lo

/-- A bit range that lies within the 32-bit word. -/
abbrev Fld.InWord (f : Fld) : Prop := f.hi < 32 ∧ f.lo ≤ f.hi

end Sys2Proof

namespace Sys2Proof.Machine

/-- Field rows that lie within the word, no two with a bit in common. -/
abbrev FieldsDisjoint (fs : List FRow) : Prop := (∀ f ∈ fs, f.fld.InWord) ∧ fs.Pairwise (fun f g => f.fld.Apart g.fld)

/-! ## One field -/

/-- A written field ends within its own bits, whatever its access code: a field apart from it keeps its value. -/
theorem getF_write_apart (w v : Word) {f : FRow} {g : Fld} (hf : f.fld.InWord) (hg : f.fld.Apart g) : getF (f.write w v) g = getF w g := by
  have keep : ∀ n, getF (setF w f.fld n) g = getF w g := fun n => getF_setF_apart w f.fld g n hf.1 hf.2 hg.symm
  unfold FRow.write
  cases f.acc with
  | rw => dsimp only; split <;> simp only [keep]
  | w1c | w1s => exact keep _
  | ro | wo | rc => rfl

/-- What a write leaves in a field depends on the old word through that field alone. -/
theorem getF_write_congr {w u : Word} (v : Word) {f : FRow} (hf : f.fld.InWord) (h : getF w f.fld = getF u f.fld) :
    getF (f.write w v) f.fld = getF (f.write u v) f.fld := by
  have cut : ∀ n, getF (setF w f.fld n) f.fld = getF (setF u f.fld n) f.fld := fun n => by
    rw [getF_setF w f.fld n hf.1 hf.2, getF_setF u f.fld n hf.1 hf.2]
  unfold FRow.write
  cases f.acc with
  | rw => dsimp only; split <;> simp only [cut, h]
  | w1c | w1s => simp only [cut, h]
  | ro | wo | rc => exact h

/-- An RW field written a reserved encoding leaves the whole word as it was (R10). -/
theorem write_of_reserved (w v : Word) {f : FRow} (hacc : f.acc = .rw) (h : f.legal (getF v f.fld) = false) : f.write w v = w := by
  simp [FRow.write, hacc, h]

/-- An RW field written a legal encoding holds it. -/
theorem getF_write_of_legal (w v : Word) {f : FRow} (hf : f.fld.InWord) (hacc : f.acc = .rw) (h : f.legal (getF v f.fld) = true) :
    getF (f.write w v) f.fld = getF v f.fld := by
  have hset : f.write w v = setF w f.fld (getF v f.fld) := by simp [FRow.write, hacc, h]
  rw [hset, getF_setF w f.fld _ hf.1 hf.2, Nat.mod_eq_of_lt (getF_lt v f.fld)]

/-! ## A list of fields -/

/-- The fields of a list, written in turn, leave a field apart from all of them as it was. -/
theorem getF_writeAll_apart (fs : List FRow) (w v : Word) {g : Fld} (hin : ∀ f ∈ fs, f.fld.InWord) (hg : ∀ f ∈ fs, f.fld.Apart g) :
    getF (fs.foldl (fun w f => f.write w v) w) g = getF w g := by
  induction fs generalizing w with
  | nil => rfl
  | cons f fs ih =>
    obtain ⟨hf, hins⟩ := List.forall_mem_cons.1 hin
    obtain ⟨hfg, hgs⟩ := List.forall_mem_cons.1 hg
    rw [List.foldl_cons, ih _ hins hgs, getF_write_apart w v hf hfg]

/-- Disjoint fields written in turn: each ends as if it alone had been written. -/
theorem getF_writeAll_mem (fs : List FRow) (w v : Word) (hfs : FieldsDisjoint fs) {g : FRow} (hg : g ∈ fs) :
    getF (fs.foldl (fun w f => f.write w v) w) g.fld = getF (g.write w v) g.fld := by
  induction fs generalizing w with
  | nil => cases hg
  | cons f fs ih =>
    obtain ⟨hin, hpw⟩ := hfs
    obtain ⟨hf, hins⟩ := List.forall_mem_cons.1 hin
    obtain ⟨hfa, hpws⟩ := List.pairwise_cons.1 hpw
    rw [List.foldl_cons]
    rcases List.mem_cons.1 hg with rfl | hg
    · exact getF_writeAll_apart fs _ v hins fun f hf => (hfa f hf).symm
    · rw [ih _ ⟨hins, hpws⟩ hg]
      exact getF_write_congr v (hins g hg) (getF_write_apart w v hf (hfa g hg))

/-! ## The register map -/

/-- The fields of every register of each 64 KB space (Table 2-9) lie within the word, no two with a bit in common. -/
theorem rowsAt_fieldsDisjoint (b : Nat) : ∀ r ∈ rowsAt b, FieldsDisjoint r.fields := by
  unfold rowsAt
  split <;> decide

theorem regRow_fieldsDisjoint {a : Nat} {r : RegRow} (h : regRow a = some r) : FieldsDisjoint r.fields :=
  rowsAt_fieldsDisjoint (a / 0x10000) r (List.mem_of_find?_eq_some h)

/-- A write of a register of the map gives each field what the field's own write gives it. -/
theorem getF_regWrite {a : Nat} {r : RegRow} (h : regRow a = some r) (w v : Word) {f : FRow} (hf : f ∈ r.fields) :
    getF (r.write w v) f.fld = getF (f.write w v) f.fld := getF_writeAll_mem r.fields w v (regRow_fieldsDisjoint h) hf

/-- Settles O9: the fields of a register are disjoint, so a write gives each of them what its own access code gives it. -/
theorem reservedEncodingLeavesItsField : Obligations.ReservedEncodingLeavesItsField := by
  intro a r hr w v f hf
  have own : getF (r.write w v) f.fld = getF (f.write w v) f.fld := getF_regWrite hr w v hf
  obtain ⟨hin, -⟩ := regRow_fieldsDisjoint hr
  refine ⟨own, fun hacc hres => ?_, fun hacc hleg => ?_⟩
  · rw [own, write_of_reserved w v hacc hres]
  · rw [own, getF_write_of_legal w v (hin f hf) hacc hleg]

end Sys2Proof.Machine
end

section
/-! SUPPORT. An enable and a block reset written to a block (R34, R38): what each does in the state that the block reports, and what the block reports
afterwards. -/

namespace Sys2Proof.Machine

/-! ## The reported state of a block -/

/-- FAB_BLK_CTRL and FAB_BLK_STAT are arrays of 40 registers (Table 2-6) that do not meet. -/
theorem FAB_BLK_STAT_ne_FAB_BLK_CTRL (n m : Fin 40) : FAB_BLK_STAT n ≠ FAB_BLK_CTRL m := by
  unfold FAB_BLK_STAT FAB_BLK_CTRL
  omega

theorem FAB_BLK_STAT_ne_wires (n : Nat) : FAB_BLK_STAT n ≠ PIN_SAFE ∧ FAB_BLK_STAT n ≠ SYS_ALERT := by
  unfold FAB_BLK_STAT PIN_SAFE SYS_ALERT
  omega

@[simp] theorem blkState_setBit_ctrl (s : State) (n m : Fin 40) (f : Fld) (b : Bool) :
    (s.setBit (FAB_BLK_CTRL m) f b).blkState n = s.blkState n :=
  fld_setBit_ne s f _ b (FAB_BLK_STAT_ne_FAB_BLK_CTRL n m)

/-- A status bit above the state field leaves every block's reported state. -/
theorem blkState_setBit_flag (s : State) (n a k : Nat) (b : Bool) (hk : FAB_BLK_STAT_state.hi < k) (h : k < 32) :
    (s.setBit a ⟨k, k⟩ b).blkState n = s.blkState n :=
  fld_setBit_apart s a _ ⟨k, k⟩ _ b h (Nat.le_refl k) (.inl hk)

/-! ## An enable written while a sequence runs (R34) -/

theorem blockEnable_of_starting {s : State} {n : Fin 40} (h : s.blkState n = 1) (on : Bool) :
    blockEnable s n on =
      (s.setBit (FAB_BLK_CTRL n) FAB_BLK_CTRL_enable on).setBit (FAB_BLK_STAT n) FAB_BLK_STAT_pending_stop (!on) := by
  simp only [blockEnable, blkState_setBit_ctrl, h]

theorem blockEnable_of_stopping {s : State} {n : Fin 40} (h : s.blkState n = 3) (on : Bool) :
    blockEnable s n on =
      (s.setBit (FAB_BLK_CTRL n) FAB_BLK_CTRL_enable on).setBit (FAB_BLK_STAT n) FAB_BLK_STAT_pending_start on := by
  simp only [blockEnable, blkState_setBit_ctrl, h]

theorem does_blockEnableWrite_of_starting {s : State} {n : Fin 40} (h : s.blkState n = 1) (on : Bool) :
    Does (.blockEnableWrite n on) s
      ((s.setBit (FAB_BLK_CTRL n) FAB_BLK_CTRL_enable on).setBit (FAB_BLK_STAT n) FAB_BLK_STAT_pending_stop (!on)) :=
  does_of rfl (blockEnable_of_starting h on)

theorem does_blockEnableWrite_of_stopping {s : State} {n : Fin 40} (h : s.blkState n = 3) (on : Bool) :
    Does (.blockEnableWrite n on) s
      ((s.setBit (FAB_BLK_CTRL n) FAB_BLK_CTRL_enable on).setBit (FAB_BLK_STAT n) FAB_BLK_STAT_pending_start on) :=
  does_of rfl (blockEnable_of_stopping h on)

/-- A command that writes a block's enable and one of its flags leaves the sequence running, and the flag then reads as written. -/
theorem completes_of_does_setFlag {c : Instr} {s : State} {n : Fin 40} {k : Nat} {on p : Bool} (hk : FAB_BLK_STAT_state.hi < k) (h32 : k < 32)
    (h : Does c s ((s.setBit (FAB_BLK_CTRL n) FAB_BLK_CTRL_enable on).setBit (FAB_BLK_STAT n) ⟨k, k⟩ p)) :
    Completes c s (fun t => t.blkState n = s.blkState n ∧ t.bit (FAB_BLK_STAT n) ⟨k, k⟩ = p) := by
  obtain ⟨hsafe, halert⟩ := FAB_BLK_STAT_ne_wires n
  refine h.completes ⟨?_, ?_⟩
  · have wires : ∀ u : State, (settle (keepQueue s u)).blkState n = u.blkState n := fun _ => settle_fld _ _ hsafe halert
    rw [wires, blkState_setBit_flag _ _ _ _ _ hk h32, blkState_setBit_ctrl]
  · rw [settle_bit _ _ hsafe halert, bit_keepQueue, bit_setBit_self _ _ _ _ h32]

theorem completes_blockEnableWrite_of_starting {s : State} {n : Fin 40} (h : s.blkState n = 1) (on : Bool) :
    Completes (.blockEnableWrite n on) s (fun t => t.blkState n = 1 ∧ t.bit (FAB_BLK_STAT n) FAB_BLK_STAT_pending_stop = !on) :=
  h ▸ completes_of_does_setFlag (by decide) (by decide) (does_blockEnableWrite_of_starting h on)

theorem completes_blockEnableWrite_of_stopping {s : State} {n : Fin 40} (h : s.blkState n = 3) (on : Bool) :
    Completes (.blockEnableWrite n on) s (fun t => t.blkState n = 3 ∧ t.bit (FAB_BLK_STAT n) FAB_BLK_STAT_pending_start = on) :=
  h ▸ completes_of_does_setFlag (by decide) (by decide) (does_blockEnableWrite_of_stopping h on)

/-- Settles O11: one write leaves the block's sequence running, so the write after it finds the same state and sets the pending bit anew. -/
theorem enableWrittenDuringASequence : Obligations.EnableWrittenDuringASequence := by
  intro s n on last
  refine ⟨fun h => does_blockEnableWrite_of_starting h on, fun h => does_blockEnableWrite_of_stopping h on, fun h => ?_, fun h => ?_⟩
  · obtain ⟨t, first, still, -⟩ := completes_blockEnableWrite_of_stopping h on
    obtain ⟨u, second, decided⟩ := completes_blockEnableWrite_of_stopping still last
    exact ⟨t, u, first, second, decided⟩
  · obtain ⟨t, first, still, -⟩ := completes_blockEnableWrite_of_starting h on
    obtain ⟨u, second, decided⟩ := completes_blockEnableWrite_of_starting still last
    exact ⟨t, u, first, second, decided⟩

/-! ## A block reset of a block that is not ON (R38) -/

theorem blkOn_eq_false_of_blkState_ne {s : State} {n : Nat} (h : s.blkState n ≠ 2) : s.blkOn n = false := by
  simp [State.blkOn, h]

/-- The refusal comes before the reset mode is looked at. -/
theorem blockReset_of_not_blkOn {s : State} {n : Nat} (h : s.blkOn n = false) :
    blockReset s n = s.setBit (FAB_BLK_STAT n) FAB_BLK_STAT_reset_refused true := by
  simp [blockReset, h]

/-- Settles O13: a block that reports another state than ON is refused before its reset mode is looked at. -/
theorem blockResetIsRefusedUnlessOn : Obligations.BlockResetIsRefusedUnlessOn := by
  intro s n h
  exact does_of rfl (blockReset_of_not_blkOn (blkOn_eq_false_of_blkState_ne h))

end Sys2Proof.Machine
end

section
/-! SUPPORT. Corrective write-backs (R56): a store within an ECC word leaves none waiting there, and one whose command comes is gone afterwards. -/

namespace Sys2Proof.Machine

/-! ## The write-back that waits for a word -/

theorem lookup_smErase_self {α : Type} (m : List (Nat × α)) (k : Nat) : (smErase m k).lookup k = none :=
  List.lookup_eq_none_iff.2 fun e he => by simpa using (smErase_ne m k e he).symm

/-- Cancelled, a write-back no longer waits. -/
@[simp] theorem lookup_wb_dropWb (s : State) (h : Nat) : (s.dropWb h).wb.lookup h = none := lookup_smErase_self _ _

@[simp] theorem capturePoison_wb (s : State) (p k off kind : Nat) : (capturePoison s p k off kind).wb = s.wb := by
  unfold capturePoison
  split <;> simp

/-! ## The command -/

theorem writeBack_of_waiting {s : State} {h v : Nat} (hw : s.wb.lookup h = some v) :
    writeBack s h = ((s.setBytes h (leBytes 8 v)).setEcc h 0).dropWb h := by
  simp only [writeBack, hw]

theorem writeBack_of_none {s : State} {h : Nat} (hw : s.wb.lookup h = none) : writeBack s h = s := by
  simp only [writeBack, hw]

/-- With no write-back waiting the command changes nothing. -/
theorem does_correctiveWriteBack_of_none {s : State} {h : Nat} (hw : s.wb.lookup h = none) : Does (.correctiveWriteBack h) s s :=
  does_of rfl (writeBack_of_none hw)

/-! ## A write within one ECC word -/

/-- A store within an ECC word, full or partial, drops the word's write-back last, so one that the read of a read-modify-write adds goes with it. -/
theorem lookup_wb_storeQdr (s : State) (p k off i : Nat) (new : List Byte) (seen : List Nat) :
    (storeQdr s p k off i new seen).wb.lookup (aliasAddr k off) = none := by
  unfold storeQdr
  dsimp only
  split
  · exact lookup_wb_dropWb _ _
  · split
    · rw [capturePoison_wb, lookup_wb_dropWb]
    · exact lookup_wb_dropWb _ _

/-- A write that no rule refuses, outside the mirrored regions, is one store in an island that is awake. -/
theorem writeQdr_of_unmirrored {s : State} {p k off i : Nat} {new : List Byte} {seen : List Nat} (ht : s.inTracking k off = false)
    (hm : s.mirrorOf MEM_MIRROR_mirror k off = none) (hp : s.mirrorOf MEM_MIRROR_primary k off = none) (hw : s.wrapper (blkChannel k) = none) :
    writeQdr s p k off i new seen = (storeQdr (memTouch s) p k off i new seen, none) := by
  simp [writeQdr, ht, hm, hp, hw]

/-- A write within one word of a channel that accepts it stores there and is then snooped. -/
theorem memWrite_of_writeQdr {s t : State} {p a k off : Nat} {bs : List Byte} {seen : List Nat} (ha : s.target a = .qdr k off) (h0 : bs ≠ [])
    (h8 : a % 8 + bs.length ≤ 8) (hw : writeQdr s p k (off / 8 * 8) (off % 8) bs seen = (t, none)) :
    memWrite s p a bs seen = ⟨snoop t a bs.length, [], false, false⟩ := by
  have word : writeWord s p a bs seen = ⟨t, [], false, false⟩ := by simp only [writeWord, ha, hw]
  simp [memWrite_one s p a bs seen h0 h8, word]

theorem onlyQdr_of_qdr {s : State} {a k off : Nat} (ha : s.target a = .qdr k off) (f : State → State) : onlyQdr s a f = f s := by
  simp only [onlyQdr, ha]

/-- QDR_WRITE that its channel accepts: the store, its snooping, and a response without an error. -/
theorem does_qdrWrite_of_writeQdr {s t : State} {port : Fin 12} {a : Word} {bs : List Byte} {seen : List Nat} {k off : Nat}
    (ha : s.target a.toNat = .qdr k off) (h0 : bs ≠ []) (h8 : a.toNat % 8 + bs.length ≤ 8)
    (hw : writeQdr s port k (off / 8 * 8) (off % 8) bs seen = (t, none)) :
    Does (.qdrWrite port a bs seen) s { snoop t a.toNat bs.length with rd := ⟨0, false, false⟩ } :=
  does_of rfl ((onlyQdr_of_qdr ha _).trans (congrArg Access.respond (memWrite_of_writeQdr ha h0 h8 hw)))

/-- Settles O17: the store that the write comes to leaves no write-back waiting for its word, and neither the snooping after it nor the wires add one. -/
theorem writeCancelsCorrectiveWriteBack : Obligations.WriteCancelsCorrectiveWriteBack := by
  refine ⟨fun s port a bs k off ha h0 h8 ht hm hp hw => ?_, fun s h v hv => ?_, fun s h => does_correctiveWriteBack_of_none⟩
  · have written := does_qdrWrite_of_writeQdr (port := port) (seen := []) ha h0 h8 (writeQdr_of_unmirrored ht hm hp hw)
    refine written.completes (does_correctiveWriteBack_of_none ?_)
    simp only [settle_rest, keepQueue_rest, snoop_wb, lookup_wb_storeQdr]
  · exact ⟨does_of rfl (writeBack_of_waiting hv), lookup_wb_dropWb _ h⟩

end Sys2Proof.Machine
end

section
/-! SUPPORT. System registers and privilege on Kiln (R238, R264): what MRS, MSR and the Supervisor instructions come to at each privilege. -/

namespace Sys2Proof.Machine

/-! ## The Supervisor instructions -/

/-- At User an instruction of Supervisor takes the privilege fault, whatever it would do. -/
theorem kPriv_user {s : State} (i : Ins) (body : State → State) (h : s.ksup = false) : kPriv s i body = kfault s 2 (BitVec.ofNat 32 i.word) := by
  simp [kPriv, h]

theorem does_eret_user {s : State} {f : Form} (h : s.ksup = false) (hi : s.issues .kiln (Form.sys f 4)) :
    Does (.eret .kiln f) s (kfault s 2 (BitVec.ofNat 32 (Form.sys f 4).word)) :=
  kiln_row s _ _ kEret rfl hi _ (kPriv_user _ _ h)

theorem does_wait_user {s : State} {f : Form} (h : s.ksup = false) (hi : s.issues .kiln (Form.sys f 3)) :
    Does (.wait .kiln f) s (kfault s 2 (BitVec.ofNat 32 (Form.sys f 3).word)) :=
  kiln_row s _ _ kWait rfl hi _ (kPriv_user _ _ h)

theorem does_iflush_user {s : State} {f : Form} (h : s.ksup = false) (hi : s.issues .kiln (Form.sys f 2)) :
    Does (.iflush .kiln f) s (kfault s 2 (BitVec.ofNat 32 (Form.sys f 2).word)) :=
  kiln_row s _ _ kIflush rfl hi _ (kPriv_user _ _ h)

/-! ## MRS -/

/-- A register other than status is out of reach at User. -/
theorem kMrs_user {s : State} {i : Ins} {n : Nat} (hn : i.bits 11 0 = n) (h9 : n ≤ 9) (h0 : n ≠ 0) (h : s.ksup = false) :
    kMrs s i = kfault s 2 (BitVec.ofNat 32 i.word) := by
  rw [kMrs_some s i n _ hn (sysReg_some s n h9 _ rfl), if_pos (by simp [h0, h])]

theorem kMrs_reads {s : State} {i : Ins} {n : Nat} {w : Word} (hn : i.bits 11 0 = n) (hw : s.sysReg n = some w) (h : n = 0 ∨ s.ksup = true) :
    kMrs s i = kdone (s.setKreg i.rd w) i.len := by
  rw [kMrs_some s i n w hn hw, if_neg (by rcases h with h | h <;> simp [h])]

/-! ## MSR -/

theorem kMsr_user {s : State} {i : Ins} {n : Nat} (hn : i.bits 11 0 = n) (h9 : n ≤ 9) (h0 : n ≠ 0) (h : s.ksup = false) :
    kMsr s i = kfault s 2 (BitVec.ofNat 32 i.word) := by
  rw [kMsr_some s i n _ hn (sysReg_some s n h9 _ rfl), if_pos (by simp [h]), if_neg (by simpa using h0)]

/-- Flags set from a word are its low four bits. -/
theorem setKflags_flagsOf (s : State) (w : Word) :
    setKflags s (Flags.of w) = s.setKiln { s.kiln with status := (s.kiln.status &&& 0xFFFFFFF0) ||| (w &&& 0xF) } := by
  unfold setKflags
  rw [flags_word]

theorem kMsr_status_user {s : State} {i : Ins} (hn : i.bits 11 0 = 0) (h : s.ksup = false) :
    kMsr s i = kdone (s.setKiln { s.kiln with status := (s.kiln.status &&& 0xFFFFFFF0) ||| (s.kreg i.ra &&& 0xF) }) i.len := by
  rw [kMsr_some s i 0 _ hn rfl, if_pos (by simp [h]), if_pos (by rfl), setKflags_flagsOf]

/-- Status at Supervisor is written after the instruction has completed, so it keeps the prog that it is given. -/
theorem kMsr_status_supervisor {s : State} {i : Ins} (hn : i.bits 11 0 = 0) (h : s.ksup = true) :
    kMsr s i = s.setKiln { s.kiln with pc := (s.kiln.pc + BitVec.ofNat 32 i.len) &&& 0xFFFFFFFE, status := s.kreg i.ra &&& 0xFFFF0F9F } := by
  rw [kMsr_some s i 0 _ hn rfl, if_neg (by simp [h]), if_pos (by rfl)]
  rfl

theorem kMsr_supervisor {s : State} {i : Ins} {n : Nat} (hn : i.bits 11 0 = n) (h9 : n ≤ 9) (h0 : n ≠ 0) (h : s.ksup = true) :
    kMsr s i = kdone (s.setSysReg n (s.kreg i.ra)) i.len := by
  rw [kMsr_some s i n _ hn (sysReg_some s n h9 _ rfl), if_neg (by simp [h]), if_neg (by simpa using h0)]

/-- Settles O41: a number above 9 names no register; up to 9 the number and the privilege decide between the fault and the access. -/
theorem systemRegistersAndPrivilege : Obligations.SystemRegistersAndPrivilege := by
  intro s f cc arg k mrs msr n values w depth keep after pcNext
  have mrsNumber : mrs.bits 11 0 = n := bits_long cc arg 0 0x2F
  have msrNumber : msr.bits 11 0 = n := bits_long cc arg 0 0x30
  refine ⟨fun hi => ?_, fun hi => ?_, fun hu => ⟨does_eret_user hu, does_wait_user hu, does_iflush_user hu⟩⟩
  · have does := kiln_row s (.mrs .kiln cc arg) mrs kMrs rfl hi
    refine ⟨fun h9 => ?_, fun h9 h0 hu => ?_, fun h9 h => ?_⟩
    · exact does _ (kMrs_none s mrs n mrsNumber (sysReg_none s n h9))
    · exact does _ (kMrs_user mrsNumber h9 h0 hu)
    · exact does _ (kMrs_reads mrsNumber (sysReg_some s n h9 _ rfl) h)
  · have does := kiln_row s (.msr .kiln cc arg) msr kMsr rfl hi
    refine ⟨fun h9 => ?_, fun h9 h0 hu => ?_, fun h0 hu => ?_, fun h0 hs => ?_, fun h9 h0 hs => ?_⟩
    · exact does _ (kMsr_none s msr n msrNumber (sysReg_none s n h9))
    · exact does _ (kMsr_user msrNumber h9 h0 hu)
    · exact does _ (kMsr_status_user (msrNumber.trans h0) hu)
    · exact does _ (kMsr_status_supervisor (msrNumber.trans h0) hs)
    · refine does _ ((kMsr_supervisor msrNumber h9 h0 hs).trans ?_)
      rw [setSysReg_eq s n w h9 h0]
      rfl

end Sys2Proof.Machine
end

section
/-! SUPPORT. Loads and stores in a write-back mode (R226): the order in which the base, the destination and the stored bytes are written. -/

namespace Sys2Proof.Machine

/-- On each agent a command is the M-form load or store of `n` bytes that instruction `i` encodes. -/
def AccessesBy (c : Agent → Instr) (i : Ins) (n : Nat) (load sext : Bool) : Prop :=
  ∀ (a : Agent) (s : State), exec (c a) s = .next (settle (keepQueue s (memRow s a i fun i g => i.memM g n load sext)))

theorem setKreg_stores (u : State) (r : Nat) (w : Word) : (u.setKreg r w).kind.stores = u.kind.stores := by
  unfold State.setKreg State.setKregAt
  split
  · split <;> rfl
  · rfl

/-- The base register of an access written, in a mode that changes it. -/
def baseWritten (u : State) (a : Agent) (base : Option (Nat × Word)) : State :=
  match base with
  | some (r, w) => setRegOf u a r w
  | none => u

theorem baseWritten_mem (u : State) (a : Agent) (base : Option (Nat × Word)) : (baseWritten u a base).mem = u.mem := back_mem u a base

theorem baseWritten_sb (u : State) (base : Option (Nat × Word)) : (baseWritten u .kiln base).kiln.sb = u.kiln.sb := back_sb u base

theorem baseWritten_stores (u : State) (a : Agent) (base : Option (Nat × Word)) : (baseWritten u a base).kind.stores = u.kind.stores := by
  cases base with
  | none => rfl
  | some e =>
    cases a with
    | kiln => exact setKreg_stores u e.1 e.2
    | thread t => rfl

theorem threadDone_stores (u : State) (t len : Nat) : (threadDone u t len).kind.stores = u.kind.stores := rfl

section
variable {c : Agent → Instr} {s : State} {i : Ins} {n a : Nat} {sext : Bool}

/-! ## Loads: the destination is written after the base -/

theorem completes_load_thread (hc : AccessesBy c i n true sext) {t : Fin 64} (ha : (i.memM (s.treg t) n true sext).addr.toNat = a) (hi : s.issues (.thread t) i)
    (hal : a % n = 0) (hin : a + n ≤ 0x80000) :
    Completes (c (.thread t)) s fun u => u.treg t i.rd = extend n sext (leOf (s.tbytes t (0x12000000 + a) n)) := by
  subst ha
  obtain ⟨-, -, loads, -⟩ := mem_thread s t i (i.memM (s.treg t) n true sext) _ rfl _ (hc _ s) hi
  refine (loads hal hin rfl).completes ?_
  rw [treg_wire, treg_threadDone]
  exact treg_setTreg _ _ _ _

theorem completes_load_tcm (hc : AccessesBy c i n true sext) (ha : (i.memM s.kreg n true sext).addr.toNat = a) (hi : s.issues .kiln i) (hal : a % n = 0)
    (htcm : inTcm a = true) (hwp : s.wpMatch false a n = none) :
    Completes (c .kiln) s fun u => u.kreg i.rd = extend n sext (leOf (s.bytes a n)) := by
  subst ha
  obtain ⟨-, -, access⟩ := mem_kiln s i (i.memM s.kreg n true sext) _ rfl _ (hc _ s) hi
  obtain ⟨loads, -⟩ := access hal (.inl (inRegs_of_inTcm _ htcm)) hwp
  refine (loads rfl htcm).completes ?_
  rw [kreg_wire, kreg_kdone]
  exact kreg_setKreg _ _ _

theorem kreg_loadWrite (u : State) (l : KLoad) (v : Nat) : (loadWrite u l v).kreg l.rd = extend l.size l.sext v := by
  unfold loadWrite
  rw [kreg_kdone, kreg_setKreg]

/-- The data of a load returns without an error or poison, and neither a halt nor a step ends there. -/
theorem loadReturn_of_data {l : KLoad} {seen : List Nat} {r : Access} {u : State} (hr : busFinish s l.opened iniKiln l.addr l.size seen = r)
    (hu : loadWrite (r.s.setKiln { r.s.kiln with load := none }) l (leOf r.data) = u) (hl : s.kiln.load = some l) (hf : l.failed = false)
    (hk : s.kiln.lockup = false) (hp : s.ember.phase = .run) (hb : s.buffered l.addr l.size = false) (he : r.err = false) (hpo : r.poison = false)
    (hh : u.kiln.haltReq = false) (hs : u.kiln.step = false) : loadReturn s seen = u := by
  simp [loadReturn, hl, hk, hp, hb, hf, hr, he, hpo, hu, hh, hs]

/-! ## Stores: the bytes are read before the base is written -/

theorem tbytes_congr {u v : State} (hm : u.mem = v.mem) (hk : u.kind.stores = v.kind.stores) (t a n : Nat) : u.tbytes t a n = v.tbytes t a n := by
  unfold State.tbytes
  simp only [hk, bytes_congr hm]

/-- A thread reads back the bytes that it has just stored: its youngest store goes over the others. -/
theorem tbytes_threadStore (u : State) (t a : Nat) {bs : List Byte} (h : bs ≠ []) : (threadStore u t a bs).tbytes t a bs.length = bs := by
  have hlen : 0 < bs.length := List.length_pos_iff.2 h
  apply List.ext_getElem
  · simp [State.tbytes, threadStore, hlen]
  · intro k _ hk
    simp [State.tbytes, threadStore, hlen, hk]

theorem tbytes_threadStore_leBytes (u : State) (t a v : Nat) (hn : 0 < n) : (threadStore u t a (leBytes n v)).tbytes t a n = leBytes n v := by
  have hne : leBytes n v ≠ [] := List.ne_nil_of_length_pos (by rwa [leBytes_length])
  simpa only [leBytes_length] using tbytes_threadStore u t a hne

theorem bytes_setBytes_leBytes (u : State) (a n v : Nat) : (u.setBytes a (leBytes n v)).bytes a n = leBytes n v := by
  simpa only [leBytes_length] using bytes_setBytes u (leBytes n v) a

theorem completes_store_thread (hc : AccessesBy c i n false sext) (hn : 0 < n) {t : Fin 64} (ha : (i.memM (s.treg t) n false sext).addr.toNat = a)
    (hi : s.issues (.thread t) i) (hal : a % n = 0) (hin : a + n ≤ 0x80000) :
    Completes (c (.thread t)) s fun u => u.tbytes t (0x12000000 + a) n = leBytes n (s.treg t i.rd).toNat := by
  subst ha
  obtain ⟨-, -, -, stores⟩ := mem_thread s t i (i.memM (s.treg t) n false sext) _ rfl _ (hc _ s) hi
  obtain ⟨base, stored⟩ : ∃ base, Does (c (.thread t)) s (threadDone (baseWritten
      (threadStore s.slotUsed t (0x12000000 + (i.memM (s.treg t) n false sext).addr.toNat) (leBytes n (s.treg t i.rd).toNat)) (.thread t) base) t i.len) :=
    ⟨_, stores hal hin rfl⟩
  refine stored.completes ((tbytes_congr ?_ ?_ _ _ _).trans (tbytes_threadStore_leBytes s.slotUsed _ _ _ hn))
  · simp only [settle_rest, keepQueue_rest, threadDone_mem, baseWritten_mem]
  · simp only [settle_rest, keepQueue_rest, threadDone_stores, baseWritten_stores]

theorem completes_store_tcm (hc : AccessesBy c i n false sext) (ha : (i.memM s.kreg n false sext).addr.toNat = a) (hi : s.issues .kiln i) (hal : a % n = 0)
    (htcm : inTcm a = true) (hwp : s.wpMatch true a n = none) :
    Completes (c .kiln) s fun u => u.bytes a n = leBytes n (s.kreg i.rd).toNat := by
  subst ha
  obtain ⟨-, -, access⟩ := mem_kiln s i (i.memM s.kreg n false sext) _ rfl _ (hc _ s) hi
  obtain ⟨-, -, -, stores, -⟩ := access hal (.inl (inRegs_of_inTcm _ htcm)) hwp
  obtain ⟨fetched, base, stored⟩ : ∃ fetched base, Does (c .kiln) s (kdone (baseWritten
      (State.setBytes fetched (i.memM s.kreg n false sext).addr.toNat (leBytes n (s.kreg i.rd).toNat)) .kiln base) i.len) := ⟨_, _, stores rfl htcm⟩
  refine stored.completes (Eq.trans (bytes_congr ?_ _ _) (bytes_setBytes_leBytes fetched _ _ _))
  simp only [settle_rest, keepQueue_rest, kdone_mem, baseWritten_mem]

theorem completes_store_buffer (hc : AccessesBy c i n false sext) (ha : (i.memM s.kreg n false sext).addr.toNat = a) (hi : s.issues .kiln i) (hal : a % n = 0)
    (hreg : inRegs a = false ∨ s.ksup = true) (htcm : inTcm a = false) (hwp : s.wpMatch true a n = none) :
    Completes (c .kiln) s fun u => u.kiln.sb.getLast? = some (a, leBytes n (s.kreg i.rd).toNat) := by
  subst ha
  obtain ⟨-, -, access⟩ := mem_kiln s i (i.memM s.kreg n false sext) _ rfl _ (hc _ s) hi
  obtain ⟨-, -, -, -, stores⟩ := access hal hreg hwp
  obtain ⟨roomy, base, stored⟩ : ∃ roomy base, Does (c .kiln) s (kdone (baseWritten (State.setKiln roomy
      { roomy.kiln with sb := roomy.kiln.sb ++ [((i.memM s.kreg n false sext).addr.toNat, leBytes n (s.kreg i.rd).toNat)] }) .kiln base) i.len) :=
    ⟨_, _, stores rfl htcm⟩
  refine stored.completes ?_
  simp only [settle_rest, keepQueue_rest, kdone_sb, baseWritten_sb, kiln_setKiln, List.getLast?_concat]

end

/-- Settles O39: a load writes its base first and its destination last; a store takes its bytes from the registers of before the base is written. -/
theorem writeBackToTheDataRegister : Obligations.WriteBackToTheDataRegister := by
  intro s cc arg long loads stores
  have loadRows : ∀ l ∈ loads, AccessesBy l.1 (long l.2.1) l.2.2.1 true l.2.2.2 := by
    simp only [loads, List.forall_mem_cons]
    exact ⟨fun _ _ => rfl, fun _ _ => rfl, fun _ _ => rfl, fun _ _ => rfl, fun _ _ => rfl, fun _ h => nomatch h⟩
  have storeRows : ∀ c ∈ stores, 0 < c.2.2 ∧ AccessesBy c.1 (long c.2.1) c.2.2 false false := by
    simp only [stores, List.forall_mem_cons]
    exact ⟨⟨by decide, fun _ _ => rfl⟩, ⟨by decide, fun _ _ => rfl⟩, ⟨by decide, fun _ _ => rfl⟩, fun _ h => nomatch h⟩
  refine ⟨fun l hl => ?_, fun l w seen hl _ => ?_, fun c hc => ?_⟩
  · intro i n ea _ _
    have row := loadRows l hl
    exact ⟨fun t hi hal hin => completes_load_thread row rfl hi hal hin, fun hi hal htcm hwp => completes_load_tcm row rfl hi hal htcm hwp⟩
  · intro r u hf hk hp hb he hpo hh hs
    have data : loadReturn s seen = loadWrite u l (leOf r.data) := loadReturn_of_data rfl rfl hl hf hk hp hb he hpo hh hs
    refine (does_of rfl data).completes ?_
    rw [kreg_wire, kreg_loadWrite]
  · intro i n ea _ hrd
    obtain ⟨hn, row⟩ := storeRows c hc
    rw [← hrd]
    refine ⟨fun t hi hal hin => completes_store_thread row hn rfl hi hal hin, fun hi hal hreg hwp => ⟨fun htcm => ?_, fun htcm => ?_⟩⟩
    · exact completes_store_tcm row rfl hi hal htcm hwp
    · exact completes_store_buffer row rfl hi hal hreg htcm hwp

end Sys2Proof.Machine
end
